-- ==== Sys2Proof/Word.lean ====
section
/-!
DEFINITION. The word types of the KW-56 (R9, R10): bytes, and the words its structures are laid out in.
-/

namespace Sys2Proof

/-- A byte of any memory, field or message. -/
abbrev Byte := BitVec 8
/-- A 16-bit field. -/
abbrev Word16 := BitVec 16
/-- A 32-bit word: an accumulator word (R211), an FP32 value, a register of Window C (R583). -/
abbrev Word32 := BitVec 32
/-- A 64-bit field. -/
abbrev Word64 := BitVec 64
/-- A tile instruction (R248). -/
abbrev InstrWord := BitVec 128

end Sys2Proof
end

