-- ==== Sys2Proof/Syntax.lean ====
section
/-!
DEFINITION. The commands of the KW-56: one constructor per row of spec/opcode_table.json, with the operands the row's rules
give it. A row of an engine queue names the core (and the queue): the instruction is the one at the queue's program counter.
-/

namespace Sys2Proof

/-- The four program queues and the Plotter queue of a core, in the order of R81. -/
inductive QName where
  | fetch | array | vector | dispatch | plotter
  deriving DecidableEq, Repr

/-- The paths that reach the object dictionary (R606): mailbox, command ring, Chart on the field network. -/
inductive Path where
  | mailbox | ring | field
  deriving DecidableEq, Repr

/-- The two feeds (R639). -/
inductive Feed where
  | a | b
  deriving DecidableEq, Repr

/-- A halyard sum (R459): header, code vector, words row by row. -/
structure SumMsg where
  layer : Nat
  tile : Nat
  step : Nat
  round : Nat
  contributors : Nat
  tokens : Nat
  gaps : Nat
  saturations : Nat
  nonfinite : Nat
  chain : Nat
  m : Nat
  n : Nat
  skips : Nat
  excluded : Nat
  codes : List Nat
  words : List Int
  deriving DecidableEq, Repr

/-- A DOWNHAUL body (R556). -/
structure DownMsg where
  layer : Nat
  part : Nat
  step : Nat
  first : Nat
  count : Nat
  data : List Byte
  deriving DecidableEq, Repr

/-- A GATHER_REQ body (R556, R559, R560, R563). -/
structure GatherMsg where
  kind : Nat
  aux : Nat
  tag : Nat
  layer : Nat
  step : Nat
  first : Nat
  count : Nat
  deriving DecidableEq, Repr

/-- A HEARTBEAT body (R556). -/
structure BeatMsg where
  reading : Nat
  current : Nat
  attempt : Nat
  role : Nat
  flags : Nat
  ports : Nat
  eventSeq : Nat
  deriving DecidableEq, Repr

/-- A message of the Peolo transport (R556). -/
inductive Msg where
  | sum (b : SumMsg)
  | down (b : DownMsg)
  | gatherReq (b : GatherMsg)
  | gatherData (b : GatherMsg) (data : List Byte)
  | checkpoint (slot record step offset : Nat) (data : List Byte)
  | heartbeat (b : BeatMsg)
  | control (subtype layer step value : Nat)
  deriving DecidableEq, Repr

/-- What a received frame is: of the Peolo transport, PAUSE or priority-based flow control (R544), or another frame for the module (R548). -/
inductive FrameKind where
  | peolo | flowControl | other
  deriving DecidableEq, Repr

/-- A received frame, of a Peolo frame (R553) its header fields and payload, and how it arrived. -/
structure Frame where
  kind : FrameKind := .peolo
  version : Nat
  type : Nat
  flags : Nat
  src : Nat
  dst : Nat
  job : Nat
  seq : Nat
  ack : Nat
  sack : Nat
  msgId : Nat
  frag : Nat
  fragCount : Nat
  tag : Nat
  payload : List Byte
  checksumOk : Bool
  ceMarked : Bool
  deriving DecidableEq, Repr

/-- The authentication trailer of a Chart write (R744), as the wire carries it. -/
structure Trailer where
  keyId : Nat
  counter : Nat
  mac : List Byte
  deriving DecidableEq, Repr

/-- A Chart request (R600): the client that sent it, its path, header fields and body; VERSION, FLAGS bits [7:2] and LENGTH as the header
carries them. -/
structure Chart where
  path : Path
  client : Nat
  txn : Nat
  index : Nat
  sub : Nat
  offset : Nat
  last : Bool
  auth : Option Trailer
  body : List Byte
  version : Nat := 1
  flagBits : Nat := 0
  length : Nat := body.length
  deriving DecidableEq, Repr

/-- A class B fault as it is detected (R509). -/
inductive FaultB where
  | core (n : Nat)
  | router (n : Nat)
  | link (l : Nat)
  | stackData (stack : Nat)
  | neatSegment (k : Nat)
  /-- one channel of a neat line segment in a direction, 0 ascending and 1 descending (R511). -/
  | neatChannel (k direction : Nat)
  deriving DecidableEq, Repr

/-- A class C fault as it is detected (R509). -/
inductive FaultC where
  | sheetLost (s : Nat)
  | fabricRail (s : Nat)
  | plane (s : Nat)
  | stack (k : Nat)
  | portGroup (g : Nat)
  | noReserve
  deriving DecidableEq, Repr

/-- The tables whose double-bit error is a reset source (R388, R511). -/
inductive CritTable where
  | nextHop | target | legend | halyard | chain
  deriving DecidableEq, Repr

/-- Sensor readings of one sample (R675): degrees Celsius as FP32 words. -/
structure Sample where
  coreTemps : List (Nat × Word32)
  sheetTemps : List (Nat × Word32)
  ringOsc : List (Nat × Nat)
  inlet : Word32
  outlet : Word32
  deriving DecidableEq, Repr

/-- How one release step ends (R695, R697): the outcomes that the start's tests give. -/
structure StepReport where
  /-- pins as they read at the sample (step 1). -/
  bootSrc : Nat
  clkMode : Nat
  slotId : Nat
  /-- shadow banks (0 trims, 1 rows, 2 wires, 3 field defects) whose recheck fails (R701), and those whose loads fail, each with the number of
  failures in a row (R702). -/
  recheckFailed : List Nat
  loadFailures : List (Nat × Nat)
  /-- both copies of a flash item fail their CRC (R705). -/
  flashBad : Bool
  /-- cores, routers, link directions, stacks, converters and ports that fail their test (R697). -/
  badCores : List Nat
  badRouters : List Nat
  badLinks : List Nat
  badStacks : List Nat
  badConverters : List Nat
  badPorts : List Nat
  /-- failed data wires that self-test finds beyond the survey's: link direction and wire (R373). -/
  wires : List (Nat × Nat)
  /-- flash copies of the field-defect list that read back damaged (R48). -/
  tornDefects : List Nat
  /-- image slots whose header, manifest or a body chunk reads back damaged (steps 4 and 5 of R723). -/
  badImages : List Nat
  deriving DecidableEq, Repr

/-- A packet that arrives at a CORE port: the receiver, and how many packets of the sender for it, on the same channel, it overtakes
(R381). -/
structure Arrived where
  dst : Nat
  nth : Nat
  deriving DecidableEq, Repr

/-- The head of an input buffer's queue (R379): its channel, the FCLK cycles that it has waited, and whether the escape sub-channel of the
next router has a credit. -/
structure HeadWait where
  chan : Nat
  waited : Nat
  credit : Bool
  deriving DecidableEq, Repr

/-- The output of a regulator as sampled, in mV (R653). -/
structure RailSample where
  reg : Nat
  mv : Nat
  deriving DecidableEq, Repr

/-- A phase of a regulator that fails, and whether its output is still in regulation (R654, R656). -/
structure PhaseFail where
  reg : Nat
  railVoltageOk : Bool
  deriving DecidableEq, Repr

/-- The commands: one constructor per row of the table, in its order. -/
inductive Instr where
  | pwait (core : Nat) (q : QName)
  | praise (core : Nat) (q : QName)
  | fence (core : Nat) (q : QName)
  | loop (core : Nat) (q : QName)
  | endloop (core : Nat) (q : QName)
  | halt (core : Nat) (q : QName)
  | fload (core : Nat) (q : QName)
  | fconv (core : Nat) (q : QName)
  | fwgt (core : Nat) (q : QName)
  | mmul (core : Nat) (q : QName)
  | mswap (core : Nat) (q : QName)
  | vop (core : Nat) (q : QName)
  | vred (core : Nat) (q : QName)
  | vquant (core : Nat) (q : QName)
  | vtstore (core : Nat) (q : QName)
  | vrand (core : Nat) (q : QName)
  | dsend (core : Nat) (q : QName)
  | dstore (core : Nat) (q : QName)
  | dload (core : Nat) (q : QName)
  | dexit (core : Nat) (q : QName)
  | drecv (core : Nat) (q : QName)
  | operationRetire (core : Nat) (q : QName)
  | remoteRaise (src : Nat) (msg : Arrived)
  | dsendArrival (src : Nat) (msg : Arrived) (vc : Nat)
  | remoteWait (stack unit core : Nat)
  | dexitCodesReady (core : Nat)
  | halyardMergeBlock (core : Nat)
  | triangulationComplete (core ordinal : Nat)
  | lwaitGrant (stack unit : Nat)
  | streamTileSend (stack unit : Nat)
  | streamTileDelivered (stack unit core : Nat)
  | streamDescriptorEnd (stack unit : Nat)
  | streamCopyWriteRelease (stack layer : Nat)
  | ledgerContribution (stack : Nat)
  | mirrorTimeout (stack line : Nat)
  | hbmWritebackVerify (stack line : Nat) (ok : Bool)
  | patrolScrub (stack : Nat)
  | linkCrcMismatch (link : Nat) (again : Bool)
  | selftestTrigger (link : Nat)
  | linkSelftestComplete (link : Nat) (failedWires : List Nat) (sidebandFailed : Nat)
  | escapeWaitExpiry (router dest : Nat) (head : HeadWait)
  | criticalState (table : CritTable)
  | classBFault (f : FaultB)
  | routingDrainComplete
  | routingTablesBuilt
  | routingWriteComplete
  | routingReadbackComplete (ok : Bool)
  | owedUpdatesDone
  | replayRelease
  | realignRelease
  | coreSelfTestComplete (core : Nat) (ok : Bool)
  | classCFault (f : FaultC)
  | stepBoundary
  | stepStart
  | halyardOwnPartial (group layer tile step : Nat)
  | halyardSum (src group : Nat) (m : SumMsg)
  | halyardDeadline (group layer tile step : Nat)
  | halyardHopHold (group layer tile step : Nat)
  | downhaul (src iface : Nat) (m : DownMsg)
  | downhaulTimeout (stack unit : Nat)
  | updateWaitExpiry (layer step : Nat)
  | plotterUpdateStart (sheet : Nat)
  | updateComputed (sheet : Nat)
  | updateReadbackComplete (sheet : Nat)
  | journalCopyComplete (sheet : Nat)
  | takeoverWaitExpiry (layer tile step : Nat)
  | alarms (src layer step value : Nat)
  | takeover (src layer stepTag : Nat)
  | leave (src : Nat)
  | join (src : Nat)
  | peoloFrame (iface : Nat) (f : Frame)
  | ack (iface : Nat) (f : Frame)
  | ackDelayExpiry (peer : Nat)
  | rtoExpiry (peer seq : Nat)
  | pacingWindow (peer : Nat)
  | heartbeatSend
  | heartbeat (src : Nat) (b : BeatMsg)
  | peerLost (peer : Nat)
  | gatherReq (src : Nat) (g : GatherMsg)
  | gatherReqReady (stack tag : Nat)
  | gatherData (src : Nat) (g : GatherMsg) (data : List Byte)
  | portLinkUp (iface : Nat)
  | portLinkDown (iface : Nat)
  | neighborSolicitation (iface : Nat) (target : List Byte)
  | cblPresN (port : Nat) (level : Bool)
  | perst
  | cmdProducer (value : Word32)
  | cplConsumer (value : Word32)
  | evtConsumer (value : Word32)
  | mbDoorbell
  | cmdEn (value : Bool)
  | evtEn (value : Bool)
  | busMasterEnable (value : Bool)
  | cmdDrainTimeout (function : Nat)
  | hostRegisterWrite (offset : Nat) (value : Word32)
  | nop
  | odRequest (request : List Byte)
  | dmaToHbm (data : List Byte)
  | dmaFromHbm
  | cmdFence
  | dmaComplete (tag : Word32)
  | cplCoalesceTime
  | windowDRead (offset length : Nat)
  | windowDWrite (offset : Nat) (data : List Byte)
  | read (c : Chart)
  | write (c : Chart)
  | readBlock (c : Chart)
  | writeBlock (c : Chart)
  | discover (client txn : Nat)
  | snapshotExpiry (client index sub : Nat)
  | writeSessionIdle (index sub : Nat)
  | presenceInterval
  | odWrite (path : Path) (index sub : Nat) (body : List Byte)
  | fieldDefectsClear
  | flushFlagsClear
  | accFlagsClear
  | planLoad (stack address length : Nat)
  | planUnload
  | stepInput (step tokens bytes : Nat)
  | jobStart
  | jobAbort
  | plotterFlagsClear
  | checkpointArm (step : Nat) (dest : List Byte) (port : Nat)
  | checkpointSeal
  | spareAdopt (module stack address length : Nat)
  | powerRequest (target : Nat)
  | powerTransitionComplete
  | resetCold (path : Path)
  | resetWarm (path : Path)
  | resetFabric
  | resetCore (core : Nat)
  | datumExit (path : Path)
  | nvLogClear
  | counterSelect (blob : List Byte)
  | bundle (path : Path) (offset : Nat) (data : List Byte)
  | bundleAbandon
  | fwSwap (path : Path)
  | fwConfirm
  | confirmExpiry
  | confirmStore
  | attest (nonce : List Byte)
  | attestSigned
  | feedStateChange (feed : Feed) (mv : Nat)
  | feedReconnect (feed : Feed)
  | feedPresNRise (feed : Feed)
  | feedPresNFall (feed : Feed)
  | powerFail
  | converterFailed (conv : Nat)
  | railDeviation (rail : RailSample)
  | regPhaseFailed (phase : PhaseFail)
  | regFailed (reg : Nat) (railVoltageOk : Bool)
  | fencedCoreDrain (core : Nat)
  | regShort (reg : Nat) (railVoltageOk : Bool)
  | turnOnRequest (reg : Nat)
  | turnOnAdmitted (sheet : Nat) (present : Nat)
  | turnOnWait (sheet : Nat)
  | sensorSample (r : Sample)
  | droopExcursion (core : Nat)
  | mrst (heldNs : Nat)
  | watchdog
  | criticalControl
  | startTimeout
  | resetAssert
  | nvPulseEnd
  | releaseStep (r : StepReport)
  | thermalHold (inlet : Word32)
  | clkRefAbsent
  | captureMessage (block : Nat)
  | gazInterval
  | gazetteerSweep
  | planLoadComplete (fault : Bool)
  | fabricResetComplete (wires : List (Nat × Nat)) (badLinks : List Nat)
  | coreResetComplete (ok : Bool)
  | cartoucheHoldupEnd
  | hostLinkDown
  | turnOnRampComplete (reg : Nat)
  | plcaBeaconMissed (present : Bool)
  deriving DecidableEq, Repr

end Sys2Proof
end

