-- ==== Sys2Proof/Config.lean ====
section
/-!
DEFINITION. What a module fixes at manufacture and what the spec leaves open: constants without a body, so that nothing can
be proved of their values. Each is named in a row of notes/assumptions.
-/

namespace Sys2Proof.Config

/-- The survey as shipped with this wafer (R35). notes/assumptions/12.md. -/
opaque survey : List Byte
/-- The survey digest in eFuse (R36). notes/assumptions/12.md. -/
opaque surveyDigest : List Byte
/-- MODULE_SERIAL, up to 16 characters (R628). notes/assumptions/12.md. -/
opaque moduleSerial : List Byte
/-- MAC_BASE / 128 (R628). notes/assumptions/12.md. -/
opaque macBase : Nat
/-- PCI_IDS (R612). notes/assumptions/12.md. -/
opaque pciIds : Nat
/-- Digest of root key slot k (R713). notes/assumptions/12.md. -/
opaque rootKey : Nat → List Byte
/-- Revocation fuses blown at delivery, bits 3:0 (R713). notes/assumptions/12.md. -/
opaque revoked : Nat
/-- Anti-rollback steps blown at delivery (R714). notes/assumptions/12.md. -/
opaque rollback : Nat
/-- IDENTITY_KEY and IDENTITY_CERT (R715). notes/assumptions/12.md. -/
opaque identityKey : List Byte
opaque identityCert : List Byte
/-- The bundle held in image slot 0 at delivery (R721). notes/assumptions/12.md. -/
opaque factoryBundle : List Byte
/-- The image digest of that bundle (R720). notes/assumptions/12.md. -/
opaque factoryDigest : List Byte

/-- A free value of the n-th draw (a number: its reader takes the bits it needs). notes/assumptions/8.md. -/
opaque freeNat : Nat → Nat
/-- The value of VOP function `func` on an FP32 input, before the bounds of R280 and R791. notes/assumptions/8.md. -/
opaque vopValue : Nat → Word32 → Word32
/-- cos(π·x) of R488 in FP32, before the bound of R280. notes/assumptions/8.md. -/
opaque cosPi : Word32 → Word32
/-- E_DEFAULT (R426) of a tile of which the owner's module has no halyard table entry. notes/assumptions/8.md. -/
opaque ownerExp : (layer tile : Nat) → Int
/-- The MAC address that Neighbor Discovery resolves a next-hop address to on an interface (R548). notes/assumptions/32.md. -/
opaque neighborMac : (iface : Nat) → (address : List Byte) → List Byte
/-- Event code of a named event (R541, EVENT_NAMES). notes/assumptions/10.md. -/
opaque eventCode : String → Nat
/-- DETAIL of a named event, from what the event carries. notes/assumptions/10.md. -/
opaque eventDetail : String → List Nat → Nat
/-- Code of a loss cause in PEER_STATE (R578), which the spec does not give: 0 heartbeat, 1 LEAVE, 2 no interface up.
notes/assumptions/10.md. -/
opaque lossCode : Nat → Nat
/-- SLH-DSA-SHA2-128s verification of a signature over a message under a public key (R712). notes/assumptions/9.md. -/
opaque slhVerify : (key msg sig : List Byte) → Bool
/-- SLH-DSA-SHA2-128s signature of a message by the identity key (R740). notes/assumptions/9.md. -/
opaque slhSign : List Byte → List Byte
/-- Which of several shortest-path ports firmware enters as PRIMARY (R378): an index. notes/assumptions/14.md. -/
opaque pickPort : (router dest count : Nat) → Nat
/-- Stack and data address of the gazetteer ring and of the step records in the firmware area (R307, R766).
notes/assumptions/15.md. -/
opaque gazStack : Nat
opaque gazAddress : Nat
opaque recordStack : Nat
opaque recordAddress : (slot : Nat) → Nat
/-- What the Plotter feeds to a core's Plotter queue for the update of a layer in a step (R250, R470), whose split over the cores of a sheet
the spec leaves to firmware: the instructions, and the rows for each draw of SOURCE 1. notes/assumptions/16.md. -/
opaque plotterProgram : (layer step core : Nat) → List InstrWord
opaque plotterRows : (layer step core : Nat) → List (List (List Byte))

end Sys2Proof.Config
end

