-- ==== Sys2Proof/Machine/Tab.lean ====
section
/-!
DEFINITION. Sparse tables and byte memories: sorted lists of (key, value) pairs, byte strings in the two byte orders of
R10, and the bit fields of R9.
-/

namespace Sys2Proof.Machine

/-- A table that holds the listed keys; an absent key reads as a default that the reader names. -/
abbrev Tab (α : Type) := List (Nat × α)

/-- The value at key `k`, or `d` when the table lists none. -/
def Tab.get {α : Type} (d : α) : Tab α → Nat → α
  | [], _ => d
  | (k', v) :: t, k => if k = k' then v else if k < k' then d else Tab.get d t k

/-- The value at key `k`, if the table lists one. -/
def Tab.find {α : Type} : Tab α → Nat → Option α
  | [], _ => none
  | (k', v) :: t, k => if k = k' then some v else if k < k' then none else Tab.find t k

/-- Key `k` now holds `v`; keys stay in ascending order. -/
def Tab.set {α : Type} : Tab α → Nat → α → Tab α
  | [], k, v => [(k, v)]
  | (k', v') :: t, k, v =>
    if k = k' then (k, v) :: t
    else if k < k' then (k, v) :: (k', v') :: t
    else (k', v') :: Tab.set t k v

/-- Key `k` is listed no more. -/
def Tab.erase {α : Type} : Tab α → Nat → Tab α
  | [], _ => []
  | (k', v') :: t, k => if k = k' then t else if k < k' then (k', v') :: t else (k', v') :: Tab.erase t k

/-- `f` applied to the value at key `k` (to `d` when none is listed). -/
def Tab.upd {α : Type} (d : α) (t : Tab α) (k : Nat) (f : α → α) : Tab α :=
  Tab.set t k (f (Tab.get d t k))

/-- A byte memory: (address, byte) pairs with strictly rising addresses, none equal to what an unlisted address reads
as. -/
abbrev Memory := List Host.Cell

/-- What a byte that nothing has written reads as. The spec states no contents at power-on.
DESIGN CHOICE, unsafe: notes/assumptions/4.md. -/
def Memory.blank : Byte := 0

/-- The canonical form of a byte memory. -/
def Memory.wf : Memory → Bool
  | [] => true
  | [(_, v)] => v != Memory.blank
  | (a, v) :: (b, w) :: t => v != Memory.blank && decide (a < b) && Memory.wf ((b, w) :: t)

/-- The byte at address `a`. -/
def Memory.read (m : Memory) (a : Nat) : Byte := Tab.get Memory.blank m a

/-- The byte at address `a` becomes `v`; an entry equal to the blank byte is dropped. -/
def Memory.write (m : Memory) (a : Nat) (v : Byte) : Memory :=
  if v = Memory.blank then Tab.erase m a else Tab.set m a v

/-- `n` bytes from address `a`, in ascending order. -/
def Memory.readN (m : Memory) (a : Nat) : Nat → List Byte
  | 0 => []
  | n + 1 => Memory.read m a :: Memory.readN m (a + 1) n

/-- The bytes of `l` from address `a` on. -/
def Memory.writeN (m : Memory) (a : Nat) : List Byte → Memory
  | [] => m
  | b :: l => Memory.writeN (Memory.write m a b) (a + 1) l

/-- Little-endian value of a byte string (R10). -/
def leNat : List Byte → Nat
  | [] => 0
  | b :: l => b.toNat + 256 * leNat l

/-- Big-endian value of a byte string (R10). -/
def beNat (l : List Byte) : Nat := leNat l.reverse

/-- `v` as `n` little-endian bytes. -/
def leBytes (v : Nat) : Nat → List Byte
  | 0 => []
  | n + 1 => BitVec.ofNat 8 v :: leBytes (v / 256) n

/-- `v` as `n` big-endian bytes. -/
def beBytes (v n : Nat) : List Byte := (leBytes v n).reverse

/-- `n` zero bytes. -/
def zeros (n : Nat) : List Byte := List.replicate n 0

/-- Bits [lo + w − 1 : lo] of a number (R9). -/
def field (x lo w : Nat) : Nat := x / 2 ^ lo % 2 ^ w

/-- Bit `i` of a number. -/
def bit (x i : Nat) : Bool := field x i 1 = 1

/-- The two's-complement value of a `w`-bit field. -/
def signed (x w : Nat) : Int := if x < 2 ^ (w - 1) then (x : Int) else (x : Int) - 2 ^ w

/-- The `n` bytes of `l` from offset `o` (fewer at the end). -/
def slice (l : List Byte) (o n : Nat) : List Byte := (l.drop o).take n

/-- The little-endian field of `n` bytes at offset `o`. -/
def leAt (l : List Byte) (o n : Nat) : Nat := leNat (slice l o n)

/-- ⌈a / b⌉. -/
def ceilDiv (a b : Nat) : Nat := (a + b - 1) / b

/-- A 32-bit saturating count goes up by `n` (R209, R246, R356). -/
def satAdd32 (c n : Nat) : Nat := min (c + n) 0xFFFFFFFF

/-- A 16-bit saturating count goes up by `n` (R344, R435). -/
def satAdd16 (c n : Nat) : Nat := min (c + n) 0xFFFF

/-- An 8-bit saturating count goes up by `n` (R435). -/
def satAdd8 (c n : Nat) : Nat := min (c + n) 0xFF

/-- The numbers `a`, …, `a + n − 1`. -/
def upFrom (a : Nat) : Nat → List Nat
  | 0 => []
  | n + 1 => a :: upFrom (a + 1) n

/-- Chunks of `n` elements, in order (the last may be shorter); `fuel` bounds their number. -/
def chunksF {α : Type} (n : Nat) : Nat → List α → List (List α)
  | 0, _ => []
  | _, [] => []
  | f + 1, l => l.take n :: chunksF n f (l.drop n)

/-- Chunks of `n` elements, in order. -/
def chunks {α : Type} (n : Nat) (l : List α) : List (List α) := chunksF n l.length l

/-- The bytes of an ASCII text. -/
def ascii (t : String) : List Byte := t.toList.map (fun c => BitVec.ofNat 8 c.toNat)

end Sys2Proof.Machine
end

