-- ==== Sys2Proof/Machine/Fp.lean ====
section
/-!
DEFINITION. Exact floating-point arithmetic: values as sign, magnitude and power of two, the element encodings of R154, the
three rounding modes of R171 and R172, and FP32 arithmetic with round to nearest even.
-/

namespace Sys2Proof.Machine

/-- A value of a floating form: NaN, an infinity, or ±m·2^e (m = 0 is a signed zero). -/
inductive Fp where
  | nan
  | inf (neg : Bool)
  | fin (neg : Bool) (m : Nat) (e : Int)
  deriving DecidableEq, Repr

/-- Rounding modes of R171; stochastic rounding carries its bit count b and its random field ρ (R172). -/
inductive Rnd where
  | rne
  | rtz
  | sr (b rho : Nat)
  deriving DecidableEq, Repr

/-- An element form of R154: exponent and mantissa bits, bias, and which codes are not finite. -/
structure FloatForm where
  ebits : Nat
  mbits : Nat
  bias : Nat
  /-- 0: an all-ones exponent is infinity or NaN; 1: only all-ones exponent and mantissa is NaN; 2: every code is finite. -/
  special : Nat
  deriving DecidableEq, Repr

def fp32F : FloatForm := ⟨8, 23, 127, 0⟩
def bf16F : FloatForm := ⟨8, 7, 127, 0⟩
def e4m3F : FloatForm := ⟨4, 3, 7, 1⟩
def e5m2F : FloatForm := ⟨5, 2, 15, 0⟩
def e2m1F : FloatForm := ⟨2, 1, 1, 2⟩

/-- The exponent of the smallest subnormal of a form. -/
def FloatForm.emin (f : FloatForm) : Int := 1 - (f.bias : Int) - (f.mbits : Int)

/-- The value of a code of form `f` (R154). -/
def FloatForm.decode (f : FloatForm) (c : Nat) : Fp :=
  let man := field c 0 f.mbits
  let ex := field c f.mbits f.ebits
  let neg := bit c (f.mbits + f.ebits)
  let top := 2 ^ f.ebits - 1
  if f.special = 0 ∧ ex = top then (if man = 0 then .inf neg else .nan)
  else if f.special = 1 ∧ ex = top ∧ man = 2 ^ f.mbits - 1 then .nan
  else if ex = 0 then .fin neg man f.emin
  else .fin neg (2 ^ f.mbits + man) (f.emin + (ex : Int) - 1)

/-- The code is a non-zero subnormal of form `f`. -/
def FloatForm.isSubnormal (f : FloatForm) (c : Nat) : Bool :=
  field c f.mbits f.ebits = 0 && field c 0 f.mbits != 0

/-- m·2^s for an integer power s (a negative power truncates). -/
def scaleNat (m : Nat) (s : Int) : Nat := if 0 ≤ s then m * 2 ^ s.toNat else m / 2 ^ (-s).toNat

/-- The magnitude m·2^e on the grid of multiples of 2^u, under the mode (R171, R172). -/
def roundAt (mode : Rnd) (m : Nat) (e u : Int) : Nat :=
  if u ≤ e then m * 2 ^ (e - u).toNat
  else
    let sh := (u - e).toNat
    let lo := m / 2 ^ sh
    let rem := m % 2 ^ sh
    match mode with
    | .rtz => lo
    | .rne =>
      if 2 * rem > 2 ^ sh ∨ (2 * rem = 2 ^ sh ∧ lo % 2 = 1) then lo + 1 else lo
    | .sr b rho => if rho < 2 ^ b * rem / 2 ^ sh then lo + 1 else lo

/-- The grid exponent of a magnitude m·2^e in a form, its range continued without a largest value (R790). -/
def FloatForm.gridExp (f : FloatForm) (m : Nat) (e : Int) : Int :=
  max (((Nat.log2 m : Nat) : Int) + e - (f.mbits : Int)) f.emin

/-- The magnitude m·2^e rounded on the continued grid of a form: q and u of q·2^u. -/
def FloatForm.roundMag (f : FloatForm) (mode : Rnd) (m : Nat) (e : Int) : Nat × Int :=
  if m = 0 then (0, f.emin)
  else (roundAt mode m e (f.gridExp m e), f.gridExp m e)

/-- The code of ±q·2^u, a value of the form's grid inside its range. -/
def FloatForm.pack (f : FloatForm) (neg : Bool) (q : Nat) (u : Int) : Nat :=
  let s := if neg then 2 ^ (f.mbits + f.ebits) else 0
  if q = 0 then s
  else
    let l : Int := ((Nat.log2 q : Nat) : Int) + u
    let ex := l + (f.bias : Int)
    if ex ≤ 0 then s + scaleNat q (u - f.emin)
    else s + ex.toNat * 2 ^ f.mbits + (scaleNat q (u - (l - (f.mbits : Int))) - 2 ^ f.mbits)

/-- The largest finite magnitude of a form, as (m, e). -/
def FloatForm.maxFin (f : FloatForm) : Nat × Int :=
  if f.special = 0 then (2 ^ (f.mbits + 1) - 1, f.emin + (2 ^ f.ebits : Int) - 3)
  else if f.special = 1 then (2 ^ (f.mbits + 1) - 2, f.emin + (2 ^ f.ebits : Int) - 2)
  else (2 ^ (f.mbits + 1) - 1, f.emin + (2 ^ f.ebits : Int) - 2)

/-- m₁·2^e₁ > m₂·2^e₂. -/
def magGt (m1 : Nat) (e1 : Int) (m2 : Nat) (e2 : Int) : Bool :=
  let b := min e1 e2
  decide (m1 * 2 ^ (e1 - b).toNat > m2 * 2 ^ (e2 - b).toNat)

/-- q·2^u exceeds the largest finite magnitude of the form (R790). -/
def FloatForm.over (f : FloatForm) (q : Nat) (u : Int) : Bool :=
  magGt q u f.maxFin.1 f.maxFin.2

/-- The code of an infinity. -/
def FloatForm.infCode (f : FloatForm) (neg : Bool) : Nat :=
  (if neg then 2 ^ (f.mbits + f.ebits) else 0) + (2 ^ f.ebits - 1) * 2 ^ f.mbits

/-- The canonical NaN 0x7FC0_0000 (R155). -/
def nan32 : Word32 := 0x7FC00000#32

/-- +∞ and −∞ in FP32. -/
def inf32 (neg : Bool) : Word32 := BitVec.ofNat 32 (fp32F.infCode neg)

/-- A zero of the given sign in FP32. -/
def zero32 (neg : Bool) : Word32 := if neg then 0x80000000#32 else 0#32

/-- The value of an FP32 word. -/
def val32 (w : Word32) : Fp := fp32F.decode w.toNat

/-- ±m·2^e rounded to FP32, to nearest with ties to even; overflow gives the infinity of the sign. -/
def round32 (neg : Bool) (m : Nat) (e : Int) : Word32 :=
  let r := fp32F.roundMag .rne m e
  if fp32F.over r.1 r.2 then inf32 neg else BitVec.ofNat 32 (fp32F.pack neg r.1 r.2)

/-- A value as FP32, to nearest even. -/
def toFp32 : Fp → Word32
  | .nan => nan32
  | .inf n => inf32 n
  | .fin n m e => round32 n m e

/-- The integer value of ±m, as a signed number. -/
def sgn (neg : Bool) (m : Nat) : Int := if neg then -(m : Int) else (m : Int)

/-- Exact sum of two finite values: (sum, exponent). -/
def addExact (n1 : Bool) (m1 : Nat) (e1 : Int) (n2 : Bool) (m2 : Nat) (e2 : Int) : Int × Int :=
  let b := min e1 e2
  (sgn n1 (m1 * 2 ^ (e1 - b).toNat) + sgn n2 (m2 * 2 ^ (e2 - b).toNat), b)

/-- IEEE 754 sum of two values, exact before rounding; the sign of an exact zero is that of round to nearest. -/
def Fp.add : Fp → Fp → Fp
  | .nan, _ => .nan
  | _, .nan => .nan
  | .inf a, .inf b => if a = b then .inf a else .nan
  | .inf a, .fin _ _ _ => .inf a
  | .fin _ _ _, .inf b => .inf b
  | .fin n1 m1 e1, .fin n2 m2 e2 =>
    let r := addExact n1 m1 e1 n2 m2 e2
    if r.1 = 0 then .fin (n1 && n2 && decide (m1 = 0) && decide (m2 = 0)) 0 0
    else .fin (decide (r.1 < 0)) r.1.natAbs r.2

/-- The negative of a value. -/
def Fp.neg : Fp → Fp
  | .nan => .nan
  | .inf n => .inf (!n)
  | .fin n m e => .fin (!n) m e

/-- IEEE 754 product, exact. -/
def Fp.mul : Fp → Fp → Fp
  | .nan, _ => .nan
  | _, .nan => .nan
  | .inf a, .inf b => .inf (a != b)
  | .inf a, .fin n m _ => if m = 0 then .nan else .inf (a != n)
  | .fin n m _, .inf b => if m = 0 then .nan else .inf (n != b)
  | .fin n1 m1 e1, .fin n2 m2 e2 => .fin (n1 != n2) (m1 * m2) (e1 + e2)

/-- A value times 2^s. -/
def Fp.scale (s : Int) : Fp → Fp
  | .fin n m e => .fin n m (e + s)
  | x => x

/-- m₁·2^e₁ / (m₂·2^e₂) with a sticky bit below the quotient: a magnitude that rounds as the exact quotient does. -/
def divSticky (m1 : Nat) (e1 : Int) (m2 : Nat) (e2 : Int) : Nat × Int :=
  let k := 66 + Nat.log2 m2
  let q := m1 * 2 ^ k / m2
  let st := if m1 * 2 ^ k % m2 = 0 then 0 else 1
  (2 * q + st, e1 - e2 - (k : Int) - 1)

/-- IEEE 754 quotient (before rounding: a value that rounds as the exact quotient does). -/
def Fp.div : Fp → Fp → Fp
  | .nan, _ => .nan
  | _, .nan => .nan
  | .inf _, .inf _ => .nan
  | .inf a, .fin n _ _ => .inf (a != n)
  | .fin n _ _, .inf b => .fin (n != b) 0 0
  | .fin n1 m1 e1, .fin n2 m2 e2 =>
    if m2 = 0 then (if m1 = 0 then .nan else .inf (n1 != n2))
    else
      let r := divSticky m1 e1 m2 e2
      .fin (n1 != n2) r.1 r.2

/-- ⌊√n⌋ by `fuel` bits from the top. -/
def isqrtF (n : Nat) : Nat → Nat → Nat
  | 0, r => r
  | k + 1, r => if (r + 2 ^ k) * (r + 2 ^ k) ≤ n then isqrtF n k (r + 2 ^ k) else isqrtF n k r

/-- ⌊√n⌋. -/
def isqrt (n : Nat) : Nat := isqrtF n (Nat.log2 n / 2 + 1) 0

/-- √ of a value (before rounding: a value that rounds as the exact root does). -/
def Fp.sqrt : Fp → Fp
  | .nan => .nan
  | .inf n => if n then .nan else .inf false
  | .fin n m e =>
    if m = 0 then .fin n 0 0
    else if n then .nan
    else
      let ev : Bool := decide (e % 2 = 0)
      let m1 := (if ev then m else 2 * m) * 2 ^ 64
      let e1 : Int := (if ev then e else e - 1) - 64
      let r := isqrt m1
      .fin false (2 * r + (if r * r = m1 then 0 else 1)) (e1 / 2 - 1)

/-- FP32 operations with round to nearest even; every NaN result is the canonical NaN (R130, R155). -/
def add32 (a b : Word32) : Word32 := toFp32 ((val32 a).add (val32 b))
def sub32 (a b : Word32) : Word32 := toFp32 ((val32 a).add (val32 b).neg)
def mul32 (a b : Word32) : Word32 := toFp32 ((val32 a).mul (val32 b))
def div32 (a b : Word32) : Word32 := toFp32 ((val32 a).div (val32 b))
def sqrt32 (a : Word32) : Word32 := toFp32 (val32 a).sqrt
def neg32 (a : Word32) : Word32 := a ^^^ 0x80000000#32
def abs32 (a : Word32) : Word32 := a &&& 0x7FFFFFFF#32

/-- An integer as FP32, to nearest even (R226, R461). -/
def int32 (i : Int) : Word32 := round32 (decide (i < 0)) i.natAbs 0

/-- The word is a NaN. -/
def isNan32 (w : Word32) : Bool := val32 w = .nan

/-- The word is finite. -/
def isFin32 (w : Word32) : Bool := match val32 w with | .fin _ _ _ => true | _ => false

/-- Total order key of FP32 words that are not NaN, with −0 below +0 (R280). -/
def ordKey (w : Word32) : Int :=
  if w.toNat < 2 ^ 31 then (w.toNat : Int) else -((w.toNat : Int) - 2 ^ 31) - 1

/-- a < b among FP32 words that are not NaN, −0 counting as less than +0 (R280). -/
def lt32 (a b : Word32) : Bool := decide (ordKey a < ordKey b)

/-- VOP MAX and MIN (R280). -/
def max32 (a b : Word32) : Word32 := if isNan32 a || isNan32 b then nan32 else if lt32 a b then b else a
def min32 (a b : Word32) : Word32 := if isNan32 a || isNan32 b then nan32 else if lt32 b a then b else a

/-- a < b and a ≤ b as numbers (false when either is NaN): for the thresholds and ranges of R201, R489, R496. -/
def numLt (a b : Word32) : Bool :=
  match val32 a, val32 b with
  | .nan, _ => false
  | _, .nan => false
  | x, y => match x.add y.neg with
    | .inf n => n
    | .fin n m _ => n && m != 0
    | .nan => false
def numLe (a b : Word32) : Bool :=
  match val32 a, val32 b with
  | .nan, _ => false
  | _, .nan => false
  | _, _ => !(numLt b a)

end Sys2Proof.Machine
end

