-- ==== Sys2Proof/Machine/Formats.lean ====
section
/-!
DEFINITION. The forms of chapter 04: form codes (R257), block layouts (R158), element values with their block scales and
pennants (R154-R163), conversion into narrow forms (R164-R170, R790, R772) and the lane generators (R174-R178).
-/

namespace Sys2Proof.Machine

/-- Form codes of R257. -/
def fBF16 : Nat := 0x0
def fE4M3 : Nat := 0x1
def fE5M2 : Nat := 0x2
def fMXE4M3 : Nat := 0x3
def fMXE5M2 : Nat := 0x4
def fMXINT8 : Nat := 0x5
def fINT8 : Nat := 0x6
def fMXFP4 : Nat := 0x7
def fPFP4 : Nat := 0x8
def fINT4 : Nat := 0x9
def fT2 : Nat := 0xA
def fFP32 : Nat := 0xB

/-- K_T of a weight form (R113, R257). -/
def kT (f : Nat) : Nat := if 7 ≤ f ∧ f ≤ 10 then 256 else 128

/-- The form is a block form (R158). -/
def isBlockForm (f : Nat) : Bool := f = 3 || f = 4 || f = 5 || f = 7 || f = 8 || f = 10

/-- Bytes of one block of 32 elements (R158). -/
def blockBytes (f : Nat) : Nat :=
  if f = 7 then 17 else if f = 8 then 19 else if f = 10 then 9 else 33

/-- Bits of one element code. -/
def elemBits (f : Nat) : Nat :=
  if f = 0 then 16 else if f = 11 then 32 else if f = 7 ∨ f = 8 ∨ f = 9 then 4 else if f = 10 then 2 else 8

/-- Bytes of one column of a weight tile image (R257). -/
def columnBytes (f : Nat) : Nat :=
  if isBlockForm f then kT f / 32 * blockBytes f else kT f * elemBits f / 8

/-- The element encoding of a floating form code. -/
def floatFormOf (f : Nat) : FloatForm :=
  if f = 0 then bf16F else if f = 1 ∨ f = 3 then e4m3F else if f = 2 ∨ f = 4 then e5m2F
  else if f = 11 then fp32F else e2m1F

/-- The element codes of form `f` are floating. -/
def isFloatForm (f : Nat) : Bool := f = 0 || f = 1 || f = 2 || f = 3 || f = 4 || f = 7 || f = 8 || f = 11

/-- The bit of SUBNORMAL_MODES for the class of a floating form (R181). -/
def classBit (f : Nat) : Nat :=
  if f = 11 then 0 else if f = 0 then 1 else if f = 7 ∨ f = 8 then 3 else 2

/-- The classes flushed so far, as a mask (R184). -/
abbrev Flushes := Nat

/-- Union of two masks of flushed classes. -/
def orFlush (a b : Flushes) : Flushes := a ||| b

/-- The mask of the class of form `f`. -/
def classMask (f : Nat) : Flushes := 2 ^ classBit f

/-- The class of form `f` is in FLUSH under the modes (R181). -/
def flushes (modes f : Nat) : Bool := bit modes (classBit f)

/-- Codes of one row or column along K, with the side band of its blocks (R159). -/
structure Vec where
  form : Nat
  codes : List Nat
  scales : List Nat
  pens : List (Option (Nat × Nat))
  deriving DecidableEq, Repr

def Vec.empty (f : Nat) : Vec := ⟨f, [], [], []⟩

/-- The `n`-th code of `bits` bits of a packed byte string, lowest bits first (R158). -/
def packedCode (bits : Nat) (l : List Byte) (n : Nat) : Nat :=
  if bits = 8 then (l.getD n 0).toNat
  else if bits = 16 then leAt l (2 * n) 2
  else if bits = 32 then leAt l (4 * n) 4
  else field ((l.getD (n * bits / 8) 0).toNat) (n * bits % 8) bits

/-- Codes 0 to n − 1 of a packed byte string. -/
def packedCodes (bits : Nat) (l : List Byte) (n : Nat) : List Nat :=
  (upFrom 0 n).map (packedCode bits l)

/-- The pennant of a pennant-FP4 block from its bytes 17 and 18: (INDEX, value), if VALID (R160). -/
def penOf (b : List Byte) : Option (Nat × Nat) :=
  let fl := (b.getD 18 0).toNat
  if bit fl 5 then some (field fl 0 5, (b.getD 17 0).toNat) else none

/-- The first `n` elements of form `f` from bytes laid out under R158 or R264. -/
def Vec.ofBytes (f n : Nat) (l : List Byte) : Vec :=
  if isBlockForm f then
    let bs := (chunks (blockBytes f) l).take (ceilDiv n 32)
    { form := f,
      codes := ((bs.map (fun b => packedCodes (elemBits f) b 32)).flatten).take n,
      scales := bs.map (fun b => (b.getD (elemBits f * 4) 0).toNat),
      pens := bs.map (fun b => if f = 8 then penOf b else none) }
  else { form := f, codes := packedCodes (elemBits f) l n, scales := [], pens := [] }

/-- Encoding errors of a column: T2 codes 0b10 (R162) and non-zero reserved bits of pennant flags (R160). -/
def encErrors (f n : Nat) (l : List Byte) : Nat :=
  let v := Vec.ofBytes f n l
  let t2 := if f = 10 then (v.codes.filter (fun c => c = 2)).length else 0
  let pf := if f = 8 then
    (((chunks 19 l).take (ceilDiv n 32)).filter (fun b => field ((b.getD 18 0).toNat) 6 2 != 0)).length else 0
  t2 + pf

/-- Block scale exponent of element k: v − 127, and 0 for plain forms (R124, R156). -/
def Vec.scaleExp (v : Vec) (k : Nat) : Int :=
  if isBlockForm v.form then ((v.scales.getD (k / 32) 127 : Nat) : Int) - 127 else 0

/-- A code read as a value, a subnormal of a FLUSH class read as zero of its sign (R155, R182). -/
def readElem (modes f c : Nat) : Fp × Flushes :=
  if isFloatForm f then
    let ff := floatFormOf f
    if flushes modes f && ff.isSubnormal c then (.fin (bit c (ff.mbits + ff.ebits)) 0 0, classMask f)
    else (ff.decode c, 0)
  else if f = 10 then
    ((if c = 1 then .fin false 1 0 else if c = 3 then .fin true 1 0 else .fin false 0 0), 0)
  else if f = 9 then (let i := signed c 4; (.fin (decide (i < 0)) i.natAbs 0, 0))
  else (let i := signed c 8; (.fin (decide (i < 0)) i.natAbs (if f = 5 then -6 else 0), 0))

/-- The value of element k before its block scale; NaN in a block of scale 0xFF (R163), the pennant in place of the code
at INDEX (R161); zero past the last element, where an INDEX that lies there puts nothing (R270, R792; DEDUCED: notes/assumptions/36.md). -/
def Vec.elem (modes : Nat) (v : Vec) (k : Nat) : Fp × Flushes :=
  if v.codes.length ≤ k then (.fin false 0 0, 0)
  else if isBlockForm v.form && v.scales.getD (k / 32) 127 = 255 then (.nan, 0)
  else
    match v.pens.getD (k / 32) none with
    | some (i, p) => if k % 32 = i then readElem modes fE4M3 p else readElem modes v.form (v.codes.getD k 0)
    | none => readElem modes v.form (v.codes.getD k 0)

/-- The integer value of element k of an integer form. -/
def Vec.int (v : Vec) (k : Nat) : Int := signed (v.codes.getD k 0) (elemBits v.form)

/-- The value of element k with its block scale applied. -/
def Vec.val (modes : Nat) (v : Vec) (k : Nat) : Fp × Flushes :=
  let r := v.elem modes k
  (r.1.scale (v.scaleExp k), r.2)

/-- An FP32 word in FLUSH becomes zero of its sign when subnormal (R182, R227). -/
def flush32 (modes : Nat) (w : Word32) : Word32 × Flushes :=
  if flushes modes fFP32 && fp32F.isSubnormal w.toNat then (w &&& 0x80000000#32, classMask fFP32) else (w, 0)

/-- What a conversion adds to the counts of R209 and R184. -/
structure ConvCount where
  sat : Nat
  nonfin : Nat
  fl : Flushes
  deriving DecidableEq, Repr

def ConvCount.zero : ConvCount := ⟨0, 0, 0⟩
def ConvCount.add (a b : ConvCount) : ConvCount := ⟨a.sat + b.sat, a.nonfin + b.nonfin, orFlush a.fl b.fl⟩

/-- Limits of an integer target: (least magnitude allowed negative, largest positive). -/
def intLimit (f : Nat) (neg : Bool) : Nat := if f = 9 then (if neg then 8 else 7) else (if neg then 128 else 127)

/-- A signed integer as a code of `w` bits. -/
def intCode (neg : Bool) (m w : Nat) : Nat := if neg then (2 ^ w - m) % 2 ^ w else m

/-- A finite magnitude m·2^e, already scaled, into a floating code (R166, R170, R790, R772). -/
def convFloat (modes f : Nat) (mode : Rnd) (neg : Bool) (m : Nat) (e : Int) : Nat × ConvCount :=
  let ff := floatFormOf f
  let r := ff.roundMag mode m e
  if ff.over r.1 r.2 then
    if f = 0 then
      (match mode with
        | .rne => ff.infCode neg
        | _ => ff.pack neg ff.maxFin.1 ff.maxFin.2, ConvCount.zero)
    else (ff.pack neg ff.maxFin.1 ff.maxFin.2, ⟨1, 0, 0⟩)
  else
    let c := ff.pack neg r.1 r.2
    if flushes modes f && ff.isSubnormal c then (ff.pack neg 0 0, ⟨0, 0, classMask f⟩) else (c, ConvCount.zero)

/-- A finite scaled magnitude into an element code of form `f`; block forms saturate at ±V (R170). What
counts as beyond range in a two's-complement form: DEDUCED, notes/assumptions/36.md. -/
def convFinite (modes f : Nat) (mode : Rnd) (neg : Bool) (m : Nat) (e : Int) : Nat × ConvCount :=
  if isFloatForm f then convFloat modes f mode neg m e
  else if f = 10 then
    let q := roundAt mode m e 0
    ((if q = 0 then 0 else if neg then 3 else 1), ConvCount.zero)
  else if f = 5 then
    let q := roundAt mode m e (-6)
    if q > 127 then (intCode neg 127 8, ⟨1, 0, 0⟩) else (intCode neg q 8, ConvCount.zero)
  else
    let q := roundAt mode m e 0
    let lim := intLimit f neg
    if q > lim then (intCode neg lim (elemBits f), ⟨1, 0, 0⟩) else (intCode neg q (elemBits f), ConvCount.zero)

/-- Conversion of one value into a plain form with tensor exponent t (R169, R170). -/
def convPlain (modes f : Nat) (t : Int) (mode : Rnd) (x : Fp) : Nat × ConvCount :=
  match x with
  | .fin neg m e => convFinite modes f mode neg m (if f = 0 then e else e - t)
  | .nan =>
    if f = 0 then (0x7FC0, ConvCount.zero)
    else if isFloatForm f then (0x7F, ⟨0, 1, 0⟩)
    else (0, ⟨0, 1, 0⟩)
  | .inf neg =>
    if f = 0 then (bf16F.infCode neg, ConvCount.zero)
    else if f = 1 then (0x7F, ⟨0, 1, 0⟩)
    else if f = 2 then (e5m2F.infCode neg, ⟨0, 1, 0⟩)
    else (intCode neg (intLimit f neg) (elemBits f), ⟨0, 1, 0⟩)

/-- The value is finite. -/
def Fp.isFin : Fp → Bool
  | .fin _ _ _ => true
  | _ => false

/-- The magnitude of a finite value (0 for others). -/
def Fp.mag : Fp → Nat × Int
  | .fin _ m e => (m, e)
  | _ => (0, 0)

/-- The larger of two magnitudes. -/
def magMax (a b : Nat × Int) : Nat × Int := if magGt b.1 b.2 a.1 a.2 then b else a

/-- The largest magnitude among finite values. -/
def amaxOf (l : List Fp) : Nat × Int := l.foldl (fun a x => magMax a x.mag) (0, 0)

/-- ⌊log₂(m·2^e)⌋ for m > 0. -/
def floorLog2 (m : Nat) (e : Int) : Int := ((Nat.log2 m : Nat) : Int) + e

/-- ⌈log₂(m·2^e / (vm·2^ve))⌉ for positive magnitudes (R164, R193). -/
def ceilLog2Ratio (m : Nat) (e : Int) (vm : Nat) (ve : Int) : Int :=
  let l := floorLog2 m e - floorLog2 vm ve
  if magGt m e vm (ve + l) then l + 1 else l

/-- A number limited to lo … hi. -/
def clampInt (lo hi x : Int) : Int := max lo (min hi x)

/-- V of R164: the largest finite element. -/
def vMax (f : Nat) : Nat × Int := if f = 5 then (127, -6) else if f = 6 then (127, 0) else if f = 9 then (7, 0) else (floatFormOf f).maxFin

/-- The integer nearest log₂ of a magnitude, halves going up (R168). -/
def roundLog2 (m : Nat) (e : Int) : Int :=
  let k := Nat.log2 m
  if m * m ≥ 2 * 2 ^ (2 * k) then floorLog2 m e + 1 else floorLog2 m e

/-- m of R168: the mean magnitude of the block's inputs in FP32, added in ascending order. -/
def meanMag (l : List Fp) : Word32 :=
  let a := l.map (fun x => abs32 (toFp32 x))
  match a with
  | [] => 0#32
  | x :: t => div32 (t.foldl add32 x) (int32 l.length)

/-- The block exponent X, or none for an all-zero block (R164, R165, R168). -/
def blockExp (f : Nat) (l : List Fp) : Option Int :=
  if f = 10 then
    match val32 (meanMag l) with
    | .fin _ m e => if m = 0 then none else some (clampInt (-127) 127 (roundLog2 m e))
    | _ => some 127
  else
    let a := amaxOf l
    if a.1 = 0 then none
    else some (clampInt (-127) 127 (ceilLog2Ratio a.1 a.2 (vMax f).1 (vMax f).2))

/-- A converted block: element codes, scale byte, pennant. -/
structure Block where
  codes : List Nat
  scale : Nat
  pen : Option (Nat × Nat)
  cnt : ConvCount
  deriving DecidableEq, Repr

/-- The lowest position of the largest magnitude (R167). -/
def amaxIndex (l : List Fp) : Nat :=
  let a := amaxOf l
  l.findIdx (fun x => x.isFin && !(magGt a.1 a.2 x.mag.1 x.mag.2))

/-- Conversion of one block: `modes` the subnormal modes, `md i` the rounding of element i, `mp` that of the pennant
(R164-R168, R170, R180). Inputs are already flushed by their source class (R772 step 1). -/
def convBlock (modes f : Nat) (md : Nat → Rnd) (mp : Rnd) (l : List Fp) : Block :=
  let bad := (l.filter (fun x => !x.isFin)).length
  if bad ≠ 0 then ⟨l.map (fun _ => 0), 255, none, ⟨0, bad, 0⟩⟩
  else
    match blockExp f l with
    | none => ⟨l.map (fun _ => 0), 127, none, ConvCount.zero⟩
    | some x =>
      let r := (l.zip (upFrom 0 l.length)).map (fun p => match p.1 with
        | .fin n m e => convFinite modes f (md p.2) n m (e - x)
        | _ => (0, ConvCount.zero))
      let i := amaxIndex l
      let pv : Nat × ConvCount := match l.getD i .nan with
        | .fin n m e => convFloat modes fE4M3 mp n m (e - x)
        | _ => (0x7F, ConvCount.zero)
      let c := r.foldl (fun a p => a.add p.2) ConvCount.zero
      ⟨r.map (fun p => p.1), (x + 127).toNat, if f = 8 then some (i, pv.1) else none,
        if f = 8 then c.add pv.2 else c⟩

/-- The bytes of element codes packed lowest bits first, `n` codes with zero padding (R158). -/
def packCodes (bits n : Nat) (codes : List Nat) : List Byte :=
  if bits = 8 then (upFrom 0 n).map (fun i => BitVec.ofNat 8 (codes.getD i 0))
  else if bits = 16 then ((upFrom 0 n).map (fun i => leBytes (codes.getD i 0) 2)).flatten
  else if bits = 32 then ((upFrom 0 n).map (fun i => leBytes (codes.getD i 0) 4)).flatten
  else
    let per := 8 / bits
    (upFrom 0 (ceilDiv n per)).map (fun b =>
      BitVec.ofNat 8 ((upFrom 0 per).foldl (fun a i => a + codes.getD (b * per + i) 0 * 2 ^ (bits * i)) 0))

/-- The bytes of a block (R158, R160). -/
def Block.bytes (f : Nat) (b : Block) : List Byte :=
  packCodes (elemBits f) 32 b.codes ++ [BitVec.ofNat 8 b.scale] ++
    (if f = 8 then
      match b.pen with
      | some (i, v) => [BitVec.ofNat 8 v, BitVec.ofNat 8 (32 + i)]
      | none => [0, 0]
    else [])

/-- x rotated left by n bits. -/
def rotl32 (x : Word32) (n : Nat) : Word32 := x.rotateLeft n

/-- The state of the permutation of R175. -/
structure Arx where
  x0 : Word32
  x1 : Word32
  x2 : Word32
  x3 : Word32
  deriving DecidableEq, Repr

/-- One round of R175 (without the key addition). -/
def Arx.round (s : Arx) : Arx :=
  let x0 := s.x0 + s.x1
  let x3 := rotl32 (s.x3 ^^^ x0) 13
  let x2 := s.x2 + x3
  let x1 := rotl32 (s.x1 ^^^ x2) 9
  let x0 := x0 + x1
  let x3 := rotl32 (x3 ^^^ x0) 11
  let x2 := x2 + x3
  let x1 := rotl32 (x1 ^^^ x2) 5
  ⟨x0, x1, x2, x3⟩

/-- Round r of R175, with the key addition after every fourth. -/
def Arx.step (k0 k1 : Word32) (s : Arx) (r : Nat) : Arx :=
  let s := s.round
  if r % 4 = 3 then ⟨s.x0 + k1, s.x1 + k0, s.x2 + (k0 ^^^ k1), s.x3 + BitVec.ofNat 32 r⟩ else s

/-- The 64-bit generator word of a counter under a seed (R175). -/
def genWord (seed : Nat) (ctr : Nat) : Nat :=
  let k0 := BitVec.ofNat 32 (field seed 0 32)
  let k1 := BitVec.ofNat 32 (field seed 32 32)
  let s : Arx := ⟨BitVec.ofNat 32 (field ctr 0 32) + k0, BitVec.ofNat 32 (field ctr 32 32) + k1,
    BitVec.ofNat 32 (field ctr 64 32), BitVec.ofNat 32 (field ctr 96 32)⟩
  let s := (upFrom 0 12).foldl (Arx.step k0 k1) s
  (s.x1 ^^^ s.x3).toNat * 2 ^ 32 + (s.x0 ^^^ s.x2).toNat

/-- What fixes the words of one operation's draws (R176). -/
structure DrawKey where
  seed : Nat
  hi : Nat
  lo : Nat
  module : Nat
  logical : Nat
  source : Nat
  free : Bool
  deriving DecidableEq, Repr

/-- The counter of R176 for one lane and draw (DRAW is 0 in FREE mode). -/
def DrawKey.counter (k : DrawKey) (lane draw : Nat) : Nat :=
  k.hi * 2 ^ 96 + k.lo * 2 ^ 64 + k.module * 2 ^ 50 + k.logical * 2 ^ 39 + lane * 2 ^ 31 + k.source * 2 ^ 30
    + (if k.free then 0 else draw)

/-- The random field of the e-th rounding of a lane, b bits (R177). In FREE mode the word is that of the free count in the ACLK of the
rounding's row, and `slot` counts the roundings of the lane in that ACLK (R178); the count is a free value for each row of the vector
lanes and of the exit lanes (notes/assumptions/8.md). -/
def DrawKey.rho (k : DrawKey) (b lane e row slot : Nat) : Nat :=
  let q := 64 / b
  if k.free then
    let c := Config.freeNat (2 ^ 20 * (2 * k.hi + lane / 128) + row)
    field (genWord k.seed ({ k with hi := field c 32 32, lo := field c 0 32 }.counter lane 0)) (b * slot) b
  else field (genWord k.seed (k.counter lane (e / q))) (b * (e % q)) b

end Sys2Proof.Machine
end

