-- ==== Sys2Proof/Machine/CoreState.lean ====
section
/-!
DEFINITION. The state of one core as plain data (chapters 02 to 06), and the settings of chapter 04 that its engines read.
-/

namespace Sys2Proof.Machine

/-! ### Cores (chapters 02 to 06) -/

/-- STATE of the engine status word (R80). -/
inductive QState where
  | idle | run | waitPennant | waitSlot | waitOrder | halted | trapped
  deriving DecidableEq, Repr

/-- An active hardware loop: PC of its first body instruction and passes still to run, this one included (R82). -/
structure Loop where
  body : Nat
  left : Nat
  deriving DecidableEq, Repr

/-- An operation issued and not retired (R75). `control` marks control instructions, which take no slot (R297); `seq` is
the issue order within the core (R76); `done` says that its engine has finished it; `key` ties it to what it waits for;
`remote` holds the target of a remote PRAISE (R299). -/
structure Op where
  opcode : Nat
  raiseIdx : Nat
  raiseInc : Nat
  seq : Nat
  done : Bool
  key : Nat
  control : Bool
  remote : Option Nat
  deriving DecidableEq, Repr

/-- A program queue or the Plotter queue (R72, R80, R82, R108, R176). -/
structure Queue where
  qbase : Nat
  qlen : Nat
  pc : Nat
  st : QState
  waitIndex : Nat
  loops : List Loop
  ops : List Op
  opSeq : Nat
  deriving DecidableEq, Repr

/-- A queue before release. -/
def Queue.idle : Queue :=
  { qbase := 0, qlen := 0, pc := 0, st := .idle, waitIndex := 0, loops := [], ops := [], opSeq := 0 }

/-- A weight set (R114, R115): the form it was loaded in (none: holds no form), N, and each column's image. -/
structure WSet where
  form : Option Nat
  n : Nat
  cols : List (List Byte)
  deriving DecidableEq, Repr

/-- A weight set that holds no form. -/
def WSet.blank : WSet := { form := none, n := 0, cols := [] }

/-- A filled staging slot (R68): its form, whether two activation rows share a staging row (R122), its activation rows,
and which of them lie wholly in padding (R149). -/
structure Slot where
  form : Nat
  packed : Bool
  rows : List Vec
  pads : List Bool
  deriving DecidableEq, Repr

/-- An FLOAD or FCONV whose rows are still moving into staging (R109): its instruction, the descriptor read at issue
(R273) and the next staging row. -/
structure FloadRun where
  word : InstrWord
  desc : List Byte
  row : Nat
  key : Nat
  deriving DecidableEq, Repr

/-- An MMUL whose rows are entering the array: rows entered so far (R69, R256). -/
structure MmulRun where
  word : InstrWord
  row : Nat
  key : Nat
  deriving DecidableEq, Repr

/-- A tensor scale table entry (R191): exponent, current-step amax and the amax of earlier steps, newest first. `form` is the form that
the last VQUANT naming the entry converted to, whose largest element is V of R193. -/
structure ScaleEntry where
  form : Nat
  t : Int
  cur : Word32
  hist : List Word32
  deriving DecidableEq, Repr

/-- A table entry before any step: exponent 0, no amax, and form 0: no VQUANT has named it. -/
def ScaleEntry.zero : ScaleEntry := { form := 0, t := 0, cur := 0, hist := [] }

/-- One block of a DEXIT on its way (R231, R442): index, amax code, counts, rows of words; the last block of a tile also
carries the contributor and token counts. -/
structure DexBlock where
  idx : Nat
  code : Nat
  sat : Nat
  nonfin : Nat
  rows : List (List Int)
  contribs : Nat
  tokens : Nat
  last : Bool
  deriving DecidableEq, Repr

/-- A block in a merge area (R443, R796): its words lie in the stream buffer from `addr` on, rows of columns, 6 bytes each. -/
structure MergeBlk where
  htab : Nat
  layer : Nat
  tile : Nat
  addr : Nat
  rows : Nat
  cols : Nat
  blk : DexBlock
  deriving DecidableEq, Repr

/-- A DEXIT whose blocks wait for their upstream blocks (R444): table entry, layer, tile, the blocks not yet sent. -/
structure DexPend where
  htab : Nat
  layer : Nat
  tile : Nat
  m : Nat
  n : Nat
  blocks : List DexBlock
  key : Nat
  deriving DecidableEq, Repr

/-- A DRECV that waits for its message (R295). -/
structure RecvWait where
  tag : Nat
  dmem : Bool
  daddr : Nat
  len : Nat
  key : Nat
  deriving DecidableEq, Repr

/-- A triangulation in progress (R198-R201): layer, ordinal of the tile's last MMUL, the forms of its weights and activations, its columns,
the sampled row's number, and the copied row. -/
structure TriSample where
  layer : Nat
  ordinal : Nat
  wf : Nat
  af : Nat
  n : Nat
  m : Nat
  row : List Word32
  deriving DecidableEq, Repr

/-- A read that waits for lines of a stack (R311, R312): the data that it starts at, as far as they have been read, and the lines still
to come. -/
structure LineWait where
  stack : Nat
  addr : Nat
  data : List Byte
  need : List Nat
  deriving DecidableEq, Repr

/-- A DLOAD that waits for lines of its region (R312): destination and what is still to be read. -/
structure LoadWait where
  wait : LineWait
  lmem : Bool
  laddr : Nat
  key : Nat
  deriving DecidableEq, Repr

/-- A Dispatch operation that has issued and whose data waits for a VC4 credit (R111, R242): what it has taken at issue: code record,
number in OP_SEQ, and tile. -/
structure VcWait where
  word : InstrWord
  key : Nat
  codes : List Nat
  seq : Nat
  tile : Nat
  deriving DecidableEq, Repr

/-- Slot tally of a core's array (R748) and its cycle count, 48 bits. -/
structure SlotTally where
  retired : Nat
  wasted : Nat
  starvedFront : Nat
  starvedBack : Nat
  cycles : Nat
  deriving DecidableEq, Repr

def SlotTally.zero : SlotTally := { retired := 0, wasted := 0, starvedFront := 0, starvedBack := 0, cycles := 0 }

/-- One core (chapters 02 to 06), by physical number. -/
structure CoreSt where
  fq : Queue
  aq : Queue
  vq : Queue
  dq : Queue
  pq : Queue
  /-- every queue of the core has stopped issuing (R104, R105). -/
  stopped : Bool
  /-- next issue ordinal of the core. -/
  issueSeq : Nat
  /-- the 32 pennant counters (R85), 16 bits each. -/
  pen : Tab Nat
  /-- the four pennant counters of the Plotter queue (R101). -/
  plotPen : Tab Nat
  act : Memory
  sbuf : Memory
  istore : Memory
  /-- accumulator words by 128·row + column (R211). -/
  acc : Tab Word32
  /-- latent SEC-DED errors by 64·row + pair: 1 single-bit, 2 uncorrectable (R244, R245). -/
  accErr : Tab Nat
  /-- latent errors of 64-bit words (R511): 2^24·memory + word (memory 0 activation store, 1 stream buffer, 2 instruction store); 1 a
  single-bit error, other values more. -/
  sramErr : Tab Nat
  /-- PLOTTER_ACC_ROWS (R100). -/
  window : Nat
  active : WSet
  shadow : WSet
  plotSet : WSet
  shadowFull : Bool
  fwgtWait : List (InstrWord × Nat)
  floadRun : List FloadRun
  staging : List Slot
  /-- the Plotter staging slot: up to 128 rows of 256 bytes (R103). -/
  plotStaging : Option (List (List Byte))
  /-- instructions that the sheet's Plotter has fed to the Plotter queue (R250). -/
  plotFeed : List InstrWord
  /-- slots of rows that the activation path has still to move into the Plotter staging slot (R103). -/
  plotRows : List (List (List Byte))
  /-- Plotter FWGTs that the weight path has still to move (R102). -/
  plotFwgt : List (InstrWord × Nat)
  /-- the Plotter MMUL whose rows are entering. -/
  plotRun : Option MmulRun
  mmulRun : Option MmulRun
  /-- MMULs of the array queue since step start (R198). -/
  mmulCount : Nat
  scales : Tab ScaleEntry
  flush : Nat
  accSat : Bool
  qsat : Nat
  qnonfinite : Nat
  encerr : Nat
  triDropped : Nat
  dexitSat : Nat
  dexitNonfinite : Nat
  accCorrected : Nat
  dexitCount : Tab Nat
  /-- code record in Dispatch for the next DEXIT: its stack address tag and the codes (R446). -/
  codes : Option (List Nat)
  merge : List MergeBlk
  dexits : List DexPend
  tri : List TriSample
  /-- alarms of this step per layer (R201). -/
  alarms : Tab Nat
  recvs : List RecvWait
  /-- the request of the DRECV in front of Dispatch has gone out (R563). -/
  recvAsked : Bool
  /-- tagged messages that have come before their DRECV has issued (R563). -/
  recvHeld : List (Nat × List Byte)
  loads : List LoadWait
  /-- Dispatch operations that wait for a VC4 credit, oldest first (R111). -/
  vc4 : List VcWait
  tally : SlotTally
  /-- RETIRED at the release of the running step (R758). -/
  tallyBase : Nat
  /-- eight selectable counters, 48 bits (R747). -/
  counters : Tab Nat
  /-- the counters at the release of the running step (R758). -/
  counterBase : Tab Nat
  /-- WRAPPED flags since the last read-out (R750). -/
  wrapped : Nat
  /-- free count of the FREE mode (R178). -/
  freeBase : Nat
  /-- all four program queues have halted and the core has reported (R77). -/
  reported : Bool
  deriving DecidableEq, Repr

/-- A core after reset. Values that the spec does not state: DESIGN CHOICE, notes/assumptions/5.md. -/
def CoreSt.reset : CoreSt :=
  { fq := .idle, aq := .idle, vq := .idle, dq := .idle, pq := .idle, stopped := false, issueSeq := 0, pen := [],
    plotPen := [], act := [], sbuf := [], istore := [], acc := [], accErr := [], sramErr := [], window := 0, active := .blank,
    shadow := .blank, plotSet := .blank, shadowFull := false, fwgtWait := [], floadRun := [], staging := [],
    plotStaging := none, plotFeed := [], plotRows := [], plotFwgt := [], plotRun := none, mmulRun := none, mmulCount := 0, scales := [], flush := 0, accSat := false,
    qsat := 0, qnonfinite := 0, encerr := 0, triDropped := 0, dexitSat := 0, dexitNonfinite := 0, accCorrected := 0,
    dexitCount := [], codes := none, merge := [], dexits := [], tri := [], alarms := [], recvs := [], recvAsked := false, recvHeld := [],
    loads := [], vc4 := [], tally := .zero, tallyBase := 0, counters := [], counterBase := [], wrapped := 0, freeBase := 0, reported := false }

/-! ### Formats and safeguards (R210) -/

structure FmtSt where
  subnormal : Nat
  genMode : Nat
  randomBits : Nat
  jobSeed : Nat
  amaxHistory : Nat
  tensorMargin : Nat
  triRate : Nat
  triThreshold : Word32
  triLimit : Nat
  promoteEnable : Nat
  deriving DecidableEq, Repr

def FmtSt.reset : FmtSt :=
  { subnormal := 0, genMode := 0, randomBits := 12, jobSeed := 0, amaxHistory := 4, tensorMargin := 1, triRate := 8,
    triThreshold := 0x3E000000#32, triLimit := 4, promoteEnable := 1 }

end Sys2Proof.Machine
end

