-- ==== Sys2Proof/Machine/Flags.lean ====
section
/-!
DEFINITION. The sticky flags, saturating counts and status word of a core: FLUSH_FLAGS (R184), ACC_SAT (R222), the counts of
R209 and R246, and the engine status word (R80).
-/

namespace Sys2Proof.Machine

/-- Each flush of a non-zero value sets the sticky flag of its class (R184). -/
def CoreSt.addFlush (c : CoreSt) (m : Flushes) : CoreSt := { c with flush := orFlush c.flush m }

/-- A conversion's saturations, non-finite inputs and flushes (R170, R184, R209). -/
def CoreSt.addConv (c : CoreSt) (k : ConvCount) : CoreSt :=
  { c with qsat := satAdd32 c.qsat k.sat, qnonfinite := satAdd32 c.qnonfinite k.nonfin, flush := orFlush c.flush k.fl }

/-- Encoding errors (R160, R162, R209). -/
def CoreSt.addEnc (c : CoreSt) (n : Nat) : CoreSt := { c with encerr := satAdd32 c.encerr n }

/-- The memories of `sramErr`. -/
def memAct : Nat := 0
def memSbuf : Nat := 1
def memIstore : Nat := 2

/-- A write gives every word that it touches new check bits (R511; notes/assumptions/7.md). -/
def CoreSt.renewSram (c : CoreSt) (mem a n : Nat) : CoreSt :=
  { c with sramErr := c.sramErr.filter (fun p =>
      !(p.1 / 2 ^ 24 = mem && n != 0 && a / 8 ≤ p.1 % 2 ^ 24 && p.1 % 2 ^ 24 ≤ (a + n - 1) / 8)) }

/-- A group addition of an integer pair left the INT32 range (R222). -/
def CoreSt.addAccSat (c : CoreSt) (b : Bool) : CoreSt := { c with accSat := c.accSat || b }

/-- Single-bit accumulator errors corrected in line (R244, R246). -/
def CoreSt.addCorrected (c : CoreSt) (n : Nat) : CoreSt := { c with accCorrected := satAdd32 c.accCorrected n }

/-- A DEXIT's saturations and non-finite values (R234, R235, R246). -/
def CoreSt.addDexit (c : CoreSt) (sat nonfin : Nat) : CoreSt :=
  { c with dexitSat := satAdd32 c.dexitSat sat, dexitNonfinite := satAdd32 c.dexitNonfinite nonfin }

/-- A 48-bit count goes up by `n` and wraps (R748, R750). -/
def add48 (x n : Nat) : Nat := (x + n) % 2 ^ 48

/-- Array input cycles of one entry, counted as RETIRED or WASTED (R757), and in CYCLES (R748). -/
def SlotTally.enter (t : SlotTally) (wasted : Bool) (n : Nat) : SlotTally :=
  if wasted then { t with wasted := add48 t.wasted n, cycles := add48 t.cycles n }
  else { t with retired := add48 t.retired n, cycles := add48 t.cycles n }

/-- Array input cycles of a core; a count that wraps sets its WRAPPED flag: bits 8 to 12 for the slot tally and CYCLES (R750, R768). -/
def CoreSt.enter (c : CoreSt) (wasted : Bool) (n : Nat) : CoreSt :=
  let t := c.tally
  let past (x i : Nat) : Nat := if x + n < 2 ^ 48 then 0 else 2 ^ i
  { c with tally := t.enter wasted n,
           wrapped := c.wrapped ||| (if wasted then past t.wasted 9 else past t.retired 8) ||| past t.cycles 12 }

/-- The four slot counts always sum to CYCLES (R757), modulo the width of the counts. -/
def SlotTally.balanced (t : SlotTally) : Bool :=
  (t.retired + t.wasted + t.starvedFront + t.starvedBack) % 2 ^ 48 = t.cycles

/-- Code of a queue's STATE (R80). -/
def QState.code : QState → Nat
  | .idle => 0
  | .run => 1
  | .waitPennant => 2
  | .waitSlot => 3
  | .waitOrder => 4
  | .halted => 5
  | .trapped => 6

/-- INFLIGHT of a queue: operations issued and not retired (R80, R297). -/
def Queue.inflight (q : Queue) : Nat := (q.ops.filter (fun o => !o.control)).length

/-- The engine status word of a queue (R80). -/
def Queue.statusWord (q : Queue) : Nat :=
  q.st.code * 2 ^ 29 + (if q.st = .waitPennant then q.waitIndex else 0) * 2 ^ 24 + q.loops.length * 2 ^ 21
    + q.inflight * 2 ^ 16 + q.pc % 2 ^ 15

end Sys2Proof.Machine
end

