-- ==== Sys2Proof/Machine/Operands.lean ====
section
/-!
DEFINITION. Operand fields of the tile instructions (chapter 06) and the trap causes that need nothing but the core and the
instruction (R252, R255).
-/

namespace Sys2Proof.Machine

/-- Bits [hi:lo] of an instruction (R249). -/
def opf (w : InstrWord) (hi lo : Nat) : Nat := field w.toNat lo (hi + 1 - lo)

/-- Common fields (R249). -/
def opcodeOf (w : InstrWord) : Nat := opf w 127 120
def waitIndexOf (w : InstrWord) : Nat := opf w 119 115
def waitThresholdOf (w : InstrWord) : Nat := opf w 114 104
def raiseIndexOf (w : InstrWord) : Nat := opf w 103 99
def raiseIncrementOf (w : InstrWord) : Nat := opf w 98 92

/-- Opcodes of R250 and the queue of each (none: any program queue). -/
def opcodes : List (Nat × Option QName) :=
  [(0x01, none), (0x02, none), (0x03, none), (0x04, none), (0x05, none), (0x06, none), (0x10, some .fetch),
   (0x11, some .fetch), (0x12, some .fetch), (0x20, some .array), (0x21, some .array), (0x30, some .vector),
   (0x31, some .vector), (0x32, some .vector), (0x33, some .vector), (0x34, some .vector), (0x40, some .dispatch),
   (0x41, some .dispatch), (0x42, some .dispatch), (0x43, some .dispatch), (0x44, some .dispatch)]

/-- The opcode is in the table of R250. -/
def opcodeListed (op : Nat) : Bool := opcodes.any (fun p => p.1 = op)

/-- Opcodes that the sheet's Plotter feeds to the Plotter queue (R250). -/
def plotterOpcodes : List Nat := [0x12, 0x20, 0x21, 0x30, 0x31, 0x32]

/-- The opcode belongs to another engine's queue (R250). -/
def wrongQueue (op : Nat) (q : QName) : Bool :=
  if q = .plotter then !plotterOpcodes.contains op
  else opcodes.any (fun p => p.1 = op && (match p.2 with | none => false | some e => e != q))

/-- Control instructions take no in-flight slot (R297). -/
def isControl (op : Nat) : Bool := op ≤ 0x06

/-- In-flight slots of the Plotter queue (R101). -/
def plotArraySlots : Nat := 4
def plotVectorSlots : Nat := 2

/-- In-flight slots of a queue (R101, R108). -/
def slotsOf : QName → Nat
  | .fetch => 8
  | .array => 16
  | .vector => 8
  | .dispatch => 16
  | .plotter => plotArraySlots + plotVectorSlots

/-- Codes of R255. -/
def cOPCODE : Nat := 0x01
def cWRONG_QUEUE : Nat := 0x02
def cRESERVED_FIELD : Nat := 0x03
def cFIELD_CODE : Nat := 0x04
def cFORMAT_CODE : Nat := 0x05
def cFORMAT_PAIR : Nat := 0x06
def cM_RANGE : Nat := 0x07
def cN_RANGE : Nat := 0x08
def cK_RANGE : Nat := 0x09
def cACC_ALIGN : Nat := 0x0A
def cACC_RANGE : Nat := 0x0B
def cACC_WINDOW : Nat := 0x0C
def cADDR_RANGE : Nat := 0x0D
def cDESC_FIELD : Nat := 0x0E
def cCONV_BLOCK : Nat := 0x0F
def cOPERAND_FORM : Nat := 0x10
def cPC_RANGE : Nat := 0x20
def cLOOP_DEPTH : Nat := 0x21
def cLOOP_UNMATCHED : Nat := 0x22
def cPENNANT_SATURATED : Nat := 0x23
def cRECV_LENGTH : Nat := 0x24

/-- Sizes of the core's memories in bytes. -/
def actBytes : Nat := 33554432
def sbufBytes : Nat := 1048576
def istoreBytes : Nat := 524288

/-- Conditions by cause code. -/
abbrev Causes := List (Nat × Bool)

/-- The lowest-coded cause that applies (R252). -/
def lowestCause (l : Causes) : Option Nat :=
  ((l.filter (fun p => p.2)).map (fun p => p.1)).min?

/-! ### Accumulator ranges (R217, R218, R100) -/

/-- The range of `m` entry rows of `w` words from `base`: ACC_ALIGN, ACC_RANGE, ACC_WINDOW for a program access. -/
def accCauses (window base m w : Nat) : Causes :=
  [(cACC_ALIGN, w = 2 && base % 2 = 1), (cACC_RANGE, base + m * w > 4096),
   (cACC_WINDOW, m > 0 && base + m * w ≤ 4096 && base + m * w > 4096 - window)]

/-! ### MMUL (R275) -/

structure MmulF where
  m : Nat
  n : Nat
  k : Nat
  wf : Nat
  af : Nat
  g : Nat
  acc : Bool
  comp : Bool
  base : Nat
  deriving DecidableEq, Repr

def mmulF (w : InstrWord) : MmulF :=
  { m := opf w 91 79, n := opf w 78 71, k := opf w 70 62, wf := opf w 61 58, af := opf w 57 54,
    g := if opf w 53 52 = 0 then 4 else if opf w 53 52 = 1 then 8 else 16, acc := opf w 51 51 = 1, comp := opf w 50 50 = 1,
    base := opf w 49 38 }

/-- An integer pair (R118). -/
def isIntPair (wf : Nat) : Bool := wf = 6 || wf = 9

/-- The form pairs of R258. -/
def pairOk (wf af : Nat) : Bool :=
  (wf = 0 && af = 0) || (1 ≤ wf && wf ≤ 4 && 1 ≤ af && af ≤ 4) || (wf = 5 && af = 5) || (wf = 6 && af = 6)
  || ((wf = 7 || wf = 8) && ((1 ≤ af && af ≤ 4) || af = 7 || af = 8)) || (wf = 9 && (af = 6 || af = 9))
  || (wf = 10 && ((1 ≤ af && af ≤ 6) || (7 ≤ af && af ≤ 9)))

/-- A T2 × 4-bit pair: two rows enter per ACLK (R121). -/
def isDouble (wf af : Nat) : Bool := wf = 10 && 7 ≤ af && af ≤ 9

/-- Words per entry (R216, R135). -/
def MmulF.w (f : MmulF) : Nat := if f.comp && !isIntPair f.wf then 2 else 1

def mmulCauses (c : CoreSt) (w : InstrWord) : Causes :=
  let f := mmulF w
  ([(cRESERVED_FIELD, opf w 37 0 != 0), (cFIELD_CODE, opf w 53 52 = 3), (cFORMAT_CODE, f.wf > 10 || f.af > 9),
   (cFORMAT_PAIR, !pairOk f.wf f.af), (cM_RANGE, f.m > 4096), (cN_RANGE, f.n > 128), (cK_RANGE, f.k > kT f.wf),
   (cOPERAND_FORM, f.k > 0 && c.active.form != some f.wf)] : Causes) ++ accCauses c.window f.base f.m f.w

def mswapCauses (w : InstrWord) : Causes := [(cRESERVED_FIELD, opf w 91 0 != 0)]

/-! ### FWGT (R263) -/

structure FwgtF where
  addr : Nat
  form : Nat
  n : Nat
  deriving DecidableEq, Repr

def fwgtF (w : InstrWord) : FwgtF := { addr := 64 * opf w 91 78, form := opf w 77 74, n := opf w 73 66 }

def fwgtCauses (w : InstrWord) : Causes :=
  let f := fwgtF w
  [(cRESERVED_FIELD, opf w 65 0 != 0), (cFORMAT_CODE, f.form > 10), (cN_RANGE, f.n > 128),
   (cADDR_RANGE, f.addr + f.n * columnBytes f.form > sbufBytes)]

/-! ### FLOAD and FCONV (R266) and the window descriptor (R273) -/

structure FloadF where
  desc : Nat
  m : Nat
  klen : Nat
  k0 : Nat
  m0 : Nat
  pack : Bool
  deriving DecidableEq, Repr

def floadF (w : InstrWord) : FloadF :=
  { desc := 64 * opf w 91 73, m := opf w 72 61, klen := opf w 60 52, k0 := opf w 51 28, m0 := opf w 27 8,
    pack := opf w 7 7 = 1 }

structure Dim where
  step : Nat
  pad : Nat
  dilation : Nat
  stride : Nat
  taps : Nat
  out : Nat
  size : Nat
  deriving DecidableEq, Repr

structure Desc where
  padValue : Nat
  form : Nat
  c : Nat
  ndim : Nat
  base : Nat
  dims : List Dim
  deriving DecidableEq, Repr

/-- A dimension field of 20 bits, 0 standing for 1,048,576 (R273). -/
def dim20 (x : Nat) : Nat := if x = 0 then 1048576 else x

/-- Dimension d of a descriptor value. -/
def dimOf (v d : Nat) : Dim :=
  let x := field v (96 * d + 32) 96
  { step := field x 72 24, pad := field x 64 8, dilation := field x 56 8, stride := field x 48 8, taps := field x 40 8,
    out := dim20 (field x 20 20), size := dim20 (field x 0 20) }

/-- The descriptor in 64 little-endian bytes (R273). -/
def descOf (l : List Byte) : Desc :=
  let v := leNat l
  { padValue := field v 64 16, form := field v 52 4, c := field v 32 20, ndim := field v 25 3, base := field v 0 25,
    dims := (upFrom 1 (min 4 (field v 25 3))).map (dimOf v) }

/-- An FLOAD reads its descriptor with every tap count and dilation 1 and every pad 0 (R271). -/
def Desc.forLoad (d : Desc) : Desc :=
  { d with dims := d.dims.map (fun x => { x with pad := 0, dilation := 1, taps := 1 }) }

/-- The descriptor breaks R274; `conv` for FCONV, which also tests taps and dilation. -/
def descInvalid (conv : Bool) (l : List Byte) : Bool :=
  let v := leNat l
  let d := descOf l
  field v 80 48 != 0 || field v 56 8 != 0 || field v 28 4 != 0 || d.c = 0 || d.ndim = 0 || d.ndim > 4
    || d.padValue ≥ 2 ^ elemBits d.form
    || d.dims.any (fun x => x.stride = 0 || (conv && (x.dilation = 0 || x.taps = 0)))
    || (upFrom (d.ndim + 1) (4 - d.ndim)).any (fun i => field v (96 * i + 32) 96 != 0)

/-- Products of the tap counts and of the output counts (R268, R269). -/
def Desc.kExtent (d : Desc) : Nat := d.dims.foldl (fun a x => a * x.taps) d.c
def Desc.outExtent (d : Desc) : Nat := d.dims.foldl (fun a x => a * x.out) 1

/-- Staging rows of an activation-path operation (R122). -/
def stagingRows (m : Nat) (pack : Bool) : Nat := if pack then ceilDiv m 2 else m

def floadCauses (c : CoreSt) (conv : Bool) (w : InstrWord) : Causes :=
  let f := floadF w
  let b := Memory.readN c.act f.desc 64
  let d0 := descOf b
  let d := if conv then d0 else d0.forLoad
  let bad := descInvalid conv b
  [(cRESERVED_FIELD, opf w 6 0 != 0), (cFIELD_CODE, f.pack && !(7 ≤ d.form && d.form ≤ 9)), (cFORMAT_CODE, d.form > 9),
   (cM_RANGE, f.m > 2048 || ceilDiv (stagingRows f.m f.pack) 128 > 8 || (!bad && f.m0 + f.m > d.outExtent)),
   (cK_RANGE, f.klen > 256 || (d.form = 0 && f.klen > 128) || (!bad && f.k0 + f.klen > d.kExtent)),
   (cDESC_FIELD, bad),
   (cCONV_BLOCK, isBlockForm d.form && (f.k0 % 32 != 0 || (conv && d.c % 32 != 0)))]

/-! ### Vector operands (R259 to R261, R279 to R287) -/

/-- Source operand of a vector operation: accumulator rows or the activation store. -/
structure SrcF where
  acc : Bool
  addr : Nat
  rfmt : Nat
  dsc : Nat
  deriving DecidableEq, Repr

/-- w of R260. -/
def SrcF.w (f : SrcF) : Nat := if f.rfmt ≥ 2 then 2 else 1

/-- Causes of the A operand over `m` rows (R259, R260). -/
def srcCauses (c : CoreSt) (f : SrcF) (m : Nat) : Causes :=
  if f.acc then
    ([(cRESERVED_FIELD, field f.addr 12 7 != 0), (cFIELD_CODE, f.rfmt > 4)] : Causes) ++ accCauses c.window (field f.addr 0 12) m f.w
  else
    [(cFIELD_CODE, f.rfmt > 1), (cADDR_RANGE, 64 * f.addr + m * (if f.rfmt = 1 then 256 else 512) > actBytes)]

structure VopF where
  func : Nat
  src : SrcF
  bmode : Nat
  b : Nat
  d : Nat
  m : Nat
  bf16 : Bool
  rmode : Nat
  deriving DecidableEq, Repr

def vopF (w : InstrWord) : VopF :=
  { func := opf w 91 86, src := { acc := opf w 85 85 = 1, addr := opf w 84 66, rfmt := opf w 12 10, dsc := opf w 6 1 },
    bmode := opf w 65 64, b := 64 * opf w 63 45, d := 64 * opf w 44 26, m := opf w 25 13, bf16 := opf w 9 9 = 1,
    rmode := opf w 8 7 }

/-- Unary, binary and mask functions of R280. -/
def vopUnary (f : Nat) : Bool := f = 0 || f = 6 || f = 7 || f = 9 || (0x10 ≤ f && f ≤ 0x17)
def vopBinary (f : Nat) : Bool := 1 ≤ f && f ≤ 5
def vopMask : Nat := 8

def vopCauses (c : CoreSt) (w : InstrWord) : Causes :=
  let f := vopF w
  let bLen := if f.bmode = 1 then 512 * f.m else if f.bmode = 2 then (if f.m = 0 then 0 else 512) else
    if f.bmode = 3 then 16 * f.m else 0
  ([(cRESERVED_FIELD, opf w 0 0 != 0),
   (cFIELD_CODE, f.rmode = 3 || !(vopUnary f.func || vopBinary f.func || f.func = vopMask)
      || (vopUnary f.func && f.bmode != 0) || (vopBinary f.func && (f.bmode = 0 || f.bmode = 3))
      || (f.func = vopMask && f.bmode != 3)),
   (cM_RANGE, f.m > 4096),
   (cADDR_RANGE, f.b + bLen > actBytes || f.d + f.m * (if f.bf16 then 256 else 512) > actBytes)] : Causes)
    ++ srcCauses c f.src f.m

structure VredF where
  func : Nat
  axis : Bool
  src : SrcF
  d : Nat
  m : Nat
  deriving DecidableEq, Repr

def vredF (w : InstrWord) : VredF :=
  { func := opf w 91 90, axis := opf w 89 89 = 1,
    src := { acc := opf w 88 88 = 1, addr := opf w 87 69, rfmt := opf w 68 66, dsc := opf w 33 28 },
    d := 64 * opf w 65 47, m := opf w 46 34 }

def vredCauses (c : CoreSt) (w : InstrWord) : Causes :=
  let f := vredF w
  ([(cRESERVED_FIELD, opf w 27 0 != 0), (cM_RANGE, f.m > 4096),
   (cADDR_RANGE, f.d + (if f.m = 0 then 0 else if f.axis then 512 else 4 * f.m) > actBytes)] : Causes) ++ srcCauses c f.src f.m

structure VquantF where
  src : SrcF
  d : Nat
  dpitch : Nat
  m : Nat
  form : Nat
  rmode : Nat
  rbits : Nat
  tent : Nat
  image : Bool
  deriving DecidableEq, Repr

def vquantF (w : InstrWord) : VquantF :=
  { src := { acc := opf w 91 91 = 1, addr := opf w 90 72, rfmt := opf w 23 21, dsc := opf w 6 1 }, d := 4 * opf w 71 49,
    dpitch := opf w 48 37, m := opf w 36 24, form := opf w 20 17, rmode := opf w 16 15, rbits := opf w 14 13,
    tent := opf w 12 7, image := opf w 0 0 = 1 }

/-- Bytes of a row of 128 values in a form (R283). -/
def rowBytes (f : Nat) : Nat := if isBlockForm f then 4 * blockBytes f else 128 * elemBits f / 8

/-- Row pitch of a VQUANT in bytes (R283). -/
def VquantF.pitch (f : VquantF) : Nat := if f.dpitch = 0 then rowBytes f.form else 4 * f.dpitch

/-- Bytes that a VQUANT reaches past its D_ADDR. -/
def VquantF.extent (f : VquantF) : Nat :=
  if f.m = 0 then 0 else if f.image then 128 * columnBytes f.form else (f.m - 1) * f.pitch + rowBytes f.form

def vquantCauses (c : CoreSt) (w : InstrWord) : Causes :=
  let f := vquantF w
  ([(cFIELD_CODE, f.rmode = 3), (cFORMAT_CODE, f.form > 10), (cM_RANGE, f.m > 4096 || (f.image && f.m > kT f.form)),
   (cADDR_RANGE, f.d + f.extent > actBytes)] : Causes) ++ srcCauses c f.src f.m

structure VtstoreF where
  src : SrcF
  d : Nat
  dpitch : Nat
  m : Nat
  form : Nat
  rmode : Nat
  rbits : Nat
  deriving DecidableEq, Repr

def vtstoreF (w : InstrWord) : VtstoreF :=
  { src := { acc := opf w 91 91 = 1, addr := opf w 90 72, rfmt := opf w 71 69, dsc := opf w 17 12 }, d := 4 * opf w 68 46,
    dpitch := opf w 45 34, m := opf w 33 26, form := opf w 25 22, rmode := opf w 21 20, rbits := opf w 19 18 }

/-- Bytes from the start of a destination row to the last byte written (R286). -/
def VtstoreF.rowLen (f : VtstoreF) : Nat :=
  if f.form = 0 then 2 * f.m else if f.form = 11 then 4 * f.m else 33 * ceilDiv f.m 32

def vtstoreCauses (c : CoreSt) (w : InstrWord) : Causes :=
  let f := vtstoreF w
  ([(cRESERVED_FIELD, opf w 11 0 != 0), (cFIELD_CODE, f.rmode = 3 || f.dpitch = 0),
   (cFORMAT_CODE, !(f.form = 0 || f.form = 3 || f.form = 4 || f.form = 11)), (cM_RANGE, f.m > 128),
   (cADDR_RANGE, f.d + (if f.m = 0 then 0 else 127 * (4 * f.dpitch) + f.rowLen) > actBytes)] : Causes) ++ srcCauses c f.src f.m

structure VrandF where
  d : Nat
  m : Nat
  p : Nat
  deriving DecidableEq, Repr

def vrandF (w : InstrWord) : VrandF := { d := 64 * opf w 91 73, m := opf w 72 60, p := opf w 59 43 }

def vrandCauses (w : InstrWord) : Causes :=
  let f := vrandF w
  [(cRESERVED_FIELD, opf w 42 0 != 0), (cFIELD_CODE, f.p > 65536), (cM_RANGE, f.m > 4096),
   (cADDR_RANGE, f.d + 16 * f.m > actBytes)]

/-! ### Dispatch operands (R288 to R295) -/

structure DsendF where
  src : Nat
  len : Nat
  dkind : Nat
  dmem : Bool
  dest : Nat
  mask : Nat
  daddr : Nat
  vc : Nat
  pen : Option Nat
  deriving DecidableEq, Repr

/-- Virtual channel of a VC code (R288). -/
def vcOf (c : Nat) : Nat := if c = 0 then 2 else if c = 1 then 1 else 4

def dsendF (w : InstrWord) : DsendF :=
  { src := 64 * opf w 91 73, len := 64 * opf w 72 60, dkind := opf w 59 58, dmem := opf w 57 57 = 1, dest := opf w 56 46,
    mask := opf w 45 40, daddr := 64 * opf w 39 21, vc := vcOf (opf w 20 19),
    pen := if opf w 18 18 = 1 then some (opf w 17 13) else none }

/-- Bytes of the memory that an LMEM or DMEM bit selects. -/
def memBytes (sb : Bool) : Nat := if sb then sbufBytes else actBytes

/-- Causes of DSEND under a plan of `l` logical cores (R289). -/
def dsendCauses (l : Nat) (w : InstrWord) : Causes :=
  let f := dsendF w
  [(cRESERVED_FIELD, opf w 12 0 != 0),
   (cFIELD_CODE, f.dkind = 3 || opf w 20 19 = 3 || (f.dkind = 1 && f.mask = 0) || (f.dkind = 0 && f.mask != 0)),
   (cADDR_RANGE, f.dest ≥ l || f.src + f.len > actBytes || f.daddr + f.len > memBytes f.dmem)]

structure DmoveF where
  laddr : Nat
  len : Nat
  lmem : Bool
  region : Nat
  offset : Nat
  deriving DecidableEq, Repr

def dmoveF (w : InstrWord) : DmoveF :=
  { laddr := 64 * opf w 91 73, len := 64 * opf w 72 60, lmem := opf w 59 59 = 1, region := opf w 58 53,
    offset := 64 * opf w 52 25 }

structure DexitF where
  base : Nat
  m : Nat
  n : Nat
  efmt : Nat
  toff : Int
  rmode : Nat
  rbits : Nat
  ledger : Bool
  htab : Nat
  tokens : Nat
  deriving DecidableEq, Repr

def dexitF (w : InstrWord) : DexitF :=
  { base := opf w 91 80, m := opf w 79 67, n := opf w 66 59, efmt := opf w 58 57, toff := signed (opf w 56 49) 8,
    rmode := opf w 48 47, rbits := opf w 46 45, ledger := opf w 44 44 = 1, htab := opf w 43 32, tokens := opf w 31 8 }

/-- Causes of DEXIT that need no plan (R294). -/
def dexitCauses (c : CoreSt) (w : InstrWord) : Causes :=
  let f := dexitF w
  ([(cRESERVED_FIELD, opf w 7 0 != 0),
   (cFIELD_CODE, f.efmt = 3 || f.rmode = 3 || opf w 56 49 = 0x80 || (f.efmt != 1 && opf w 56 49 != 0)),
   (cM_RANGE, f.m = 0 || f.m > 4096), (cN_RANGE, f.n = 0 || f.n > 128)] : Causes)
    ++ accCauses c.window f.base f.m (if f.efmt = 2 then 2 else 1)

structure DrecvF where
  tag : Nat
  daddr : Nat
  dmem : Bool
  len : Nat
  deriving DecidableEq, Repr

def drecvF (w : InstrWord) : DrecvF :=
  { tag := opf w 91 76, daddr := 64 * opf w 75 57, dmem := opf w 56 56 = 1, len := 64 * opf w 55 43 }

/-! ### Control operands (R298 to R300) -/

structure PwaitF where
  index : Nat
  thr : Nat
  peek : Bool
  deriving DecidableEq, Repr

def pwaitF (w : InstrWord) : PwaitF := { index := opf w 91 87, thr := opf w 86 71, peek := opf w 70 70 = 1 }

structure PraiseF where
  index : Nat
  inc : Nat
  remote : Bool
  target : Nat
  deriving DecidableEq, Repr

def praiseF (w : InstrWord) : PraiseF :=
  { index := opf w 91 87, inc := opf w 86 71, remote := opf w 70 70 = 1, target := opf w 69 59 }

def pwaitCauses (w : InstrWord) : Causes := [(cRESERVED_FIELD, opf w 119 92 != 0 || opf w 69 0 != 0)]

def praiseCauses (l : Nat) (w : InstrWord) : Causes :=
  let f := praiseF w
  [(cRESERVED_FIELD, opf w 119 92 != 0 || opf w 58 0 != 0 || (!f.remote && f.target != 0)),
   (cADDR_RANGE, f.remote && f.target ≥ l)]

def fenceCauses (w : InstrWord) : Causes := [(cRESERVED_FIELD, opf w 90 0 != 0)]
def loopCount (w : InstrWord) : Nat := opf w 91 68
def loopCauses (w : InstrWord) : Causes := [(cRESERVED_FIELD, opf w 67 0 != 0)]
def bareCauses (w : InstrWord) : Causes := [(cRESERVED_FIELD, opf w 91 0 != 0)]

/-- Random bits of an RBITS code (R259, R173). -/
def rbitsOf (dflt code : Nat) : Nat := if code = 1 then 8 else if code = 2 then 12 else if code = 3 then 16 else dflt

end Sys2Proof.Machine
end

