-- ==== Sys2Proof/Machine/ArrayMath.lean ====
section
/-!
DEFINITION. The arithmetic of the matrix array (R123 to R136, R152), accumulator rows (R211, R216), their error code
(R244, R245), and the entry of an MMUL's rows.
-/

namespace Sys2Proof.Machine

/-! ### Accumulator memory -/

/-- The word at a row and column (R211). -/
def CoreSt.accGet (c : CoreSt) (r j : Nat) : Word32 := Tab.get 0 c.acc (128 * r + j)

/-- Columns 0 to n − 1 of a row. -/
def CoreSt.accRow (c : CoreSt) (r n : Nat) : List Word32 := (upFrom 0 n).map (c.accGet r)

/-- One accumulator word becomes `v`; words equal to 0 are not listed. -/
def accPut (t : Tab Word32) (k : Nat) (v : Word32) : Tab Word32 := if v = 0 then Tab.erase t k else Tab.set t k v

/-- Words of a row from column `j` on. -/
def accPutRow (t : Tab Word32) (k : Nat) : List Word32 → Tab Word32
  | [] => t
  | v :: l => accPutRow (accPut t k v) (k + 1) l

/-- An error mark lies in rows r0 … r0 + rows − 1 and in a pair of columns below n. -/
def errIn (r0 rows n k : Nat) : Bool := r0 ≤ k / 64 && k / 64 < r0 + rows && 2 * (k % 64) < n

/-- Reading rows r0 … over n columns in ascending order, w rows in one ACLK: single-bit errors corrected up to the rows that are read
with the one that cannot be read, and the first uncorrectable pair (R244, R245). -/
def CoreSt.accScan (c : CoreSt) (r0 rows w n : Nat) : Nat × Option (Nat × Nat) :=
  let l := c.accErr.filter (fun p => errIn r0 rows n p.1)
  let bad := (l.find? (fun p => p.2 ≠ 1)).map (fun p => (p.1 / 64, p.1 % 64))
  ((l.filter (fun p => p.2 = 1 && (match bad with | some x => decide ((p.1 / 64 - r0) / w ≤ (x.1 - r0) / w) | none => true))).length, bad)

/-- A write of columns 0 to n − 1 of a row, with new check bits for every pair it touches (R139, R244). -/
def CoreSt.accWriteRow (c : CoreSt) (r : Nat) (l : List Word32) : CoreSt :=
  { c with acc := accPutRow c.acc (128 * r) l, accErr := c.accErr.filter (fun p => !errIn r 1 l.length p.1) }

/-- The pair whose other column a write of n columns merges (R244): only the last pair, when n is odd. -/
def CoreSt.mergeScan (c : CoreSt) (r n : Nat) : Nat × Option (Nat × Nat) :=
  if n % 2 = 0 then (0, none)
  else
    match Tab.find c.accErr (64 * r + n / 2) with
    | none => (0, none)
    | some 1 => (1, none)
    | some _ => (0, some (r, n / 2))

/-! ### Groups -/

/-- Groups of G consecutive positions of K: first position and length (R123). -/
def groupsOf (k g : Nat) : List (Nat × Nat) := (upFrom 0 (ceilDiv k g)).map (fun i => (g * i, min g (k - g * i)))

/-- What a group yields before it is added: a non-finite result, or the register times a power of two. -/
inductive GroupVal where
  | special (v : Fp)
  | reg (v : Int) (e : Int)
  deriving DecidableEq, Repr

/-- Exact products of a group with the classes flushed in reading the operands (R125, R182). -/
def groupProducts (modes : Nat) (wv av : Vec) (k n : Nat) : List Fp × Flushes :=
  (upFrom k n).foldl (fun a i =>
    let x := wv.elem modes i
    let y := av.elem modes i
    (a.1 ++ [x.1.mul y.1], orFlush a.2 (orFlush x.2 y.2))) ([], 0)

/-- The value of a group (R126, R128, R129), its block scales applied. -/
def groupVal (ps : List Fp) (s : Int) : GroupVal :=
  if ps.contains .nan || (ps.contains (.inf true) && ps.contains (.inf false)) then .special .nan
  else if ps.contains (.inf true) then .special (.inf true)
  else if ps.contains (.inf false) then .special (.inf false)
  else
    let nz := ps.filterMap (fun p => match p with
      | .fin n m e => if m = 0 then none else some (n, m, e)
      | _ => none)
    match nz with
    | [] => .reg 0 0
    | p :: t =>
      let emax := t.foldl (fun a q => max a (floorLog2 q.2.1 q.2.2)) (floorLog2 p.2.1 p.2.2)
      let r := nz.foldl (fun a q => a + sgn q.1 (scaleNat q.2.1 (q.2.2 - (emax - 56)))) (0 : Int)
      .reg r (emax - 56 + s)

/-- The FP32 result of a group (R127, R128, R129). -/
def GroupVal.round : GroupVal → Word32
  | .special v => toFp32 v
  | .reg v e => round32 (decide (v < 0)) v.natAbs e

/-- The value of a group as an exact number. -/
def GroupVal.fp : GroupVal → Fp
  | .special v => v
  | .reg v e => .fin (decide (v < 0)) v.natAbs e

/-- entry ← round(entry + g), under the FP32 subnormal mode (R130, R182). -/
def addPlain (modes : Nat) (entry : Word32) (g : GroupVal) : Word32 × Flushes :=
  let a := flush32 modes entry
  let b := flush32 modes g.round
  let r := flush32 modes (add32 a.1 b.1)
  (r.1, orFlush a.2 (orFlush b.2 r.2))

/-- A sum of exact products in FP32 with COMP 0: groups of G operand pairs in ascending order, each added and rounded (R125, R126, R130). -/
def dotGroups (modes g : Nat) (a b : List (Fp × Flushes)) : Word32 × Flushes :=
  let ps := (a.zip b).map (fun p => (p.1.1.mul p.2.1, orFlush p.1.2 p.2.2))
  (chunks g ps).foldl (fun acc l =>
    let x := addPlain modes acc.1 (groupVal (l.map (fun p => p.1)) 0)
    (x.1, l.foldl (fun f p => orFlush f p.2) (orFlush acc.2 x.2))) (0#32, 0)

/-- The pair (s, e) with a group added; hi, lo, round(t + lo), s′ and e′ are flushed as they are formed (R131, R182, R771). -/
def addComp (modes : Nat) (s e : Word32) (g : GroupVal) : (Word32 × Word32) × Flushes :=
  let s0 := flush32 modes s
  let e0 := flush32 modes e
  let hi := flush32 modes g.round
  let lo := match g with
    | .special _ => (zero32 false, 0)
    | .reg _ _ => if isFin32 hi.1 then flush32 modes (toFp32 (g.fp.add (val32 hi.1).neg)) else (zero32 false, 0)
  let s1 := flush32 modes (add32 s0.1 hi.1)
  let fl := orFlush s0.2 (orFlush e0.2 (orFlush hi.2 (orFlush lo.2 s1.2)))
  if isFin32 s1.1 then
    let t := ((val32 s0.1).add (val32 hi.1)).add (val32 s1.1).neg
    let r := flush32 modes (toFp32 (t.add (val32 lo.1)))
    let e1 := flush32 modes (add32 e0.1 r.1)
    ((s1.1, e1.1), orFlush fl (orFlush r.2 e1.2))
  else ((s1.1, zero32 false), fl)

/-- An INT32 entry limited to its range (R222). -/
def satInt32 (x : Int) : Int × Bool :=
  if x > 2147483647 then (2147483647, true) else if x < -2147483648 then (-2147483648, true) else (x, false)

/-- The exact sum of an integer group (R132). -/
def groupInt (wv av : Vec) (k n : Nat) : Int := (upFrom k n).foldl (fun a i => a + wv.int i * av.int i) 0

/-- The entry of one column after a row with activation `av` (R123 to R134). -/
def columnPlain (modes : Nat) (k g : Nat) (wv av : Vec) (start : Word32) : Word32 × Flushes :=
  (groupsOf k g).foldl (fun a p =>
    let ps := groupProducts modes wv av p.1 p.2
    let r := addPlain modes a.1 (groupVal ps.1 (wv.scaleExp p.1 + av.scaleExp p.1))
    (r.1, orFlush a.2 (orFlush ps.2 r.2))) (start, 0)

def columnComp (modes : Nat) (k g : Nat) (wv av : Vec) (s e : Word32) : (Word32 × Word32) × Flushes :=
  (groupsOf k g).foldl (fun a p =>
    let ps := groupProducts modes wv av p.1 p.2
    let r := addComp modes a.1.1 a.1.2 (groupVal ps.1 (wv.scaleExp p.1 + av.scaleExp p.1))
    (r.1, orFlush a.2 (orFlush ps.2 r.2))) ((s, e), 0)

def columnInt (k g : Nat) (wv av : Vec) (start : Word32) : Word32 × Bool :=
  let r := (groupsOf k g).foldl (fun a p =>
    let q := satInt32 (a.1 + groupInt wv av p.1 p.2)
    (q.1, a.2 || q.2)) (start.toInt, false)
  (BitVec.ofInt 32 r.1, r.2)

/-! ### Rows -/

/-- The columns of a weight set as operand vectors (R113, R115). -/
def WSet.vecs (s : WSet) : List Vec :=
  match s.form with
  | none => []
  | some f => s.cols.map (Vec.ofBytes f (kT f))

/-- The weight vector of column j: zero codes beyond N (R265). -/
def colVec (f : Nat) (vs : List Vec) (j : Nat) : Vec := vs.getD j (Vec.empty f)

/-- Result of a row's entry: the core, or the accumulator pair that cannot be read (R245). -/
inductive RowRes where
  | ok (c : CoreSt)
  | bad (c : CoreSt) (row pair : Nat)
  deriving DecidableEq, Repr

/-- The reads that a row's write makes of accumulator rows: ACC = 1 reads every column, and the write of a partial last pair reads and
corrects that pair to merge it (R244). -/
def rowScan (c : CoreSt) (f : MmulF) (r : Nat) : Nat × Option (Nat × Nat) :=
  let a := if f.acc then c.accScan r 1 1 f.n else (0, none)
  let b := c.mergeScan r f.n
  match a.2 with
  | some x => (a.1, some x)
  | none => (a.1 + b.1, b.2)

/-- Scan of the accumulator rows that tile row m covers. -/
def tileScan (c : CoreSt) (f : MmulF) (m : Nat) : Nat × Option (Nat × Nat) :=
  let r := f.base + m * f.w
  let a := rowScan c f r
  if f.w = 2 then
    let b := rowScan c f (r + 1)
    (a.1 + b.1, match a.2 with | some x => some x | none => b.2)
  else a

/-- Row m of an MMUL enters with activation `av` against columns `vs`: the entries of its accumulator row (R123 to R134,
R139). -/
def mmulRow (modes : Nat) (f : MmulF) (vs : List Vec) (av : Vec) (m : Nat) (c : CoreSt) : RowRes :=
  let sc := tileScan c f m
  match sc.2 with
  | some (r, p) => .bad (c.addCorrected sc.1) r p
  | none =>
    let c := c.addCorrected sc.1
    let r := f.base + m * f.w
    let js := upFrom 0 f.n
    if isIntPair f.wf then
      let rs := js.map (fun j => columnInt f.k f.g (colVec f.wf vs j) av (if f.acc then c.accGet r j else 0))
      .ok ((c.accWriteRow r (rs.map (fun p => p.1))).addAccSat (rs.any (fun p => p.2)))
    else if f.w = 2 then
      let rs := js.map (fun j => columnComp modes f.k f.g (colVec f.wf vs j) av
        (if f.acc then c.accGet r j else 0) (if f.acc then c.accGet (r + 1) j else 0))
      .ok (((c.accWriteRow r (rs.map (fun p => p.1.1))).accWriteRow (r + 1) (rs.map (fun p => p.1.2))).addFlush
        (rs.foldl (fun a p => orFlush a p.2) 0))
    else
      let rs := js.map (fun j => columnPlain modes f.k f.g (colVec f.wf vs j) av (if f.acc then c.accGet r j else 0))
      .ok ((c.accWriteRow r (rs.map (fun p => p.1))).addFlush (rs.foldl (fun a p => orFlush a p.2) 0))

/-- Row m of an MMUL with K = 0 (R152): zero entries, or the prior bits rewritten. -/
def mmulRowZero (f : MmulF) (m : Nat) (c : CoreSt) : RowRes :=
  let sc := tileScan c f m
  match sc.2 with
  | some (r, p) => .bad (c.addCorrected sc.1) r p
  | none =>
    let c := c.addCorrected sc.1
    let r := f.base + m * f.w
    let wr (c : CoreSt) (r : Nat) : CoreSt := c.accWriteRow r (if f.acc then c.accRow r f.n else List.replicate f.n 0)
    .ok (if f.w = 2 then wr (wr c r) (r + 1) else wr c r)

/-- Array input cycles that row m takes (R118, R120, R121): 4 for BF16; the second row of a T2 × 4-bit pair enters with the
first. -/
def rowCycles (f : MmulF) (m : Nat) : Nat :=
  if f.wf = 0 then 4 else if isDouble f.wf f.af && m % 2 = 1 then 0 else 1

/-- The tally of a row's entry (R757). -/
def CoreSt.enterRow (c : CoreSt) (f : MmulF) (m : Nat) (wasted : Bool) : CoreSt :=
  c.enter wasted (rowCycles f m)

/-- All rows of an MMUL with K = 0. -/
def mmulZeroRows (f : MmulF) : List Nat → CoreSt → RowRes
  | [], c => .ok c
  | m :: l, c =>
    match mmulRowZero f m c with
    | .ok c => mmulZeroRows f l (c.enterRow f m true)
    | .bad c r p => .bad c r p

/-- Which rows enter in a cycle that counts WASTED: a row that lies wholly in padding, and the row that shares its cycle (R121, R757). -/
def wastedRows (double : Bool) : List Bool → List Bool
  | a :: b :: l => (if double then (a || b) else a) :: (if double then (a || b) else b) :: wastedRows double l
  | l => l

/-- Rows of one staging slot enter, row m first: the core, the next row, and how many rows entered in a cycle that counts RETIRED. -/
def mmulSlotRows (modes : Nat) (f : MmulF) (vs : List Vec) : List (Vec × Bool) → (m kept : Nat) → CoreSt → RowRes × Nat × Nat
  | [], m, k, c => (.ok c, m, k)
  | (av, pad) :: l, m, k, c =>
    match mmulRow modes f vs av m c with
    | .ok c => mmulSlotRows modes f vs l (m + 1) (if pad then k else k + 1) (c.enterRow f m pad)
    | .bad c r p => (.bad c r p, m, k)

end Sys2Proof.Machine
end

