-- ==== Sys2Proof/Machine/Outer.lean ====
section
/-!
DEFINITION. The outer code of the stack controllers (R309, R310): RS(72,64) over GF(2⁸). Symbols are numbers below 256; the
first data byte is the coefficient of the highest degree (notes/assumptions/7.md).
-/

namespace Sys2Proof.Machine

/-! ### GF(2⁸) with x⁸ + x⁴ + x³ + x² + 1 -/

/-- The product with α. -/
def gfDouble (a : Nat) : Nat := if a < 128 then 2 * a else (2 * a) ^^^ 0x11D

/-- The product of a and the low `n` bits of b. -/
def gfMulBits : Nat → Nat → Nat → Nat
  | 0, _, _ => 0
  | n + 1, a, b => (if b % 2 = 1 then a else 0) ^^^ gfMulBits n (gfDouble a) (b / 2)

def gfMul (a b : Nat) : Nat := gfMulBits 8 a b

def gfPow (a : Nat) : Nat → Nat
  | 0 => 1
  | n + 1 => gfMul a (gfPow a n)

/-- The inverse of a non-zero symbol. -/
def gfInv (a : Nat) : Nat := gfPow a 254

/-- αⁿ. -/
def alphaPow : Nat → Nat
  | 0 => 1
  | n + 1 => gfDouble (alphaPow n)

/-! ### Codewords -/

/-- A polynomial, highest degree first, times (x + r). -/
def polyTimesRoot (g : List Nat) (r : Nat) : List Nat :=
  ((g ++ [0]).zip (0 :: g)).map (fun (p : Nat × Nat) => p.1 ^^^ gfMul p.2 r)

/-- The generator polynomial: roots α⁰ to α⁷ (R309). -/
def rsGenerator : List Nat := (upFrom 0 8).foldl (fun g j => polyTimesRoot g (alphaPow j)) [1]

/-- One step of the division by the generator: `st` is the remainder so far. -/
def rsShift (st : List Nat) (d : Nat) : List Nat :=
  let f := d ^^^ st.headD 0
  ((st.drop 1 ++ [0]).zip (rsGenerator.drop 1)).map (fun (p : Nat × Nat) => p.1 ^^^ gfMul f p.2)

/-- The check bytes of a line's data bytes (R309). -/
def rsCheck (data : List Nat) : List Nat := data.foldl rsShift (List.replicate 8 0)

/-- A codeword: the data bytes of a line followed by its check bytes. -/
def rsWord (data : List Nat) : List Nat := data ++ rsCheck data

/-- The value of a polynomial, highest degree first, at x. -/
def polyAt (l : List Nat) (x : Nat) : Nat := l.foldl (fun a c => gfMul a x ^^^ c) 0

/-- The syndromes of a word. -/
def rsSyndromes (w : List Nat) : List Nat := (upFrom 0 8).map (fun j => polyAt w (alphaPow j))

/-! ### Correction of up to 4 symbols (R310) -/

/-- The solution of n linear equations over GF(2⁸), each a row of n coefficients and a right side; none when they are singular. -/
def gfSolve : Nat → List (List Nat) → Option (List Nat)
  | 0, _ => some []
  | n + 1, rows =>
    match rows.find? (fun r => r.headD 0 != 0) with
    | none => none
    | some p =>
      let k := gfInv (p.headD 0)
      let q := (p.drop 1).map (gfMul k)
      let rest := (rows.erase p).map (fun r => ((r.drop 1).zip q).map (fun x => x.1 ^^^ gfMul (r.headD 0) x.2))
      match gfSolve n rest with
      | none => none
      | some xs => some (((q.zip xs).foldl (fun a x => a ^^^ gfMul x.1 x.2) (q.getD n 0)) :: xs)

/-- The locator of the symbol at a place of the codeword. -/
def rsLocator (p : Nat) : Nat := alphaPow (71 - p)

/-- Errors XORed into a word. -/
def rsApply (w : List Nat) (errs : List (Nat × Nat)) : List Nat :=
  errs.foldl (fun a e => a.set e.1 (a.getD e.1 0 ^^^ e.2)) w

/-- The pattern of exactly `v` symbol errors that the syndromes tell of, as (place, value), when there is one. -/
def rsErrors (w : List Nat) (s : List Nat) (v : Nat) : Option (List (Nat × Nat)) :=
  let rows := (upFrom 0 v).map (fun j => (upFrom 1 v).map (fun i => s.getD (j + v - i) 0) ++ [s.getD (j + v) 0])
  match gfSolve v rows with
  | none => none
  | some loc =>
    let places := (upFrom 0 72).filter (fun p => polyAt (1 :: loc) (rsLocator p) = 0)
    if places.length != v then none
    else
      let eqs := (upFrom 0 v).map (fun j => places.map (fun p => gfPow (rsLocator p) j) ++ [s.getD j 0])
      match gfSolve v eqs with
      | none => none
      | some vals =>
        let errs := places.zip vals
        if (rsSyndromes (rsApply w errs)).all (fun x => x = 0) then some errs else none

/-- The errors of a word that lies within 4 symbols of a codeword: none of them, or the first pattern of 1 to 4; no answer for a word
that is reported uncorrectable (R310). -/
def rsDecode (w : List Nat) : Option (List (Nat × Nat)) :=
  let s := rsSyndromes w
  if s.all (fun x => x = 0) then some []
  else (upFrom 1 4).findSome? (rsErrors w s)

end Sys2Proof.Machine
end

