-- ==== Sys2Proof/Machine/Geometry.lean ====
section
/-!
DEFINITION. The wafer map (R20-R34), the stations and their attachments (R366, R367), and the mesh as a graph.
-/

namespace Sys2Proof.Machine

/-- Cores of the wafer (R26). -/
def numCores : Nat := 1344
def numSheets : Nat := 56
def numStacks : Nat := 44
def numStations : Nat := 26

/-- Coordinates of a physical core number (R26). -/
def cxOf (n : Nat) : Nat := n % 48
def cyOf (n : Nat) : Nat := n / 48

/-- Physical number of core (cx, cy) (R26). -/
def coreAt (cx cy : Nat) : Nat := cy * 48 + cx

/-- Sheet number of a core (R21, R25). -/
def sheetOf (n : Nat) : Nat := cyOf n / 4 * 8 + cxOf n / 6

/-- Local index of a core on its sheet (R27). -/
def localIdx (n : Nat) : Nat := cyOf n % 4 * 6 + cxOf n % 6

/-- The core of a sheet with a local index (R25, R27). -/
def coreOfSheet (s l : Nat) : Nat := coreAt (s % 8 * 6 + l % 6) (s / 8 * 4 + l / 6)

/-- The cores of a sheet in local index order. -/
def sheetCores (s : Nat) : List Nat := (upFrom 0 24).map (coreOfSheet s)

/-- Cluster number of a core (R28). -/
def clusterOf (n : Nat) : Nat := cyOf n / 2 * 16 + cxOf n / 3

/-- Position of a core in its cluster, k = (cx mod 3) + 3·(cy mod 2) (R288). -/
def clusterPos (n : Nat) : Nat := cxOf n % 3 + 3 * (cyOf n % 2)

/-- The core at position k of cluster c. -/
def coreOfCluster (c k : Nat) : Nat := coreAt (c % 16 * 3 + k % 3) (c / 16 * 2 + k / 3)

/-- Local cluster number of a core within its sheet (R28). -/
def localCluster (n : Nat) : Nat := cxOf n % 6 / 3 + 2 * (cyOf n % 4 / 2)

/-- The core of a sheet at local cluster q and cluster position k. -/
def coreOfLocalCluster (s q k : Nat) : Nat :=
  coreAt (s % 8 * 6 + q % 2 * 3 + k % 3) (s / 8 * 4 + q / 2 * 2 + k / 3)

/-- Class of a sheet: 0 interior, 1 margin, 2 corner (R23, R638). -/
def sheetClass (s : Nat) : Nat :=
  let ex : Bool := s % 8 = 0 || s % 8 = 7
  let ey : Bool := s / 8 = 0 || s / 8 = 6
  if ex && ey then 2 else if ex || ey then 1 else 0

/-- The sheet of a stack (R31, R32). -/
def stackSheet (k : Nat) : Nat :=
  let p := k / 2
  if p < 6 then p + 1
  else if p < 11 then (p - 5) * 8 + 7
  else if p < 17 then 48 + (6 - (p - 11))
  else (5 - (p - 17)) * 8

/-- The lower-numbered stack of a margin sheet, if it is one. -/
def sheetStack (s : Nat) : Option Nat := (upFrom 0 44).find? (fun k => stackSheet k = s)

/-- The corner sheet of a port group (R34). -/
def groupSheet (g : Nat) : Nat := if g = 0 then 0 else if g = 1 then 7 else if g = 2 then 55 else 48

/-- The sheet of a station (R366). -/
def stationSheet (k : Nat) : Nat :=
  if k ≤ 7 then k
  else if k ≤ 12 then 15 + 8 * (k - 8)
  else if k = 13 then 55
  else if k ≤ 19 then 54 - (k - 14)
  else if k = 20 then 48
  else 40 - 8 * (k - 21)

/-- The station that serves a column of the distance table (R59, R366): stacks 0–43, port groups 44–47. -/
def targetStation (t : Nat) : Nat :=
  let s := if t < 44 then stackSheet t else groupSheet (t - 44)
  ((upFrom 0 26).find? (fun k => stationSheet k = s)).getD 0

/-- The attachment routers of a station (R367). -/
def attachments (k : Nat) : List Nat :=
  let s := stationSheet k
  let sx := s % 8
  let sy := s / 8
  if sy = 0 then (upFrom (6 * sx) 6).map (fun x => coreAt x 0)
  else if sy = 6 then (upFrom (6 * sx) 6).map (fun x => coreAt x 27)
  else (upFrom (4 * sy) 4).map (fun y => coreAt (if sx = 0 then 0 else 47) y)

/-- The attachment links of a station: router and station port, 5 BAND_A or 6 BAND_B (R357, R367). -/
def attachLinks (k : Nat) : List (Nat × Nat) :=
  let sy := stationSheet k / 8
  let a := (attachments k).map (fun n => (n, 5))
  if sy = 0 || sy = 6 then a else a ++ (((attachments k).drop 1).take 2).map (fun n => (n, 6))

/-- Identifier of an attachment link direction: link i of a station into the mesh (0) or out of it (1). The spec numbers
router-to-router links alone (R30). DESIGN CHOICE: notes/assumptions/37.md. -/
def attachId (k i direction : Nat) : Nat := 5376 + 12 * k + 2 * i + direction

/-- Neat line segments between two stations, the shorter way (R370). -/
def ringDist (a b : Nat) : Nat :=
  let d := (b + 26 - a) % 26
  min d (26 - d)

/-- The router that link d of router n leads to, d = 0 N, 1 E, 2 S, 3 W (R30, R357). -/
def neighbour (n d : Nat) : Option Nat :=
  if n ≥ numCores then none
  else if d = 0 then (if cyOf n = 27 then none else some (n + 48))
  else if d = 1 then (if cxOf n = 47 then none else some (n + 1))
  else if d = 2 then (if cyOf n = 0 then none else some (n - 48))
  else if d = 3 then (if cxOf n = 0 then none else some (n - 1))
  else none

/-- The opposite direction. -/
def opposite (d : Nat) : Nat := (d + 2) % 4

/-- The identifier names a router-to-router link (R30). -/
def meshLink (l : Nat) : Bool := (neighbour (l / 4) (l % 4)).isSome

/-- Identifier of channel c of a neat line segment in direction d, 0 ascending (R369; notes/assumptions/37.md). -/
def neatLink (k d c : Nat) : Nat := 5688 + 16 * k + 8 * d + c

/-- The identifier names a channel of a neat line segment. -/
def isNeat (l : Nat) : Bool := 5688 ≤ l && l < 5688 + 16 * numStations

/-- The identifier names a link direction: of the mesh or of an attachment, or a channel of a neat line segment. -/
def linkExists (l : Nat) : Bool := meshLink l || (5376 ≤ l && l < 5376 + 12 * numStations) || isNeat l

/-- The router of an attachment link direction. -/
def attachRouter (l : Nat) : Nat := (((attachLinks ((l - 5376) / 12))[(l - 5376) % 12 / 2]?).map (fun x => x.1)).getD 0

/-- A link direction of the mesh or of an attachment that ends at a router, and that router. -/
def linkReceiver (l : Nat) : Option Nat :=
  if meshLink l then neighbour (l / 4) (l % 4) else if !isNeat l && l % 2 = 0 then some (attachRouter l) else none

/-- The link in the other direction. -/
def reverseLink (l : Nat) : Nat :=
  match neighbour (l / 4) (l % 4) with
  | some m => m * 4 + opposite (l % 4)
  | none => l

/-- Manhattan distance between two cores. -/
def manhattan (a b : Nat) : Nat :=
  (max (cxOf a) (cxOf b) - min (cxOf a) (cxOf b)) + (max (cyOf a) (cyOf b) - min (cyOf a) (cyOf b))

/-- The mesh as it stands: which routers are up and which link identifiers are up. -/
structure Mesh where
  downRouters : List Nat
  downLinks : List Nat
  deriving DecidableEq, Repr

def Mesh.routerUp (m : Mesh) (n : Nat) : Bool := n < numCores && !(m.downRouters.contains n)

/-- The next router over an up link in direction d (both directions of a down link are avoided, R377). -/
def Mesh.step (m : Mesh) (n d : Nat) : Option Nat :=
  match neighbour n d with
  | some k =>
    if m.routerUp n && m.routerUp k && !(m.downLinks.contains (n * 4 + d)) && !(m.downLinks.contains (reverseLink (n * 4 + d)))
    then some k else none
  | none => none

/-- An attachment link both of whose directions are up (R377, R511). -/
def Mesh.attachUp (m : Mesh) (k i : Nat) : Bool :=
  !m.downLinks.contains (attachId k i 0) && !m.downLinks.contains (attachId k i 1)

/-- The routers that a station reaches over its attachment links that are up. -/
def Mesh.attached (m : Mesh) (k : Nat) : List Nat :=
  ((((attachLinks k).zip (upFrom 0 6)).filter (fun x => m.attachUp k x.2)).map (fun x => x.1.1)).eraseDups

/-- The up neighbours of a router in the order N, E, S, W. -/
def Mesh.nbrs (m : Mesh) (n : Nat) : List Nat := (upFrom 0 4).filterMap (m.step n)

/-- Breadth-first distances from the frontier, level by level. -/
def Mesh.bfsF (m : Mesh) : Nat → Nat → List Nat → Tab Nat → Tab Nat
  | 0, _, _, t => t
  | f + 1, d, frontier, t =>
    match frontier with
    | [] => t
    | _ =>
      let r := frontier.foldl (fun (a : List Nat × Tab Nat) n =>
        (m.nbrs n).foldl (fun (b : List Nat × Tab Nat) k =>
          match Tab.find b.2 k with
          | some _ => b
          | none => (b.1 ++ [k], Tab.set b.2 k (d + 1))) a) ([], t)
      Mesh.bfsF m f (d + 1) r.1 r.2

/-- Link distances from router n to every router it reaches. -/
def Mesh.dists (m : Mesh) (n : Nat) : Tab Nat :=
  if m.routerUp n then m.bfsF numCores 0 [n] [(n, 0)] else []

/-- Breadth-first tree from the root: each router's parent direction, ties in N, E, S, W order (R380). -/
def Mesh.treeF (m : Mesh) : Nat → List Nat → Tab Nat → Tab Nat
  | 0, _, t => t
  | f + 1, frontier, t =>
    match frontier with
    | [] => t
    | _ =>
      let r := frontier.foldl (fun (a : List Nat × Tab Nat) n =>
        (upFrom 0 4).foldl (fun (b : List Nat × Tab Nat) d =>
          match m.step n d with
          | some k => (match Tab.find b.2 k with
            | some _ => b
            | none => (b.1 ++ [k], Tab.set b.2 k (opposite d)))
          | none => b) a) ([], t)
      Mesh.treeF m f r.1 r.2

/-- Squared distance, in quarter units, from the wafer centre (23.5, 13.5). -/
def centreDist (n : Nat) : Nat :=
  let dx := max (2 * cxOf n) 47 - min (2 * cxOf n) 47
  let dy := max (2 * cyOf n) 27 - min (2 * cyOf n) 27
  dx * dx + dy * dy

/-- The root of the spanning tree: lowest number among the up routers nearest the centre (R380). -/
def Mesh.root (m : Mesh) : Option Nat :=
  ((upFrom 0 numCores).filter m.routerUp).foldl (fun (a : Option Nat) n =>
    match a with
    | none => some n
    | some r => if centreDist n < centreDist r then some n else some r) none

/-- Parent direction of every router of the spanning tree; 4 at the root. -/
def Mesh.tree (m : Mesh) : Tab Nat :=
  match m.root with
  | none => []
  | some r => m.treeF numCores [r] [(r, 4)]

/-- The routers from n up to the root. -/
def treePath (t : Tab Nat) : Nat → Nat → List Nat
  | 0, _ => []
  | f + 1, n =>
    match Tab.find t n with
    | none => []
    | some d => if d = 4 then [n] else
      match neighbour n d with
      | some k => n :: treePath t f k
      | none => [n]

/-- The ESCAPE port of router n toward destination dst along the tree: 4 at the destination, 7 without a route (R378). -/
def escapePort (t : Tab Nat) (n dst : Nat) : Nat :=
  if n = dst then (if (Tab.find t n).isSome then 4 else 7)
  else
    let p := treePath t numCores dst
    if (Tab.find t n).isNone || p.isEmpty then 7
    else
      match p.findIdx? (· = n) with
      | some 0 => 7
      | some i =>
        let nxt := p.getD (i - 1) dst
        ((upFrom 0 4).find? (fun d => neighbour n d = some nxt)).getD 7
      | none => Tab.get 7 t n

end Sys2Proof.Machine
end

