-- ==== Sys2Proof/Machine/State.lean ====
section
/-!
DEFINITION. The state of one module as plain data: wafer map, cores, traffic in flight, fabric, stacks, job, halyards,
Plotter, transport, host link, power, reset, firmware, gazetteer, event log, the always-on time and the queue of waiting
commands. INVENTORY.md lists every field with its rule and reset value.
-/

namespace Sys2Proof.Machine

/-! ### Wafer map (chapter 01) -/

/-- STATE of the core-state table (R50). -/
inductive CoreState where
  | unused | mapped | reserve | fenced | defective
  deriving DecidableEq, Repr

/-- A flash copy of the field-defect list (R46, R48): sequence number, physical core numbers, and the CRC-32 stored with them. -/
structure DefectCopy where
  seq : Nat
  cores : List Nat
  crc : Word32
  deriving DecidableEq, Repr

/-- What the CRC-32 of a copy covers, and what FIELD_DEFECTS returns (R48, R65). -/
def defectBytes (seq : Nat) (cores : List Nat) : List Byte :=
  leBytes seq 4 ++ leBytes cores.length 2 ++ cores.flatMap (fun n => leBytes n 2)

/-- A copy as firmware writes it. -/
def DefectCopy.make (seq : Nat) (cores : List Nat) : DefectCopy :=
  { seq := seq, cores := cores, crc := crc32 (defectBytes seq cores) }

/-- The copy's CRC-32 agrees with its contents. -/
def DefectCopy.valid (c : DefectCopy) : Bool := c.crc == crc32 (defectBytes c.seq c.cores)

structure WaferSt where
  surveyState : Nat
  surveySkipped : Nat
  /-- the two flash copies of the field-defect list (R48). -/
  flash0 : DefectCopy
  flash1 : DefectCopy
  /-- cores fenced without a list entry for this power cycle (R47). -/
  cycleFenced : List Nat
  reserve : Nat
  legendEpoch : Nat
  /-- logical map: (physical core, moves) per logical core (R49). -/
  logical : List (Nat × Nat)
  coreState : Tab CoreState
  routerDown : List Nat
  /-- distance table entries by 48·core + column (R60); absent: no route. -/
  distance : Tab Nat
  measureCount : Nat
  dark : List Nat
  deriving DecidableEq, Repr

def WaferSt.reset : WaferSt :=
  { surveyState := 0, surveySkipped := 0, flash0 := .make 0 [], flash1 := .make 0 [], cycleFenced := [], reserve := 1,
    legendEpoch := 0, logical := [], coreState := [], routerDown := [], distance := [], measureCount := 0, dark := [] }

/-- The copy in use: the valid one with the higher sequence number (R48). -/
def WaferSt.fieldCopy (w : WaferSt) : DefectCopy :=
  if w.flash1.valid && (!w.flash0.valid || w.flash0.seq < w.flash1.seq) then w.flash1 else w.flash0

/-- The field-defect list (R46) and its sequence number (R65). -/
def WaferSt.fieldDefects (w : WaferSt) : List Nat := w.fieldCopy.cores
def WaferSt.fieldSeq (w : WaferSt) : Nat := w.fieldCopy.seq

/-- Firmware writes the older copy (R48). -/
def WaferSt.storeDefects (w : WaferSt) (l : List Nat) : WaferSt :=
  let c := DefectCopy.make (w.fieldSeq + 1) l
  if w.flash1.valid && (!w.flash0.valid || w.flash0.seq < w.flash1.seq) then { w with flash0 := c } else { w with flash1 := c }

/-! ### In flight on the fabric -/

/-- What the sideband carries of a packet (R358, R359): its channel, whether it is on the escape sub-channel (R379), the 10-bit number
of its source and channel (R381), its destination router, its flits and whether it ends its transfer, the router at which it
stands with the links it has crossed, the CRC-32 of each flit's data, and the neat line segments it crosses, each with its sub-channel
(R370). -/
structure Packet where
  vc : Nat
  escape : Bool
  seq : Nat
  dst : Nat
  flits : Nat
  last : Bool
  here : Nat
  hops : Nat
  crc : List Word32
  track : List (Nat × Nat)
  deriving DecidableEq, Repr

/-- Where a packet for a CORE port is (R381): on its way, in one of the port's places for early packets, or in the input buffer because
those are full. -/
inductive PktPlace where
  | flying | early | buffered
  deriving DecidableEq, Repr

/-- A remote raise on VC0 (R91): sender, receiver (physical), index, increment. -/
structure RaiseMsg where
  src : Nat
  dst : Nat
  idx : Nat
  inc : Nat
  pkt : Packet
  place : PktPlace
  deriving DecidableEq, Repr

/-- One packet of a DSEND to one receiver (R291, R293, R359): the send's key, where its data go, and with the last packet the destination
pennant. -/
structure SendMsg where
  src : Nat
  dst : Nat
  vc : Nat
  dmem : Bool
  daddr : Nat
  data : List Byte
  pen : Option Nat
  key : Nat
  pkt : Packet
  place : PktPlace
  deriving DecidableEq, Repr

/-- A stream tile on its way to one receiver (R334), in packets (R359); `lost` are those that a router has discarded (R386). -/
structure TileMsg where
  stack : Nat
  unit : Nat
  dst : Nat
  addr : Nat
  data : List Byte
  pen : Option Nat
  rep : Nat
  pkts : List Packet
  lost : List Nat
  deriving DecidableEq, Repr

/-- Where DEXIT blocks go (R442, R447, R345). -/
inductive ContribDest where
  | core (n : Nat)
  | unit (group : Nat)
  | ledger (stack : Nat)
  deriving DecidableEq, Repr

/-- Blocks of a DEXIT between their core and their destination. -/
structure ContribMsg where
  src : Nat
  dest : ContribDest
  htab : Nat
  layer : Nat
  tile : Nat
  chain : Nat
  step : Nat
  attempt : Nat
  round : Nat
  m : Nat
  n : Nat
  blocks : List DexBlock
  pkts : List Packet
  deriving DecidableEq, Repr

structure FlightSt where
  raises : List RaiseMsg
  sends : List SendMsg
  tiles : List TileMsg
  contribs : List ContribMsg
  deriving DecidableEq, Repr

def FlightSt.reset : FlightSt := { raises := [], sends := [], tiles := [], contribs := [] }

/-! ### Fabric (chapter 08) -/

/-- State of a link identifier (R395): up, under in-service self-test, down, absent. -/
inductive LinkState where
  | up | selfTest | down | absent
  deriving DecidableEq, Repr

/-- A link direction: the data wires that a spare replaces, as (data wire, spare) (R372), and the retransmissions in a row that
the flit at its receiver has failed (R374). -/
structure LinkSt where
  st : LinkState
  wires : List (Nat × Nat)
  fails : Nat
  /-- times, in µs, of the retransmissions of the last millisecond (R375). -/
  retryAt : List Nat
  deriving DecidableEq, Repr

def LinkSt.up : LinkSt := { st := .up, wires := [], fails := 0, retryAt := [] }

/-- Spares in use (R395). -/
def LinkSt.spares (x : LinkSt) : Nat := x.wires.length

/-- Counts of a router (R395). -/
structure RouterCounts where
  crcRetries : Nat
  selfTests : Nat
  noRoute : Nat
  reorderWaits : Nat
  tableCorrected : Nat
  deriving DecidableEq, Repr

def RouterCounts.zero : RouterCounts := { crcRetries := 0, selfTests := 0, noRoute := 0, reorderWaits := 0, tableCorrected := 0 }

/-- Stage of the routing reload of R389. -/
inductive Reload where
  | none | draining | building | writing | reading
  deriving DecidableEq, Repr

/-- Routing tables: next-hop entries by 1344·router + destination (R378), target entries by 48·core + target and station entries
by 1344·station + core (R383). An absent entry is no route. -/
structure Routing where
  nextHop : Tab Nat
  target : Tab Nat
  station : Tab Nat
  deriving DecidableEq, Repr

def Routing.empty : Routing := { nextHop := [], target := [], station := [] }

/-- What step 3 of R389 builds and step 4 writes: tables, logical map, core states, and the logical cores that move. -/
structure Built where
  routing : Routing
  logical : List (Nat × Nat)
  coreState : Tab CoreState
  moved : List Nat
  fenced : List Nat
  /-- routers that are marked ROUTER_DOWN with the tables. -/
  routerDown : List Nat
  /-- the legend changes (R52). -/
  changed : Bool
  deriving DecidableEq, Repr

/-- An entry of a table with SEC-DED (R388, R511): next hop of a router toward a destination, target of a core's router by column, a
station's entry for a core, a core's copy of the logical map, a core's halyard table, the module's chain table. -/
inductive TableAt where
  | nextHop (router dest : Nat)
  | target (router column : Nat)
  | station (station core : Nat)
  | legend (core logical : Nat)
  | halyard (core entry : Nat)
  | chain (chain : Nat)
  deriving DecidableEq, Repr

structure FabricSt where
  /-- links by the identifier of R30, attachment link directions from 5,376 on and neat line channels from 5,688 on
  (notes/assumptions/37.md); an absent entry is a link that is up. -/
  links : Tab LinkSt
  /-- number of the next packet by 5·source + channel; stations count on from source 1344 (R381). -/
  seqNo : Tab Nat
  /-- packets that routers with two station ports have delivered to their station, modulo 2 (R382). -/
  band : Tab Nat
  /-- table entries with a single-bit error that is still stored (R388, R511). -/
  tableErr : List TableAt
  /-- corrections of entries that no router's TABLE_CORRECTED counts (R511, R543). -/
  tablesFixed : Nat
  routing : Routing
  vcWeights : Nat
  neatPenalty : Nat
  escapeWait : Nat
  selftestTrigger : Nat
  epoch : Nat
  counts : Tab RouterCounts
  reload : Reload
  reloadFails : Nat
  deriving DecidableEq, Repr

def FabricSt.reset : FabricSt :=
  { links := [], seqNo := [], band := [], tableErr := [], tablesFixed := 0, routing := .empty, vcWeights := 0x01010101, neatPenalty := 16, escapeWait := 64,
    selftestTrigger := 16, epoch := 0, counts := [], reload := .none, reloadFails := 0 }

/-! ### Stacks (chapter 07) -/

/-- Who waits for an uncorrectable line (R311, R315). -/
inductive Consumer where
  | dload (core : Nat)
  | stream (unit : Nat)
  | adder
  | gather
  | halyard
  | plotter
  | drain
  | host
  | scrub
  /-- firmware, that reads a plan image (R403). -/
  | firmware
  deriving DecidableEq, Repr

/-- Symbol errors of a data line's codeword (R309, R310), as (place 0 to 71, value XORed in): those that every read meets, and those
that only the next read meets. -/
structure LineErr where
  hard : List (Nat × Nat)
  soft : List (Nat × Nat)
  deriving DecidableEq, Repr

/-- The part of a data line that a write has brought while the line cannot be read: it is merged once its mirror data has come (R306,
R311). -/
structure LineMerge where
  line : Nat
  offset : Nat
  data : List Byte
  who : Consumer
  deriving DecidableEq, Repr

/-- A mirror fetch in progress (R311-R314): the line, who waits, the sources still to ask, the outstanding request's tag, when the
first request left, the lines of its group written since, and the group's mirror data while steps 3 and 4 run. A group that holds more than
one layer, part or step takes a request for each (R561): `parts` are those of its other lines that are still unanswered, `items` what the
replies have given, and `came` tells that the line's own data has come. -/
structure FetchSt where
  line : Nat
  consumers : List Consumer
  sources : List Nat
  tag : Nat
  start : Nat
  overwritten : List Nat
  good : Option (List Byte)
  parts : List GatherMsg
  items : List (Nat × List Byte)
  came : Bool
  deriving DecidableEq, Repr

/-- Where a stream unit stands (R327-R334). -/
inductive UnitState where
  | stopped | lwait | credits | ready | sending | ended
  deriving DecidableEq, Repr

structure UnitSt where
  st : UnitState
  pos : Nat
  rep : Nat
  /-- receivers whose credit waits are not yet granted. -/
  pend : List Nat
  /-- credit waits that are on their way to a receiver or wait there, as packets on VC0 (R332, R361). -/
  asks : List (Nat × Packet)
  /-- tiles of this descriptor sent to a receiver and not yet delivered. -/
  out : Nat
  /-- when the unit began to wait on a controller counter (R466). -/
  since : Nat
  deriving DecidableEq, Repr

def UnitSt.stopped : UnitSt := { st := .stopped, pos := 0, rep := 0, pend := [], asks := [], out := 0, since := 0 }

/-- A held write of a stream copy (R340): layer, step, PART, first tile or record, data. -/
structure HeldWrite where
  layer : Nat
  step : Nat
  part : Nat
  first : Nat
  count : Nat
  data : List Byte
  deriving DecidableEq, Repr

/-- A row of a KEEP region's keep table (R354). -/
structure KeepRow where
  region : Nat
  layer : Nat
  tile : Nat
  step : Nat
  addr : Nat
  len : Nat
  deriving DecidableEq, Repr

structure StackCounts where
  corrected : Nat
  uncorrectable : Nat
  retryGood : Nat
  mirrorFetched : Nat
  mirrorFailed : Nat
  innerCorrected : Nat
  innerUncorrected : Nat
  ledgerAdds : Nat
  widenInexact : Nat
  deriving DecidableEq, Repr

def StackCounts.zero : StackCounts :=
  { corrected := 0, uncorrectable := 0, retryGood := 0, mirrorFetched := 0, mirrorFailed := 0, innerCorrected := 0,
    innerUncorrected := 0, ledgerAdds := 0, widenInexact := 0 }

structure StackSt where
  mem : Memory
  /-- symbol errors by data line (R310). -/
  bad : Tab LineErr
  /-- errors that a data line has again after every write, for its cells are bad (R311 step 4). -/
  stuck : Tab (List (Nat × Nat))
  /-- what the inner code reports at a read of a line: 1 corrected, 2 uncorrected, by 9·group + line of the group, the check line last
  (R308). -/
  inner : Tab Nat
  merges : List LineMerge
  /-- reads of stream units, gathers and the adder that wait for lines: the lines that could be read stand as they were read (R312, R322). -/
  reads : List (Consumer × LineWait)
  badLines : List Nat
  beyond : Bool
  fetches : List FetchSt
  counters : Tab Nat
  units : Tab UnitSt
  held : List HeldWrite
  /-- copies, as (layer, step), whose release counter has been granted: their writes go through (R340). -/
  released : List (Nat × Nat)
  keep : List KeepRow
  /-- tiles that a gather has written into GATHER regions, with the step of the copy they come from (R351, R561). -/
  gathered : List KeepRow
  counts : StackCounts
  failed : Bool
  deriving DecidableEq, Repr

def StackSt.reset : StackSt :=
  { mem := [], bad := [], stuck := [], inner := [], merges := [], reads := [], badLines := [], beyond := false, fetches := [], counters := [], units := [],
    held := [], released := [], keep := [], gathered := [], counts := .zero, failed := false }

/-! ### Plan and job (chapters 09, 12, 15) -/

/-- The plan image header (R396). -/
structure PlanHeader where
  stepping : Nat
  waferSerial : Nat
  imageLength : Nat
  jobId : Nat
  firstStep : Nat
  seqLen : Nat
  cores : Nat
  layers : Nat
  moduleId : Nat
  moduleCount : Nat
  schedule : Nat
  microbatches : Nat
  deriving DecidableEq, Repr

/-- Queue regions, Plotter window and instruction store of one logical core (QUEUES section, R72, R100). -/
structure PlanCore where
  qbase : List Nat
  qlen : List Nat
  window : Nat
  image : List Byte
  deriving DecidableEq, Repr

/-- A region descriptor (R318), BASE and LENGTH in groups. -/
structure Region where
  kind : Nat
  stack : Nat
  base : Nat
  len : Nat
  deriving DecidableEq, Repr

/-- A placement entry (R795). -/
structure Placement where
  part : Nat
  region : Nat
  stride : Nat
  offset : Nat
  first : Nat
  count : Nat
  deriving DecidableEq, Repr

/-- A program variant of a layer for one rung (R207): the queue regions of the instruction store that a logical core runs with it, the
rungs of other layers that it is made for, and the bytes of the activation store that it needs. -/
structure Variant where
  rung : Nat
  core : Nat
  others : List (Nat × Nat)
  qbase : List Nat
  qlen : List Nat
  act : Nat
  deriving DecidableEq, Repr

/-- An output tile that a triangulation entry covers (R198, R200): logical core, ordinal of the tile's last MMUL in its array queue, the BF16
activation rows (first byte and distance in the activation store, elements of a row), the first weight row and column, and the tensor scale
entry of the activations. Its fields follow notes/assumptions/6.md. -/
structure TriTile where
  core : Nat
  ordinal : Nat
  addr : Nat
  pitch : Nat
  k : Nat
  row0 : Nat
  col0 : Nat
  tent : Nat
  deriving DecidableEq, Repr

/-- A triangulation entry of a layer (R197, R200): rate, threshold and limit where the plan gives them, and the tiles it covers. -/
structure TriEntry where
  rate : Option Nat
  threshold : Option Word32
  limit : Option Nat
  tiles : List TriTile
  deriving DecidableEq, Repr

/-- A layer of the plan (LAYERS section). -/
structure PlanLayer where
  layer : Nat
  owner : Nat
  mirror : Nat
  rung : Nat
  rungCap : Nat
  /-- form of the backward copy below BF16: MXFP8 E4M3 or E5M2 (R324). -/
  back : Nat
  /-- entry of the tensor scale table that the layer's weights are converted and read with (R192, R196). -/
  tent : Nat
  promote : Bool
  tri : TriEntry
  variants : List Variant
  placements : List Placement
  chains : List Nat
  tiles : Nat
  deriving DecidableEq, Repr

/-- A ledger tile (R343). -/
structure LedgerTile where
  core : Nat
  htab : Nat
  region : Nat
  offset : Nat
  m : Nat
  n : Nat
  expect : Nat
  deriving DecidableEq, Repr

/-- A receive table entry (R295, R563): the tag, its core, the module and range that hold the data, and the counter of
the source that says it is ready. -/
structure RecvEntry where
  tag : Nat
  core : Nat
  source : Nat
  region : Nat
  offset : Nat
  len : Nat
  ready : Nat
  deriving DecidableEq, Repr

/-- Release and arrival counters of a layer on a stack (R340). -/
structure CopyCtr where
  layer : Nat
  stack : Nat
  release : Nat
  threshold : Nat
  arrival : Nat
  deriving DecidableEq, Repr

/-- Layer parameters of the schedule table (R483, R487). -/
structure SchedLayer where
  layer : Nat
  group : Nat
  rows : Nat
  cols : Nat
  mode : Nat
  nsSet : Nat
  sheet : Nat
  stateRegion : Nat
  journalRegion : Nat
  stateOffset : Nat
  journalOffset : Nat
  deriving DecidableEq, Repr

/-- A scale group (R193): table entry and logical cores. -/
structure ScaleGroup where
  tent : Nat
  cores : List Nat
  deriving DecidableEq, Repr

/-- A loaded plan: header, digest and sections. -/
structure Plan where
  hdr : PlanHeader
  digest : List Byte
  cores : List PlanCore
  pennants : List (List Nat)
  legend : List Nat
  routing : Routing
  regions : List Region
  regionTables : List (List Nat)
  streams : Tab (List Nat)
  counters : Tab Nat
  copyCtrs : List CopyCtr
  gathers : Tab (List Nat)
  holders : Tab (List Nat)
  /-- core halyard table entries by 4096·logical core + entry (R439). -/
  halyard : Tab Nat
  /-- chain table entries (R441). -/
  chains : List Nat
  ledgers : List LedgerTile
  schedule : List Byte
  layers : List PlanLayer
  scaleGroups : List ScaleGroup
  scaleInit : List (List Int)
  /-- JOB_SEED, where the image sets it (R210). -/
  seed : Option Nat
  receive : List RecvEntry
  /-- input slots: (region, offset, length) (R795). -/
  inputs : List (Nat × Nat × Nat)
  deriving DecidableEq, Repr

/-- A PLAN_LOAD in progress (R403): the image's place, and the plan once it has been checked; before that the load waits for the
module to reach Run (R671). -/
structure Loading where
  stack : Nat
  address : Nat
  length : Nat
  plan : Option Plan
  deriving DecidableEq, Repr

/-- STATE of a step record (R418). -/
inductive RecState where
  | free | input | running | complete
  deriving DecidableEq, Repr

/-- A step record (R420); SCALES is kept by logical core. -/
structure StepRec where
  step : Nat
  attempt : Nat
  st : RecState
  genMode : Nat
  seed : Nat
  tokens : Nat
  inputBytes : Nat
  scales : List (Tab ScaleEntry)
  deriving DecidableEq, Repr

def StepRec.free : StepRec :=
  { step := 0, attempt := 0, st := .free, genMode := 0, seed := 0, tokens := 0, inputBytes := 0, scales := [] }

/-- Stage of the response to a batch of class B faults (R512). -/
inductive BatchStage where
  | idle | reload | owed | release
  deriving DecidableEq, Repr

/-- A batch of class B faults (R53, R512): the faults, its stage, cores fenced in it and faults of the next batch. -/
structure Batch where
  stage : BatchStage
  faults : List FaultB
  fenced : List Nat
  next : List FaultB
  /-- updates owed by the batch: (layer, step) (R512 step 5). -/
  owed : List (Nat × Nat)
  /-- cores fenced in batches already released, whose self-test runs (R512 step 7). -/
  testing : List Nat
  deriving DecidableEq, Repr

def Batch.idle : Batch := { stage := .idle, faults := [], fenced := [], next := [], owed := [], testing := [] }

/-- What the job waits to release (R421 step 5, R519 step 5). -/
inductive Release where
  | none
  | replay (step : Nat)
  | realign (target : Nat)
  deriving DecidableEq, Repr

/-- Where a layer's owner state and journal lie: stacks and first data bytes. -/
structure OwnerPlace where
  stack : Nat
  hdr : Nat
  bufA : Nat
  bufB : Nat
  mom : Nat
  jstack : Nat
  journal : Nat
  rows : Nat
  cols : Nat
  deriving DecidableEq, Repr

/-- A layer that a checkpoint has copied into its STAGING area (R532): where its bytes lie. -/
structure CkptLayer where
  layer : Nat
  stack : Nat
  addr : Nat
  len : Nat
  deriving DecidableEq, Repr

/-- A durable checkpoint (R531-R539). State 0 idle, 1 armed, 2 draining. -/
structure CkptSt where
  st : Nat
  step : Nat
  dest : List Byte
  port : Nat
  copied : List CkptLayer
  scales : Option (List Byte)
  skipped : Nat
  drained : Nat
  bytes : Nat
  /-- drain step of R535 in progress, 0 none. -/
  drainStep : Nat
  slot : Nat
  lastSeq : Nat
  deriving DecidableEq, Repr

def CkptSt.idle : CkptSt :=
  { st := 0, step := 0, dest := [], port := 0, copied := [], scales := none, skipped := 0, drained := 0, bytes := 0,
    drainStep := 0, slot := 0, lastSeq := 0 }

/-- The two slots of a checkpoint destination (R535): its address and port, and the SEQUENCE of each slot's valid commit record, 0 where
there is none. They are the destination's, and stand through every reset. -/
structure SlotPair where
  dest : List Byte
  port : Nat
  seqs : List Nat
  deriving DecidableEq, Repr

structure JobSt where
  jobState : Nat
  plan : Option Plan
  loading : Option Loading
  planStatus : Nat
  planDetail : Nat
  stopStatus : Nat
  stopEvent : Nat
  /-- the two step records, slot 0 first (R417). -/
  rec0 : StepRec
  rec1 : StepRec
  /-- FIRST_STEP runs as a calibration pass (R430). -/
  calibrating : Bool
  calibrated : Bool
  replayed : Bool
  release : Release
  resync : Nat
  /-- SCALES of the record from which the pending realignment has come (R519 step 4). -/
  resyncScales : Option (List (Tab ScaleEntry))
  abandoned : Nat
  replays : Nat
  realigns : Nat
  role : Nat
  batch : Batch
  classB : Nat
  classC : Nat
  sramCorrected : Nat
  reading : Nat
  /-- a step has started since JOB_START. -/
  started : Bool
  /-- the step that runs next (R416). -/
  next : Nat
  /-- the loaded plan rejoins its job (R526). -/
  rejoin : Bool
  /-- rung whose program variant runs, by layer; absent: the plan's own (R206). -/
  switched : Tab Nat
  ckpt : CkptSt
  slots : List SlotPair
  /-- JOB_ID and MODULE_ID of the last job of this module, kept in the NV store (R526). -/
  lastJob : Option (Nat × Nat)
  /-- where the last plan has put the owner state of the layers that this module owned or mirrored (R476). -/
  ownerPlaces : List OwnerPlace
  scrubPeriod : Nat
  mirrorTimeout : Nat
  /-- the MODEL's own: what the command that runs has found and job control still has to act on before the command ends: a stop
  with its status (R631), class B faults (R512) and class C faults (R522). -/
  wantStop : Option Nat
  wantB : List FaultB
  wantC : List FaultC
  deriving DecidableEq, Repr

def JobSt.reset : JobSt :=
  { jobState := 0, plan := none, loading := none, planStatus := 0, planDetail := 0, stopStatus := 0, stopEvent := 0,
    rec0 := .free, rec1 := .free, calibrating := false, calibrated := false, replayed := false,
    release := .none, resync := 0, resyncScales := none, abandoned := 0, replays := 0, realigns := 0, role := 0, batch := .idle,
    classB := 0, classC := 0, sramCorrected := 0, reading := 0, started := false, next := 0, rejoin := false, switched := [], ckpt := .idle, slots := [], lastJob := none, ownerPlaces := [],
    scrubPeriod := 86400, mirrorTimeout := 2000, wantStop := none, wantB := [], wantC := [] }

/-! ### Halyards (chapter 10) -/

/-- A sum in a halyard unit: the combined words, codes and counts (R435, R459). -/
structure SumVal where
  contributors : Nat
  tokens : Nat
  gaps : Nat
  saturations : Nat
  nonfinite : Nat
  skips : Nat
  excluded : Nat
  codes : List Nat
  words : List Int
  deriving DecidableEq, Repr

/-- An open sum (R448, R449). -/
structure OpenSum where
  group : Nat
  layer : Nat
  tile : Nat
  step : Nat
  round : Nat
  chain : Nat
  m : Nat
  n : Nat
  own : Option SumVal
  up : Option SumVal
  upCount : Nat
  tOwn : Nat
  tUp : Nat
  deriving DecidableEq, Repr

structure HalCounts where
  forwarded : Nat
  gaps : Nat
  skips : Nat
  excluded : Nat
  late : Nat
  duplicate : Nat
  malformed : Nat
  orphaned : Nat
  empty : Nat
  downDiscarded : Nat
  openPeak : Nat
  deriving DecidableEq, Repr

def HalCounts.zero : HalCounts :=
  { forwarded := 0, gaps := 0, skips := 0, excluded := 0, late := 0, duplicate := 0, malformed := 0, orphaned := 0,
    empty := 0, downDiscarded := 0, openPeak := 0 }

structure HalyardSt where
  sums : List OpenSum
  /-- last sum forwarded per tile, by 65536·layer + tile: 2·STEP + ROUND (R450); a calibration pass of a step stands before its
  sum. -/
  forwarded : Tab Nat
  /-- abandoned steps, as (first, end): their own partials never arrive (R519). -/
  noOwn : List (Nat × Nat)
  /-- sums forwarded with the own partial in, as (65536·layer + tile, 2·STEP + ROUND), for the step that runs and later ones (R458). -/
  ownForwarded : List (Nat × Nat)
  counts : Tab HalCounts
  /-- FORWARDED of a group at the last step boundary, and the sums forwarded in the step that ended there (R638). -/
  forwardedAt : Tab Nat
  lastForwarded : Tab Nat
  eventSeq : Tab Nat
  margin : Nat
  calibrate : Nat
  deadline : Nat
  hop : Nat
  downTimeout : Nat
  /-- step of the stream copy that a layer's STREAM regions hold whole on a stack, plus 1, by 64·layer + stack (R464). -/
  copyStep : Tab Nat
  /-- the same of its code records (R427, R431). -/
  codeStep : Tab Nat
  /-- form of the forward copy on a stack, by 64·layer + stack, once a downhaul has delivered one; absent: the plan's (R206). -/
  copyForm : Tab Nat
  /-- step plus 1 of the first copy that has come in that form (R206). -/
  formSince : Tab Nat
  /-- steps below which a written copy raises no arrival counter (R520). -/
  copyFloor : Nat
  /-- downhauls forwarded: (layer, step, 2^32·part + first item, count) (R464). -/
  forwardedDown : List (Nat × Nat × Nat × Nat)
  /-- items of a layer's copy written so far: (64·layer + stack, step, 2^32·part + item) (R340). -/
  written : List (Nat × Nat × Nat)
  /-- layers whose owner this module now takes to be the mirror owner (R502). -/
  takenOver : List Nat
  deriving DecidableEq, Repr

def HalyardSt.reset : HalyardSt :=
  { sums := [], forwarded := [], noOwn := [], ownForwarded := [], counts := [], forwardedAt := [], lastForwarded := [], eventSeq := [], margin := 1, calibrate := 1, deadline := 2000, hop := 100,
    downTimeout := 100, copyStep := [], codeStep := [], copyForm := [], formSince := [], copyFloor := 0, forwardedDown := [], written := [], takenOver := [] }

/-! ### Plotter (chapter 11) -/

/-- A tile's sum handed to the update of its layer (R460, R472). -/
structure HandSum where
  layer : Nat
  tile : Nat
  step : Nat
  chain : Nat
  val : SumVal
  m : Nat
  n : Nat
  deriving DecidableEq, Repr

/-- An update that waits for its sheet (R472, R477). -/
structure UpdReady where
  layer : Nat
  step : Nat
  /-- abandoned by a stop and begun again from R490 or R497 (R505). -/
  again : Bool
  deriving DecidableEq, Repr

/-- The update that a sheet runs: how far its commit is (0 started, 1 weights and journal written, 2 committed, 3 its mirror refresh still
to be sent: R474, R499) and the header fields that step 4 writes; `flags` are those that this update sets (R473). -/
structure UpdRun where
  layer : Nat
  step : Nat
  stage : Nat
  flags : Nat
  rung : Nat
  prodBeta : Word32
  fallbacks : Nat
  deriving DecidableEq, Repr

structure LayerCounts where
  updates : Nat
  duplicates : Nat
  stepGaps : Nat
  skippedNonfinite : Nat
  skippedSat : Nat
  scheduleValue : Nat
  missingTiles : Nat
  zeroUpdates : Nat
  gramRetries : Nat
  promotions : Nat
  deriving DecidableEq, Repr

def LayerCounts.zero : LayerCounts :=
  { updates := 0, duplicates := 0, stepGaps := 0, skippedNonfinite := 0, skippedSat := 0, scheduleValue := 0,
    missingTiles := 0, zeroUpdates := 0, gramRetries := 0, promotions := 0 }

structure PlotterSt where
  hand : List HandSum
  /-- time of the first sum of (layer, step) (R477). -/
  firstSum : List (Nat × Nat × Nat)
  ready : List UpdReady
  running : Tab UpdRun
  counts : Tab LayerCounts
  /-- role of a layer's state here: 0 not held, 1 owner, 2 mirror, 3 promoted mirror, 4 demoted owner (R501, R502, R507). -/
  role : Tab Nat
  rung : Tab Nat
  alarms : List (Nat × Nat × Nat)
  lastAlarms : Tab Nat
  mirrorGap : Tab Nat
  /-- owner state received and not yet complete (R500): layer, step, first 64-byte unit, data. -/
  refresh : List (Nat × Nat × Nat × List Byte)
  updateWait : Nat
  mirrorInterval : Nat
  takeoverWait : Nat
  deriving DecidableEq, Repr

def PlotterSt.reset : PlotterSt :=
  { hand := [], firstSum := [], ready := [], running := [], counts := [], role := [], rung := [], alarms := [],
    lastAlarms := [], mirrorGap := [], refresh := [], updateWait := 50, mirrorInterval := 1, takeoverWait := 30 }

/-! ### Events (R541, R542) -/

/-- An event record (R541) by its name; `info` is what DETAIL is formed from, first item lowest (R456). -/
structure Event where
  seq : Nat
  step : Nat
  time : Nat
  name : String
  cls : Nat
  kind : Nat
  source : Nat
  info : List Nat
  deriving DecidableEq, Repr

structure LogSt where
  ring : List Event
  /-- records that have left the ring: the place of its oldest record in the order in which records were logged. -/
  first : Nat
  seq : Nat
  overwritten : Nat
  nv : List Event
  deriving DecidableEq, Repr

def LogSt.reset : LogSt := { ring := [], first := 0, seq := 0, overwritten := 0, nv := [] }

/-! ### Ports and transport (chapter 13) -/

/-- State of an interface (R578). -/
inductive IfState where
  | down | training | up | disabled | notPresent
  deriving DecidableEq, Repr

/-- Transport counts of an interface (R578), 32-bit saturating. -/
structure NetCounts where
  sent : Nat
  received : Nat
  retransmissions : Nat
  rtoExpiries : Nat
  ceReceived : Nat
  rxMalformed : Nat
  rxNoBuffer : Nat
  rxFromLost : Nat
  rxFlowControl : Nat
  rxOther : Nat
  messagesToLost : Nat
  deriving DecidableEq, Repr

def NetCounts.zero : NetCounts :=
  { sent := 0, received := 0, retransmissions := 0, rtoExpiries := 0, ceReceived := 0, rxMalformed := 0, rxNoBuffer := 0,
    rxFromLost := 0, rxFlowControl := 0, rxOther := 0, messagesToLost := 0 }

/-- A frame sent and not acknowledged (R566): SEQ, those of its earlier transmissions, message, fragment, interface, times sent, current
RTO in µs, when sent. -/
structure TxFrame where
  seq : Nat
  olds : List Nat
  msgId : Nat
  frag : Nat
  fragCount : Nat
  type : Nat
  tag : Nat
  payload : List Byte
  iface : Nat
  sends : Nat
  rto : Nat
  sent : Nat
  deriving DecidableEq, Repr

/-- A message being received (R571): fragments by index. -/
structure RxMsg where
  msgId : Nat
  iface : Nat
  type : Nat
  tag : Nat
  count : Nat
  frags : Tab (List Byte)
  deriving DecidableEq, Repr

/-- Why a peer was lost (R574). -/
inductive LossCause where
  | heartbeat | leave | noPort
  deriving DecidableEq, Repr

/-- A peer: its table entry (R550), liveness (R574 to R576), sending and receiving state (R564 to R569). Times in µs,
α in units of 2^−32, R in units of 2^−16 Gb/s. A checkpoint destination that this module sends to is a further entry, module 0x4000. -/
structure PeerSt where
  module : Nat
  present : Bool
  active : Bool
  localGroup : Nat
  remoteGroup : Nat
  addr : List Byte
  contact : Bool
  lost : Bool
  cause : Option LossCause
  lastBeat : Nat
  /-- reading steps of the heartbeats of the last 8 ms, as (time in µs, step) (R516). -/
  readings : List (Nat × Nat)
  nextSeq : Nat
  nextMsg : Nat
  tx : List TxFrame
  ackBase : Nat
  sackMask : Nat
  rxCe : Bool
  unacked : Nat
  unackedAt : Nat
  rx : List RxMsg
  delivered : List Nat
  srtt : Nat
  rttvar : Nat
  sampled : Bool
  alpha : Nat
  rate : Nat
  windowMarked : Bool
  windowAt : Nat
  /-- turns of messages and of heartbeats through the group's up interfaces (R552, R573). -/
  rotate : Nat
  beatTurn : Nat
  /-- MSG_ID of the JOIN after which the peer's sequences began anew (R564, R565). -/
  joined : Option Nat
  deriving DecidableEq, Repr

/-- A held GATHER_REQ: of KIND 5 until its READY counter covers 1 (R563), or of another kind until the lines it reads can be read. -/
structure HeldGather where
  src : Nat
  stack : Nat
  g : GatherMsg
  deriving DecidableEq, Repr

/-- What a reply to an outstanding gather is for. -/
inductive GatherUse where
  | mirror (stack line : Nat)
  | recv (core tag : Nat)
  | copy (layer : Nat)
  /-- a gather list entry; `again`: a tile that is gathered again before it is read (R355). -/
  | entry (stack index : Nat) (again : Bool)
  deriving DecidableEq, Repr

/-- An outstanding gather of this module (R559, R561, R563): its request, whom it asked, holders left, and what it is for. -/
structure OutGather where
  g : GatherMsg
  holder : Nat
  rest : List Nat
  use : GatherUse
  deriving DecidableEq, Repr

/-- A message that waits because the unacknowledged-message table of its interface is full (R111, R570): for whom, and the port group and
port that its sender has chosen. -/
structure Waiting where
  dst : Nat
  group : Option Nat
  port : Option Nat
  m : Msg
  deriving DecidableEq, Repr

structure NetSt where
  portModes : Nat
  groupAddresses : List Byte
  gateways : List Byte
  udpPort : Nat
  trafficClasses : Nat
  cable : Tab Bool
  /-- ports that failed their test at the start or whose regulator has failed (R510, R650, R697). -/
  portsBad : List Nat
  ifaces : Tab IfState
  /-- next-hop addresses that Neighbor Discovery has resolved, by interface (R548); the MAC address is `Config.neighborMac`'s. -/
  neighbors : List (Nat × List Byte)
  peers : List PeerSt
  /-- messages that wait for an entry of their interface's table. -/
  backlog : List Waiting
  gathers : List OutGather
  held : List HeldGather
  counts : Tab NetCounts
  beatsOn : Bool
  beatAt : Nat
  deriving DecidableEq, Repr

def NetSt.reset : NetSt :=
  { portModes := 0, groupAddresses := zeros 64, gateways := zeros 64, udpPort := 19287,
    trafficClasses := 0x2E2E1A1A1A1A1A2E, cable := [], portsBad := [], ifaces := [], neighbors := [], peers := [], backlog := [], gathers := [], held := [], counts := [],
    beatsOn := false, beatAt := 0 }

/-! ### Host link and field network (chapter 14) -/

/-- Statuses of R596. -/
inductive Status where
  | ok | accessDenied | valueRange | noEntry | jobLoaded | noJob | busy | aborted | malformed | authRequired | slotBusy
  | notLost | checkpointLate | checkpointBusy | planInvalid | planLoadFault | programTrap | planFault | notReady | datum
  | timeout | dataError
  deriving DecidableEq, Repr

/-- What a function disabled by drain-then-disable is doing (R610, R611). -/
inductive Drain where
  | off | on | draining (enableAfter : Bool)
  deriving DecidableEq, Repr

/-- A command taken from the ring (R584, R587): its slot, and what it still has to do. `issued` holds the DMA requests issued
to the host that await completion. -/
structure HostCmd where
  opcode : Nat
  notify : Bool
  tag : Nat
  hostAddr : Nat
  length : Nat
  stack : Nat
  hbmAddr : Nat
  respAddr : Nat
  respLen : Nat
  bad : Bool
  index : Nat
  /-- a read that waits for lines (R311). -/
  wait : Option LineWait
  /-- done with this status and result, its completion not yet written. -/
  outcome : Option (Status × Nat)
  deriving DecidableEq, Repr

/-- The function's configuration space as far as R579 gives it state and a command can reach it: power state (0 D0, 3 D3hot), Uncorrectable Error
Status of Advanced Error Reporting, and the Completion Timeout programmed, in µs. Layout and reset values PRESUMED: those of PCI Express
(notes/assumptions/24.md). -/
structure PcieSt where
  dState : Nat
  aer : Nat
  completionTimeout : Nat
  deriving DecidableEq, Repr

def PcieSt.reset : PcieSt := { dState := 0, aer := 0, completionTimeout := 50000 }

/-- Window C memory after a reset: every vector of the MSI-X table is masked. PRESUMED: the reset value of PCI Express
(notes/assumptions/24.md). -/
def maskedTable : List Host.Cell := (List.range 64).map (fun v => (0x100000C + 16 * v, 1))

structure HostSt where
  linkUp : Bool
  wdBlocked : Bool
  cplIndex : Bool
  mbOverrun : Bool
  cmdOverrun : Bool
  cmdProducer : Nat
  cmdConsumer : Nat
  cplProducer : Nat
  cplConsumer : Nat
  evtProducer : Nat
  evtConsumer : Nat
  mbStatus : Nat
  mbBusy : Bool
  wdStack : Nat
  cmdEn : Drain
  evtEn : Drain
  busMaster : Drain
  /-- Window C areas by offset: mailbox, rings, MSI-X table (R582). -/
  windowC : Memory
  /-- MSI-X pending bits, by vector (R582). -/
  msixPending : Nat
  pcie : PcieSt
  inflight : List HostCmd
  /-- Window D reads that wait for lines, in the order of their requests (R311, R315). -/
  reads : List LineWait
  /-- completions written since vector 0 was last raised, and when the first was (R593). -/
  unsignalled : Nat
  unsignalledAt : Nat
  /-- the place of the event record that is copied next, in the order in which records were logged (R592). -/
  evtNext : Nat
  coalesceCount : Nat
  coalesceTime : Nat
  drainTimeout : Nat
  cmdsCompleted : Nat
  doorbellOverruns : Nat
  wdDiscarded : Nat
  wdRefused : Nat
  evtSkipped : Nat
  deriving DecidableEq, Repr

def HostSt.reset : HostSt :=
  { linkUp := false, wdBlocked := false, cplIndex := false, mbOverrun := false, cmdOverrun := false,
    cmdProducer := 0, cmdConsumer := 0, cplProducer := 0, cplConsumer := 0, evtProducer := 0, evtConsumer := 0,
    mbStatus := 0, mbBusy := false, wdStack := 0, cmdEn := .off, evtEn := .off, busMaster := .off, windowC := maskedTable,
    msixPending := 0, pcie := .reset,
    inflight := [], reads := [], unsignalled := 0, unsignalledAt := 0, evtNext := 0, coalesceCount := 1,
    coalesceTime := 0, drainTimeout := 100, cmdsCompleted := 0, doorbellOverruns := 0, wdDiscarded := 0, wdRefused := 0,
    evtSkipped := 0 }

/-- A snapshot of a BLOB for one client (R602). -/
structure Snapshot where
  client : Nat
  index : Nat
  sub : Nat
  data : List Byte
  lastRead : Nat
  deriving DecidableEq, Repr

/-- A WRITE_BLOCK session (R603): bytes received by offset, and the end once LAST has arrived. -/
structure Session where
  index : Nat
  sub : Nat
  /-- chunk of a bundle that the session writes (R728); 0 for other entries. -/
  chunk : Nat
  client : Nat
  bytes : Tab Byte
  fin : Option Nat
  last : Nat
  deriving DecidableEq, Repr

/-- A kept response (R604). -/
structure Kept where
  client : Nat
  txn : Nat
  op : Nat
  status : Status
  header : List Byte
  body : List Byte
  deriving DecidableEq, Repr

structure FieldSt where
  plcaToTimer : Nat
  notifyAddr : List Byte
  presenceInterval : Nat
  /-- when the last NOTIFY PRESENCE was sent, in µs. -/
  presenceAt : Nat
  plcaUp : Bool
  framesSent : Nat
  framesReceived : Nat
  requests : Nat
  duplicates : Nat
  authRefused : Nat
  beaconsMissed : Nat
  snapshots : List Snapshot
  sessions : List Session
  kept : List Kept
  deriving DecidableEq, Repr

/-- ff02::1. -/
def allNodes : List Byte := [0xFF, 0x02] ++ zeros 13 ++ [0x01]

def FieldSt.reset : FieldSt :=
  { plcaToTimer := 32, notifyAddr := allNodes, presenceInterval := 100, presenceAt := 0, plcaUp := false, framesSent := 0,
    framesReceived := 0, requests := 0, duplicates := 0, authRefused := 0, beaconsMissed := 0, snapshots := [],
    sessions := [], kept := [] }

/-- The last action of a CMD entry (R622). -/
structure Action where
  status : Nat
  busy : Bool
  count : Nat
  deriving DecidableEq, Repr

def Action.none : Action := { status := 0, busy := false, count := 0 }

/-! ### Power (chapter 16) -/

/-- State of a feed (R641). -/
inductive FeedState where
  | absent | inRange | underRange | overRange
  deriving DecidableEq, Repr

/-- A feed: state and since when it has stood, in µs; voltage in mV; disconnected by its OR-ing stage for over range (R642); presence contact
closed. -/
structure FeedSt where
  st : FeedState
  since : Nat
  mv : Nat
  opened : Bool
  pres : Bool
  deriving DecidableEq, Repr

/-- A regulator (R632, R650, R661): phases failed, failed, isolated, turned on. -/
structure RegSt where
  phasesFailed : Nat
  failed : Bool
  isolated : Bool
  deriving DecidableEq, Repr

def RegSt.ok : RegSt := { phasesFailed := 0, failed := false, isolated := false }

/-- A turn-on under the sheet governor (R664, R665): regulator, budget in A, when requested and when its ramp began in µs, half slew. -/
structure TurnOn where
  reg : Nat
  budget : Nat
  since : Nat
  began : Nat
  half : Bool
  deriving DecidableEq, Repr

structure GovSt where
  present : Nat
  waiting : List TurnOn
  ramping : List TurnOn
  waited : Nat
  halfSlew : Nat
  deriving DecidableEq, Repr

def GovSt.idle : GovSt := { present := 0, waiting := [], ramping := [], waited := 0, halfSlew := 0 }

structure PowerSt where
  feedA : FeedSt
  feedB : FeedSt
  busLow : Bool
  /-- kinds of regulator (R651) that the release steps have turned on (R695). -/
  railsUp : List Nat
  cartouche : Bool
  convFailed : List Nat
  regs : Tab RegSt
  /-- regulators that are off. -/
  regsOff : List Nat
  ties : List Nat
  drains : List Nat
  /-- counts of drained cores kept in the Cartouche (R659). -/
  drained : List Nat
  powerState : Nat
  target : Option Nat
  sheetLimit : Nat
  turnOnSlew : Word32
  turnOnWait : Nat
  gov : Tab GovSt
  coreTemps : Tab Word32
  sheetTemps : Tab Word32
  ringOsc : Tab Nat
  failedSensors : List Nat
  highSensors : List Nat
  inlet : Word32
  outlet : Word32
  coolantOut : Bool
  /-- when the last sample was (R675), since when sensors have differed from their sheet's mean (R680), and since when the coolant has been
  out of range (R681), in µs. -/
  sampleAt : Nat
  devSince : Tab Nat
  coolantSince : Option Nat
  thermalFences : Nat
  /-- largest MODULE_POWER seen since plan load, in W, and droop excursions by core (R632). -/
  powerPeak : Word32
  droops : Tab Nat
  /-- cores fenced at 110 °C whose self-test waits until they have cooled (R677). -/
  hotFenced : List Nat
  deriving DecidableEq, Repr

/-- Power after reset: feed A has just arrived (R685 POWER_ON). DESIGN CHOICE: notes/assumptions/13.md. -/
def PowerSt.reset : PowerSt :=
  { feedA := { st := .inRange, since := 0, mv := 54000, opened := false, pres := true },
    feedB := { st := .absent, since := 0, mv := 0, opened := false, pres := false },
    busLow := false, railsUp := [], cartouche := true, convFailed := [], regs := [], regsOff := [], ties := [],
    drains := [], drained := [], powerState := 0, target := none, sheetLimit := 960, turnOnSlew := 0x40000000#32,
    turnOnWait := 10, gov := [], coreTemps := [], sheetTemps := [], ringOsc := [], failedSensors := [], highSensors := [],
    inlet := 0x7FC00000#32, outlet := 0x7FC00000#32, coolantOut := false, sampleAt := 0, devSince := [],
    coolantSince := none, thermalFences := 0, powerPeak := 0, droops := [],
    hotFenced := [] }

/-! ### Reset and start-up (chapter 17) -/

/-- Reset scopes, narrowest first (R687). -/
inductive Scope where
  | host | core | fabric | warm | cold
  deriving DecidableEq, Repr

def Scope.rank : Scope → Nat
  | .host => 0
  | .core => 1
  | .fabric => 2
  | .warm => 3
  | .cold => 4

/-- The shadow registers (R698): regulator trims by identifier, SRAM row repairs (core, MEMORY, failed row, spare row), spare-wire
assignments (link, data wire, spare) and the field-defect list. -/
structure Shadows where
  trims : List (Nat × Nat)
  rows : List (Nat × Nat × Nat × Nat)
  wires : List (Nat × Nat × Nat)
  defects : List Nat
  deriving DecidableEq, Repr

def Shadows.empty : Shadows := { trims := [], rows := [], wires := [], defects := [] }

structure ResetSt where
  cause : Nat
  scope : Scope
  /-- the release step that runs next, 1 to 9; 0 when the module is Ready (R695). -/
  releaseStep : Nat
  ready : Bool
  /-- a start that has failed and stands still (R37, R702, R705). -/
  startFailed : Bool
  datum : Bool
  committed : Bool
  /-- what the shadow registers hold; nothing takes it before COMMITTED is set (R699). -/
  shadows : Shadows
  straps : Nat
  slotId : Nat
  bootSrc : Nat
  clkMode : Nat
  failedStarts : Nat
  /-- a reset commanded or asserted and not yet in effect: source code and scope (R635, R691). -/
  pending : Option (Nat × Scope)
  startTime : Nat
  /-- a thermal trip whose hold of release step 2 is to come, and the hold itself (R707). -/
  tripped : Bool
  thermalHold : Bool
  /-- µs of this start spent in a thermal hold or waiting for a pushed image, and since when the present wait lasts (R706). -/
  excluded : Nat
  waitFrom : Option Nat
  /-- the fast PLLs run from the on-module reference for want of the selected one (R694). -/
  pllOnModule : Bool
  /-- a Fabric reset or a reset of this core is in progress (R683). -/
  fabricReset : Bool
  coreReset : Option Nat
  /-- a pushed image is awaited (R723, R726). -/
  awaitPush : Bool
  deriving DecidableEq, Repr

def ResetSt.reset : ResetSt :=
  { cause := 1, scope := .cold, releaseStep := 1, ready := false, startFailed := false, datum := false, committed := false,
    shadows := .empty, straps := 0, slotId := 0, bootSrc := 0, clkMode := 0, failedStarts := 0, pending := none, tripped := false, excluded := 0, waitFrom := none, pllOnModule := false,
    startTime := 0, thermalHold := false, fabricReset := false, coreReset := none, awaitPush := false }

/-! ### Security and firmware (chapter 18) -/

/-- State of an image slot (R628, R721). -/
inductive SlotState where
  | empty | staged | unconfirmed | confirmed | previous
  deriving DecidableEq, Repr

/-- An image slot: state, header fields and digest of its bundle. -/
structure ImgSlot where
  st : SlotState
  version : Nat
  digest : List Byte
  rollback : Nat
  revoke : Nat
  keySlot : Nat
  deriving DecidableEq, Repr

def ImgSlot.none : ImgSlot := { st := .empty, version := 0, digest := [], rollback := 0, revoke := 0, keySlot := 0 }

/-- A key for authenticated Chart writes (R746). -/
structure AuthKey where
  id : Nat
  key : List Byte
  deriving DecidableEq, Repr

/-- A bundle that is being delivered (R728 to R733): chunks by number, the numbers whose bit is set, and what has verified. -/
structure Delivery where
  bytes : Tab (List Byte)
  bitmap : List Nat
  headerOk : Bool
  manifestOk : Bool
  deriving DecidableEq, Repr

def Delivery.empty : Delivery := { bytes := [], bitmap := [], headerOk := false, manifestOk := false }

structure FwSt where
  slot0 : ImgSlot
  slot1 : ImgSlot
  running : Nat
  /-- a pushed bundle that runs from Cartouche memory (R726). -/
  pushed : Option ImgSlot
  /-- the image that runs, as it was when the boot chain handed control to it. -/
  image : ImgSlot
  rollback : Nat
  revoked : Nat
  /-- the bundle that is being staged, in flash. -/
  staging : Delivery
  /-- the bundle that is being pushed at boot, in Cartouche memory (R726). -/
  push : Delivery
  rateCap : Nat
  /-- allowance of R734 in units of 1/8,000,000 byte, as it was at `allowanceAt` µs. -/
  allowance : Nat
  allowanceAt : Nat
  /-- CONFIRM_REMAINING in seconds as it was at `confirmAt` µs, and as stored in the NV store (R737). -/
  confirmRemaining : Nat
  confirmStored : Nat
  confirmAt : Nat
  report : List Byte
  pendingReport : Option (List Byte)
  reportSeq : Nat
  authKeys : List AuthKey
  authCounter : Nat
  deriving DecidableEq, Repr

/-- Firmware at delivery: slot 0 holds the factory image, active and confirmed. notes/assumptions/12.md. -/
def FwSt.factory : ImgSlot :=
  ⟨.confirmed, leAt Config.factoryBundle 8 4, Config.factoryDigest, leAt Config.factoryBundle 12 1,
    leAt Config.factoryBundle 14 1, leAt Config.factoryBundle 13 1⟩

def FwSt.reset : FwSt :=
  { slot0 := FwSt.factory, slot1 := .none, running := 0, pushed := none, image := FwSt.factory, rollback := Config.rollback, revoked := Config.revoked, staging := .empty,
    push := .empty, rateCap := 32000, allowance := 0, allowanceAt := 0,
    confirmRemaining := 0, confirmStored := 0, confirmAt := 0, report := [], pendingReport := none, reportSeq := 0,
    authKeys := [], authCounter := 0 }

/-! ### Gazetteer (chapter 19) -/

/-- The counts of a block outside the cores (R747, R748). -/
structure BlockCounts where
  counters : Tab Nat
  cycles : Nat
  wrapped : Nat
  deriving DecidableEq, Repr

def BlockCounts.zero : BlockCounts := { counters := [], cycles := 0, wrapped := 0 }

/-- A capture in a block's bank (R761): counters, slot counts, CYCLES, WRAPPED, sequence number. -/
structure Capture where
  counters : Tab Nat
  tally : SlotTally
  wrapped : Nat
  seq : Nat
  deriving DecidableEq, Repr

def Capture.zero : Capture := { counters := [], tally := .zero, wrapped := 0, seq := 0 }

/-- A capture message on its way to the blocks (R760): its kind, its number, the step it names and the blocks it has reached. -/
structure CapMsg where
  interval : Bool
  seq : Nat
  reached : List Nat
  deriving DecidableEq, Repr

/-- A capture that has been sent and not yet swept (R764): kind, step, attempt, time, legend epoch, sequence number. -/
structure CapSweep where
  kind : Nat
  step : Nat
  attempt : Nat
  time : Nat
  epoch : Nat
  seq : Nat
  deriving DecidableEq, Repr

structure GazSt where
  mode : Nat
  interval : Nat
  producer : Nat
  consumer : Nat
  overruns : Nat
  /-- control words by 8·block + counter, as written (R751, R755); absent: the reset value. -/
  control : Tab Nat
  blocks : Tab BlockCounts
  stepBank : Tab Capture
  intBank : Tab Capture
  msgs : List CapMsg
  sweep : Option CapSweep
  stepSeq : Nat
  intSeq : Nat
  missed : Nat
  /-- SLOT_ACCOUNT (R759), and the slot counts of the last step-boundary capture by core. -/
  account : SlotTally
  lastTally : Tab SlotTally
  lastRecord : List Byte
  /-- when the last interval capture message was sent, in µs (R762). -/
  intervalAt : Nat
  deriving DecidableEq, Repr

def GazSt.reset : GazSt :=
  { mode := 0, interval := 1000, producer := 0, consumer := 0, overruns := 0, control := [], blocks := [], stepBank := [],
    intBank := [], msgs := [], sweep := none, stepSeq := 0, intSeq := 0, missed := 0, account := .zero, lastTally := [], lastRecord := [],
    intervalAt := 0 }

/-! ### What leaves the module -/

/-- MAC_BASE: a multiple of 128 in 48 bits (R628). -/
def macBase : Nat := 128 * (Config.macBase % 2 ^ 41)

/-- MAC address n of the module: interfaces 0 to 63 (R546), then the field interface (R598). -/
def macOf (i : Nat) : List Byte := beBytes (macBase + i) 6

/-- The link-local address formed from a MAC address (R547, R598). -/
def linkLocal (i : Nat) : List Byte :=
  let m := macOf i
  [0xFE, 0x80] ++ zeros 6 ++ ((m.take 1).map (fun b => b ^^^ 2)) ++ slice m 1 2 ++ [0xFF, 0xFE] ++ m.drop 3

/-- The addresses and the UDP port that a Chart message of the module carries as its source. -/
structure NetSource where
  mac : List Byte
  ip : List Byte
  udp : Nat
  deriving DecidableEq, Repr

/-- The field interface: offset 64 of the MAC addresses and the link-local address formed from it; it uses no other (R598). Chart is UDP
port 19,288 (R600). -/
def fieldSource : NetSource := { mac := macOf 64, ip := linkLocal 64, udp := 19288 }

/-- A frame of the Peolo transport as it leaves an interface (R546 to R548, R553, R568): own MAC address, IPv6 addresses, the next hop that
Neighbor Discovery resolves and its MAC address, DSCP and ECN of the traffic class, UDP ports, and the UDP payload as header and data. -/
structure WireFrame where
  iface : Nat
  mac : List Byte
  src : List Byte
  dst : List Byte
  nextHop : List Byte
  dstMac : List Byte
  dscp : Nat
  ecn : Nat
  udpSrc : Nat
  udpDst : Nat
  header : List Byte
  payload : List Byte
  deriving DecidableEq, Repr

/-- Something the module sends to its surroundings: a Peolo message and its frames, an acknowledgement frame, a retransmission, an MSI-X
vector, a Chart message on the field network, a host memory access, a Neighbor Advertisement with its MAC address, a Neighbor Solicitation. -/
inductive Out where
  | message (peer : Nat) (msgId : Nat) (m : Msg) (frames : List WireFrame)
  | ackFrame (peer ack sack : Nat) (ce : Bool) (frames : List WireFrame)
  | retransmit (peer seq msgId frag : Nat) (frames : List WireFrame)
  | vector (v : Nat)
  | chart (source : Option NetSource) (client txn op : Nat) (status : Status) (header body : List Byte)
  | notify (source : NetSource) (dst : List Byte) (kind : Nat) (body : List Byte)
  | hostRead (addr length : Nat)
  | hostWrite (addr : Nat) (data : List Byte)
  | neighborAdvert (iface : Nat) (target mac : List Byte)
  | neighborSolicit (iface : Nat) (target mac : List Byte)
  | windowData (data : List Byte)
  deriving DecidableEq, Repr

/-! ### The NV store (R691, R692) -/

/-- What the Cartouche's ferroelectric NV store holds. Which of the small entries of scope NV stand there and not in flash: DESIGN CHOICE,
notes/assumptions/38.md. -/
structure NvImage where
  failedStarts : Nat
  confirmStored : Nat
  authCounter : Nat
  authKeys : List AuthKey
  rateCap : Nat
  ring : List Event
  sheetLimit : Nat
  turnOnSlew : Word32
  turnOnWait : Nat
  plcaToTimer : Nat
  notifyAddr : List Byte
  presenceInterval : Nat
  deriving DecidableEq, Repr

/-- The pulse of a write that has not ended: when it began, in µs, and what the store held before it. -/
structure NvSt where
  pulse : Option (Nat × NvImage)
  deriving DecidableEq, Repr

def NvSt.idle : NvSt := { pulse := none }

/-- A write begins its pulse. The pulse before it has ended by then, but for one that holds a reset: that one takes the write in, and the hold
grows no longer. DESIGN CHOICE: notes/assumptions/38.md. -/
def NvSt.begin (x : NvSt) (now : Nat) (held : Bool) (old : NvImage) : NvSt :=
  if held && x.pulse.isSome then x else { pulse := some (now, old) }

/-! ### The module -/

structure State where
  wafer : WaferSt
  /-- cores by physical number; an absent entry is a core after reset. -/
  cores : Tab CoreSt
  flight : FlightSt
  fabric : FabricSt
  hbm : Tab StackSt
  job : JobSt
  halyard : HalyardSt
  plotter : PlotterSt
  fmt : FmtSt
  net : NetSt
  host : HostSt
  fieldNet : FieldSt
  /-- action records of CMD entries by 256·index + sub-index (R622). -/
  actions : Tab Action
  power : PowerSt
  reset_ : ResetSt
  fw : FwSt
  gaz : GazSt
  log : LogSt
  nv : NvSt
  /-- always-on cycles at 25 MHz since the start of the Cartouche (R13, R541). -/
  aon : Nat
  /-- the MODEL's own count of free values drawn; no value of the spec. notes/assumptions/8.md. -/
  freshCount : Nat
  /-- the MODEL's own record of what has been sent, oldest first. -/
  out : List Out
  /-- commands that wait, first in first out. -/
  pending : List Instr
  deriving DecidableEq, Repr

/-- The module right after a power-on reset by feed A: release step 1 runs next. Values that the spec does not state are named
in notes/assumptions/5.md and 13.md. -/
def State.reset : State :=
  { wafer := .reset, cores := [], flight := .reset, fabric := .reset, hbm := [], job := .reset, halyard := .reset,
    plotter := .reset, fmt := .reset, net := .reset, host := .reset, fieldNet := .reset, actions := [], power := .reset,
    reset_ := .reset, fw := .reset, gaz := .reset, log := .reset, nv := .idle, aon := 0, freshCount := 0, out := [], pending := [] }

/-- Why the model stops: the command names a place that the wafer does not have. Raised by any meaning whose operand is a core
above 1343, a stack above 43, a unit above 3, a sheet above 55, a port above 31 or the like. Safe. -/
inductive Fault where
  | noSuchPlace
  deriving DecidableEq, Repr

/-- A command without a meaning. -/
inductive Refusal where
  /-- Raised by Dispatch for a command that has no meaning yet. Safe. -/
  | notModelled (mnemonic : String)
  deriving DecidableEq, Repr

end Sys2Proof.Machine
end

