-- ==== Sys2Proof/Machine/Lines.lean ====
section
/-!
DEFINITION. Data lines of a stack under the two codes: groups with their check lines (R304), reads (R306, R308, R310, R311 step 1) and
writes (R306, R314).
-/

namespace Sys2Proof.Machine

/-! ### Groups (R304) -/

/-- A data line as it was written. -/
def StackSt.lineData (x : StackSt) (line : Nat) : List Byte := Memory.readN x.mem (64 * line) 64

/-- The codeword of a data line, with errors XORed into it (R309). -/
def StackSt.wordOf (x : StackSt) (line : Nat) (errs : List (Nat × Nat)) : List Nat :=
  rsApply (rsWord ((x.lineData line).map (fun b => b.toNat))) errs

/-- The replies to a fetch have given a data line. -/
def FetchSt.covers (f : FetchSt) (line : Nat) : Bool := f.items.any (fun x => x.1 < 64 * line + 64 && 64 * line < x.1 + x.2.length)

/-- Symbol errors that a read of a data line meets: none in a group of the bad-line map, nor while the good data of a mirror fetch stands
for the group (R311). -/
def StackSt.lineErr (x : StackSt) (line : Nat) : LineErr :=
  if x.badLines.contains (line / 8) || x.fetches.any (fun f => f.line / 8 = line / 8 && f.good.isSome && f.covers line) then ⟨[], []⟩
  else Tab.get ⟨[], []⟩ x.bad line

/-- The codeword that stands in a stack's cells. -/
def StackSt.cellWord (x : StackSt) (line : Nat) : List Nat := x.wordOf line (x.lineErr line).hard

/-- The 576 bytes of a group as they stand in the cells: 8 data lines, then the check line with the check bytes of line i at 8i
(R304). -/
def StackSt.groupBytes (x : StackSt) (g : Nat) : List Byte :=
  let ws := (upFrom (8 * g) 8).map x.cellWord
  ((ws.flatMap (fun w => w.take 64)) ++ (ws.flatMap (fun w => w.drop 64))).map (fun v => BitVec.ofNat 8 v)

/-! ### Reads (R310, R311 step 1) -/

/-- What the outer code makes of a word: its data, and whether it has corrected some; none for an uncorrectable word. -/
def decodeWord (w : List Nat) : Option (List Byte × Bool) :=
  (rsDecode w).map (fun errs => (((rsApply w errs).take 64).map (fun v => BitVec.ofNat 8 v), !errs.isEmpty))

/-- What a read of a line comes to. -/
inductive LineRead where
  /-- its data, whether corrected, and whether only the second read has given it (R311 step 1). -/
  | data (l : List Byte) (corrected again : Bool)
  | lost
  deriving DecidableEq, Repr

def StackSt.readLine (x : StackSt) (line : Nat) : LineRead :=
  let e := x.lineErr line
  match decodeWord (x.wordOf line (e.hard ++ e.soft)) with
  | some d => .data d.1 d.2 false
  | none =>
    match decodeWord (x.wordOf line e.hard) with
    | some d => .data d.1 d.2 true
    | none => .lost

/-- A line of the range of `n` bytes from `a` on. -/
def lineIn (a n line : Nat) : Bool := decide (a < 64 * line + 64) && decide (64 * line < a + n) && n != 0

/-- A line holds errors that a read meets. -/
def StackSt.errs (x : StackSt) (line : Nat) : Bool := x.lineErr line != ⟨[], []⟩

/-- The lines that hold errors, in ascending order. -/
def StackSt.errLines (x : StackSt) (sel : Nat → Bool) : List Nat := ((x.bad.map (fun p => p.1)).filter sel).filter x.errs

/-- Outcome of a read: the stack, the lines that cannot be read, and lines that differ from what the memory holds or have been corrected. -/
structure Scan where
  after : StackSt
  lost : List Nat
  fixed : List (Nat × List Byte)
  deriving DecidableEq, Repr

/-- Reports of the inner code are counted as the stack returns them, whatever the outer code makes of the access (R308). -/
def StackSt.noteInner (x : StackSt) (l : List (Nat × Nat)) : StackSt :=
  if l.isEmpty then x
  else { x with counts := { x.counts with
    innerCorrected := satAdd32 x.counts.innerCorrected (l.filter (fun p => p.2 = 1)).length
    innerUncorrected := satAdd32 x.counts.innerUncorrected (l.filter (fun p => p.2 = 2)).length } }

/-- The inner code's reports when the controller reads one line once more (R308, R311 step 1); it holds the group's check line (R306). -/
def StackSt.innerAgain (x : StackSt) (line : Nat) : StackSt :=
  if x.badLines.contains (line / 8) then x else x.noteInner (x.inner.filter (fun p => p.1 = 9 * (line / 8) + line % 8))

/-- One line with errors is read, once more when the first read finds no data (R311 step 1): the counts, and what only that read has met is
gone. -/
def Scan.line (r : Scan) (l : Nat) : Scan :=
  let first : Bool := match r.after.readLine l with | .data _ _ again => !again | .lost => false
  let x := if first then r.after else r.after.innerAgain l
  let bump (x : StackSt) (cor unc good : Bool) : StackSt :=
    let c := x.counts
    let one (b : Bool) (v : Nat) : Nat := if b then satAdd32 v 1 else v
    { x with counts := { c with corrected := one cor c.corrected, uncorrectable := one unc c.uncorrectable, retryGood := one good c.retryGood } }
  let y := { x with bad := (Tab.upd ⟨[], []⟩ x.bad l (fun e => { e with soft := [] })).filter (fun p => p.2 != ⟨[], []⟩) }
  match x.readLine l with
  | .data d cor again => { after := bump y cor again again, lost := r.lost, fixed := r.fixed ++ [(l, d)] }
  | .lost => { after := bump y false true false, lost := r.lost ++ [l], fixed := r.fixed }

/-- The inner code's reports of a read: of its data lines, and of the check line of every group that it meets (R306, R308). -/
def StackSt.innerReports (x : StackSt) (sel : Nat → Bool) : StackSt :=
  let hit (k : Nat) : Bool := !x.badLines.contains (k / 9) &&
    (if k % 9 = 8 then (upFrom (8 * (k / 9)) 8).any sel else sel (8 * (k / 9) + k % 9))
  x.noteInner (x.inner.filter (fun p => hit p.1))

/-- The lines that `sel` names are read. -/
def StackSt.scan (x : StackSt) (sel : Nat → Bool) : Scan :=
  (x.errLines sel).foldl Scan.line { after := x.innerReports sel, lost := [], fixed := [] }

/-- Outcome of a read of a range: the stack, the lines that cannot be read, and data (R310, R311). -/
structure Read where
  after : StackSt
  lost : List Nat
  data : List Byte
  deriving DecidableEq, Repr

/-- Bytes `b` in place of those of line `l` in data that starts at address a. -/
def patchLine (a l : Nat) (b data : List Byte) : List Byte :=
  (data.zip (upFrom a data.length)).map (fun p => if p.2 / 64 = l then b.getD (p.2 % 64) 0 else p.1)

def StackSt.readRange (x : StackSt) (a n : Nat) : Read :=
  let r := x.scan (lineIn a n)
  { after := r.after, lost := r.lost, data := r.fixed.foldl (fun d p => patchLine a p.1 p.2 d) (Memory.readN x.mem a n) }

/-! ### Writes (R306, R314) -/

/-- A data line has been written, and its group's check line with it (R306): its errors are those of its cells, its inner reports are gone
unless its cells are bad, and no merge waits for it. -/
def StackSt.wrote (x : StackSt) (line : Nat) : StackSt :=
  let k := Tab.get [] x.stuck line
  { x with bad := if k.isEmpty then Tab.erase x.bad line else Tab.set x.bad line ⟨k, []⟩
           inner := if k.isEmpty then Tab.erase (Tab.erase x.inner (9 * (line / 8) + line % 8)) (9 * (line / 8) + 8) else x.inner
           merges := x.merges.filter (fun m => m.line != line) }

/-- The lines that a range writes in part (R306). -/
def partLines (a n : Nat) : List Nat :=
  (([a / 64, (a + n - 1) / 64].eraseDups).filter (fun l => n != 0 && !(decide (a ≤ 64 * l) && decide (64 * l + 64 ≤ a + n))))

/-- The lines of the range of `n` bytes from `a` on. -/
def linesOf (a n : Nat) : List Nat := if n = 0 then [] else upFrom (a / 64) ((a + n - 1) / 64 + 1 - a / 64)

/-- A line has been written while a mirror fetch of its group runs (R314). -/
def FetchSt.overtake (f : FetchSt) (line : Nat) : FetchSt :=
  if f.line / 8 = line / 8 && !f.overwritten.contains line then { f with overwritten := f.overwritten ++ [line] } else f

/-- A write to a stack's data space. A line that is written in part is read first: what it holds is merged with the new bytes, or, when
it cannot be read, the new bytes wait for its mirror data (R306, R311). -/
def StackSt.write (x : StackSt) (a : Nat) (l : List Byte) (who : Consumer) : StackSt :=
  let r := x.scan (fun line => (partLines a l.length).contains line)
  let y := { r.after with mem := Memory.writeN (r.fixed.foldl (fun m p => Memory.writeN m (64 * p.1) p.2) x.mem) a l }
  let mine (line : Nat) : LineMerge :=
    { line := line, offset := a - 64 * line, data := slice l (64 * line - a) (64 * line + 64 - max a (64 * line)), who := who }
  (linesOf a l.length).foldl (fun y line =>
    if r.lost.contains line then { y with mem := Memory.writeN y.mem (64 * line) (x.lineData line), merges := y.merges ++ [mine line] }
    else { y.wrote line with fetches := y.fetches.map (fun f => f.overtake line) }) y

/-- The merges that wait for lines of a group, over the group's good data (R306). -/
def StackSt.merged (x : StackSt) (g : Nat) (sel : Nat → Bool) (good : List Byte) : List Byte :=
  (x.merges.filter (fun m => m.line / 8 = g && sel m.line)).foldl (fun d m =>
    let o := 64 * (m.line % 8) + m.offset
    d.take o ++ m.data ++ d.drop (o + m.data.length)) good

end Sys2Proof.Machine
end

