-- ==== Sys2Proof/Machine/Ops.lean ====
section
/-!
DEFINITION. Named operations over the state: access to cores and stacks, logical and physical numbers, stack memory, events and
their copies (R541, R542, R592, R599), MSI-X vectors (R593), action records (R622) and step records (R418).
-/

namespace Sys2Proof.Machine

/-- Answer of a meaning. -/
abbrev Res := Host.Outcome State Fault Refusal

/-! ### Places -/

/-- A core number exists (R26); otherwise the command names no place. -/
def withCore (n : Nat) (r : Res) : Res := if n < numCores then r else .fault .noSuchPlace
def withStack (k : Nat) (r : Res) : Res := if k < numStacks then r else .fault .noSuchPlace
def withUnit (k u : Nat) (r : Res) : Res := if k < numStacks ∧ u < 4 then r else .fault .noSuchPlace
def withSheet (n : Nat) (r : Res) : Res := if n < numSheets then r else .fault .noSuchPlace
def withGroup (g : Nat) (r : Res) : Res := if g < 4 then r else .fault .noSuchPlace
def withIface (i : Nat) (r : Res) : Res := if i < 64 then r else .fault .noSuchPlace
def withPort (p : Nat) (r : Res) : Res := if p < 32 then r else .fault .noSuchPlace
def withLink (l : Nat) (r : Res) : Res := if linkExists l then r else .fault .noSuchPlace

/-! ### Cores and stacks -/

def State.core (s : State) (n : Nat) : CoreSt := Tab.get CoreSt.reset s.cores n
def State.setCore (s : State) (n : Nat) (c : CoreSt) : State := { s with cores := Tab.set s.cores n c }
def State.updCore (s : State) (n : Nat) (f : CoreSt → CoreSt) : State := s.setCore n (f (s.core n))

def State.stack (s : State) (k : Nat) : StackSt := Tab.get StackSt.reset s.hbm k
def State.setStack (s : State) (k : Nat) (x : StackSt) : State := { s with hbm := Tab.set s.hbm k x }
def State.updStack (s : State) (k : Nat) (f : StackSt → StackSt) : State := s.setStack k (f (s.stack k))

/-- The queue of a core by name. -/
def CoreSt.queue (c : CoreSt) : QName → Queue
  | .fetch => c.fq
  | .array => c.aq
  | .vector => c.vq
  | .dispatch => c.dq
  | .plotter => c.pq

def CoreSt.setQueue (c : CoreSt) (q : QName) (x : Queue) : CoreSt :=
  match q with
  | .fetch => { c with fq := x }
  | .array => { c with aq := x }
  | .vector => { c with vq := x }
  | .dispatch => { c with dq := x }
  | .plotter => { c with pq := x }

/-- The program queues in the order of R89 and R254. -/
def programQueues : List QName := [.fetch, .array, .vector, .dispatch]

/-- Every core of a list with a function applied. -/
def State.updCores (s : State) (l : List Nat) (f : Nat → CoreSt → CoreSt) : State :=
  l.foldl (fun t n => t.updCore n (f n)) s

/-! ### Plan and legend -/

/-- Logical cores of the loaded plan (R49, R396). -/
def State.planCores (s : State) : Nat := s.wafer.logical.length

/-- Physical core of a logical core (R49). -/
def State.phys (s : State) (l : Nat) : Nat := (s.wafer.logical.getD l (0, 0)).1

/-- Logical number of a physical core, if the legend maps it (R49). -/
def State.logicalOf (s : State) (n : Nat) : Option Nat := (s.wafer.logical.map (fun p => p.1)).findIdx? (fun p => p = n)

/-- The mapped physical cores in logical order. -/
def State.mapped (s : State) : List Nat := s.wafer.logical.map (fun p => p.1)

def State.coreStateOf (s : State) (n : Nat) : CoreState := Tab.get .unused s.wafer.coreState n
def State.setCoreState (s : State) (n : Nat) (x : CoreState) : State :=
  { s with wafer := { s.wafer with coreState := Tab.set s.wafer.coreState n x } }

/-- MODULE_ID of the loaded plan; 0xFFFF without one (R629). -/
def State.moduleId (s : State) : Nat := match s.job.plan with | some p => p.hdr.moduleId | none => 0xFFFF

/-- The region descriptors of the loaded plan (R318). -/
def State.regions (s : State) : List Region := match s.job.plan with | some p => p.regions | none => []

/-- First data byte and length in bytes of a region (R304, R318). -/
def Region.start (r : Region) : Nat := 512 * r.base
def Region.bytes (r : Region) : Nat := 512 * r.len

/-- The region of a stack that holds a data byte. -/
def State.regionAt (s : State) (k a : Nat) : Option Region :=
  s.regions.find? (fun r => r.stack = k && r.start ≤ a && a < r.start + r.bytes)

/-- The layer record of a layer (R397). -/
def State.planLayer (s : State) (l : Nat) : Option PlanLayer :=
  match s.job.plan with
  | some p => p.layers.find? (fun x => x.layer = l)
  | none => none

/-- Data space and plan space of a stack (R305, R307). -/
def dataSpace : Nat := 56888888832
def planSpace : Nat := 56620453376

/-! ### Stack memory -/

/-- A write to a stack's data space by one of its consumers (R306, R314). -/
def State.writeStack (s : State) (k a : Nat) (l : List Byte) (who : Consumer := .plotter) : State := s.updStack k (fun x => x.write a l who)

/-- The bytes of a stack as they were written. -/
def State.readStack (s : State) (k a n : Nat) : List Byte := Memory.readN (s.stack k).mem a n

/-- Consumers whose reads keep the lines that they have: those that the Plotter, firmware and the drain unit read stand still
meanwhile. -/
def Consumer.holds : Consumer → Bool
  | .stream _ => true
  | .adder => true
  | .gather => true
  | _ => false

/-- A read of a stream unit or of the adder, whose work a stop drops. -/
def Consumer.ofJob : Consumer → Bool
  | .stream _ => true
  | .adder => true
  | _ => false

/-- The router whose TABLE_CORRECTED counts an entry (R395); none for tables outside the routers. -/
def TableAt.router : TableAt → Option Nat
  | .nextHop n _ => some n
  | .target n _ => some n
  | _ => none

/-- A table entry is read: a single-bit error that it holds is corrected in line and counted (R388, R511). -/
def State.tableRead (s : State) (e : TableAt) : State :=
  if !s.fabric.tableErr.contains e then s
  else
    let f := s.fabric
    match e.router with
    | some n =>
      let l := Tab.upd .zero f.counts n (fun c => { c with tableCorrected := satAdd32 c.tableCorrected 1 })
      { s with fabric := { f with counts := l } }
    | none => { s with fabric := { s.fabric with tablesFixed := satAdd32 s.fabric.tablesFixed 1 } }

/-- What the outer code delivers of a range whose lines a checked read has found readable (R308, R310). -/
def State.delivered (s : State) (k a n : Nat) : List Byte := ((s.stack k).readRange a n).data

/-- Place of a tile or record n under a placement (R795). -/
def State.placeAddr (s : State) (p : Placement) (n : Nat) : Nat × Nat :=
  let r := s.regions.getD p.region { kind := 0, stack := 0, base := 0, len := 0 }
  (r.stack, r.start + 64 * (p.offset + (n - p.first) * p.stride))

/-- The placements of a layer's stream copy and code records: those in STREAM regions (R319, R463). -/
def State.copyPlaces (s : State) (l : PlanLayer) : List Placement :=
  l.placements.filter (fun p => match s.regions[p.region]? with | some r => r.kind = 1 | none => false)

/-- The placement in a STREAM region that holds item n of a layer's part. -/
def State.copyPlace (s : State) (l : PlanLayer) (part n : Nat) : Option Placement :=
  (s.copyPlaces l).find? (fun p => p.part = part && p.first ≤ n && n < p.first + p.count)

/-- The placement of a layer's part that holds item n. -/
def PlanLayer.placed (l : PlanLayer) (part n : Nat) : Option Placement :=
  l.placements.find? (fun p => p.part = part && p.first ≤ n && n < p.first + p.count)

/-! ### Step records (R417, R418) -/

def State.record (s : State) (slot : Nat) : StepRec := if slot % 2 = 0 then s.job.rec0 else s.job.rec1
def State.setRec (s : State) (slot : Nat) (r : StepRec) : State :=
  if slot % 2 = 0 then { s with job := { s.job with rec0 := r } } else { s with job := { s.job with rec1 := r } }

/-- The RUNNING record, if any. -/
def State.running (s : State) : Option StepRec :=
  if s.job.rec0.st = .running then some s.job.rec0 else if s.job.rec1.st = .running then some s.job.rec1 else none

/-- STEP_CURRENT and STEP_ATTEMPT (R424). -/
def State.stepCurrent (s : State) : Nat := match s.running with | some r => r.step | none => 0
def State.stepAttempt (s : State) : Nat := match s.running with | some r => r.attempt | none => 0

def RecState.code : RecState → Nat
  | .free => 0
  | .input => 1
  | .running => 2
  | .complete => 3

/-- The first 32 bytes of a step record (R420). -/
def StepRec.head (r : StepRec) : List Byte :=
  leBytes r.step 4 ++ leBytes r.attempt 1 ++ leBytes r.st.code 1 ++ leBytes r.genMode 1 ++ zeros 1 ++ leBytes r.seed 8
    ++ leBytes r.tokens 8 ++ leBytes r.inputBytes 4 ++ zeros 4

/-- The bytes of SCALES (R420). -/
def scalesBytes (l : List (Tab ScaleEntry)) : List Byte :=
  l.flatMap (fun t => (upFrom 0 64).flatMap (fun i =>
    let e := Tab.get ScaleEntry.zero t i
    leBytes ((e.t % 256).toNat) 1 ++ zeros 3 ++ leBytes e.cur.toNat 4
      ++ (upFrom 0 16).flatMap (fun k => leBytes (e.hist.getD k 0#32).toNat 4)))

/-! ### Free values -/

/-- The next free value: an opaque number, and the model's own count advances (notes/assumptions/8.md). -/
def State.fresh (s : State) : Nat × State := (Config.freeNat s.freshCount, { s with freshCount := s.freshCount + 1 })

/-- Flush flags of work that cores share: each class that it flushed comes up at one of them at least. Which core meets which value is not
stated and stays free (R184; notes/assumptions/8.md). -/
def State.flushOn (s : State) (cores : List Nat) (fl : Flushes) : State :=
  let some' (t : State) (n : Nat) : State := let f := t.fresh
    f.2.updCore n (fun c => c.addFlush (f.1 % 16 &&& fl))
  let one (t : State) (b : Nat) : State := let f := t.fresh
    match cores[f.1 % cores.length]? with
    | some n => f.2.updCore n (fun c => c.addFlush (b &&& fl))
    | none => t
  if fl = 0 then s else [1, 2, 4, 8].foldl one (cores.foldl some' s)

/-! ### Sent things -/

def State.send (s : State) (o : Out) : State := { s with out := s.out ++ [o] }

/-- Microseconds on the always-on timer (R13, R541). -/
def State.micros (s : State) : Nat := s.aon / 25

/-- The always-on counter moves on to `t` µs when it has not passed it (notes/assumptions/3.md). -/
def State.until (s : State) (t : Nat) : State := { s with aon := max s.aon (25 * t) }

/-- `t` µs pass (notes/assumptions/3.md). -/
def State.elapse (s : State) (t : Nat) : State := { s with aon := s.aon + 25 * t }

/-- The MSI-X table masks a vector: bit 0 of its Vector Control (R579, R582). PRESUMED: the layout of PCI Express (notes/assumptions/24.md). -/
def HostSt.masked (h : HostSt) (v : Nat) : Bool := bit (Memory.read h.windowC (0x100000C + 16 * v)).toNat 0

/-- An MSI-X vector while the host link is up (R593): a masked one becomes pending. -/
def State.vector (s : State) (v : Nat) : State :=
  if !s.host.linkUp then s
  else if s.host.masked v then { s with host := { s.host with msixPending := s.host.msixPending ||| 2 ^ v } }
  else s.send (.vector v)

/-- Pending vectors that the table masks no longer are sent. -/
def State.unmask (s : State) : State :=
  (upFrom 0 64).foldl (fun t v =>
    if bit t.host.msixPending v && !t.host.masked v then
      { t with host := { t.host with msixPending := t.host.msixPending ^^^ 2 ^ v } }.send (.vector v)
    else t) s

/-- The Cartouche runs: it is powered, and the always-on domain has been released (R599, R689). -/
def State.awake (s : State) : Bool := s.power.cartouche && s.reset_.releaseStep != 1

/-! ### The NV store (R691, R692) -/

/-- What the NV store holds. -/
def State.nvImage (s : State) : NvImage :=
  { failedStarts := s.reset_.failedStarts, confirmStored := s.fw.confirmStored, authCounter := s.fw.authCounter, authKeys := s.fw.authKeys,
    rateCap := s.fw.rateCap, ring := s.log.nv, sheetLimit := s.power.sheetLimit, turnOnSlew := s.power.turnOnSlew,
    turnOnWait := s.power.turnOnWait, plcaToTimer := s.fieldNet.plcaToTimer, notifyAddr := s.fieldNet.notifyAddr,
    presenceInterval := s.fieldNet.presenceInterval }

/-- A write of the NV store, which held `old`, begins its pulse. -/
def State.nvBegin (s : State) (old : NvImage) : State := { s with nv := s.nv.begin s.micros s.reset_.pending.isSome old }

/-- The store holds what it held before: a write whose pulse has run past 120 µs is as if never made. -/
def State.nvRestore (s : State) (i : NvImage) : State :=
  { s with reset_ := { s.reset_ with failedStarts := i.failedStarts }
           fw := { s.fw with confirmStored := i.confirmStored, authCounter := i.authCounter, authKeys := i.authKeys, rateCap := i.rateCap }
           log := { s.log with nv := i.ring }
           power := { s.power with sheetLimit := i.sheetLimit, turnOnSlew := i.turnOnSlew, turnOnWait := i.turnOnWait }
           fieldNet := { s.fieldNet with plcaToTimer := i.plcaToTimer, notifyAddr := i.notifyAddr, presenceInterval := i.presenceInterval }
           nv := .idle }

/-! ### Events -/

/-- Classes of R541. -/
def clsINFO : Nat := 0
def clsA : Nat := 1
def clsB : Nat := 2
def clsC : Nat := 3
def clsPROGRAM : Nat := 4
def clsRESET : Nat := 5

/-- Source kinds of R541. -/
def srcModule : Nat := 0
def srcCore : Nat := 1
def srcLink : Nat := 2
def srcStack : Nat := 3
def srcPort : Nat := 4
def srcSheet : Nat := 5
def srcReg : Nat := 6
def srcHalyard : Nat := 7
def srcPlotter : Nat := 8

/-- An event record (R541): DETAIL holds the unit's sequence number of a halyard event (R456); its other contents are the
event's own, in a layout that the spec does not give (notes/assumptions/10.md). -/
def Event.bytes (e : Event) : List Byte :=
  leBytes e.seq 4 ++ leBytes e.step 4 ++ leBytes e.time 8 ++ leBytes (Config.eventCode e.name) 2 ++ leBytes e.cls 1
    ++ leBytes e.kind 1 ++ leBytes e.source 4
    ++ (if e.kind = 7 then leBytes (e.info.getD 0 0) 4 ++ leBytes (Config.eventDetail e.name (e.info.drop 1)) 4
        else leBytes (Config.eventDetail e.name e.info) 8)

/-- The classes that the NV store keeps and the field network hears of (R542, R599). -/
def Event.kept (e : Event) : Bool := e.cls = 2 || e.cls = 3 || e.cls = 5

/-- Rings keep their newest records (R542). -/
def ringPush (cap : Nat) (l : List Event) (e : Event) : List Event :=
  if l.length < cap then l ++ [e] else l.drop (l.length + 1 - cap) ++ [e]

/-- A record joins the ring, which drops its oldest when it is full (R542). -/
def LogSt.push (l : LogSt) (e : Event) : LogSt :=
  { l with ring := ringPush 65535 l.ring e, first := l.first + (l.ring.length + 1 - 65535) }

/-- The ring loses its records, with the memory that holds them. -/
def LogSt.empty (l : LogSt) : LogSt := { l with ring := [], first := l.first + l.ring.length }

/-- The record that is copied next to the event ring, with its place: that at place `n`, or the oldest that remains (R592). -/
def LogSt.next (l : LogSt) (n : Nat) : Option (Nat × Event) :=
  (l.ring[n - l.first]?).map (fun e => (max n l.first, e))

/-- Copies event records to the Window C ring while EVT_EN is 1 and the ring has room (R592, R593). -/
def State.copyEvents (s : State) : Nat → State
  | 0 => s
  | f + 1 =>
    let h := s.host
    if h.evtEn = .on ∧ (h.evtProducer + 65536 - h.evtConsumer) % 65536 < 8192 then
      match s.log.next h.evtNext with
      | none => s
      | some (i, e) =>
        let s := { s with host := { h with
          windowC := Memory.writeN h.windowC (0x300000 + 32 * (h.evtProducer % 8192)) e.bytes,
          evtProducer := (h.evtProducer + 1) % 65536, evtNext := i + 1,
          evtSkipped := satAdd32 h.evtSkipped (i - h.evtNext) } }
        State.copyEvents (s.vector (if e.kept then 2 else 1)) f
    else s

/-- Records that one command can bring to the event ring: all of the log. -/
def copyFuel (s : State) : Nat := s.log.ring.length

/-- A record joins the event log, and the NV store in a pulse of its own when its class is kept (R542, R691). -/
def State.logged (s : State) (e : Event) : State :=
  let l := s.log
  { s with log := { l.push e with seq := (l.seq + 1) % 2 ^ 32, overwritten := satAdd32 l.overwritten (if l.ring.length < 65535 then 0 else 1),
                                  nv := if e.kept then ringPush 512 l.nv e else l.nv }
           nv := if e.kept then s.nv.begin s.micros s.reset_.pending.isSome s.nvImage else s.nv }

/-- NOTIFY EVENT leaves on the field network (R599). -/
def State.notifyEvent (s : State) (e : Event) : State :=
  { s.send (.notify fieldSource s.fieldNet.notifyAddr 1 e.bytes) with
    fieldNet := { s.fieldNet with framesSent := satAdd32 s.fieldNet.framesSent 1 } }

/-- Logs an event (R541, R542), notifies the field network (R599) and copies the record to the host (R592). -/
def State.event (s : State) (name : String) (cls kind source : Nat) (info : List Nat) : State :=
  let e : Event := { seq := s.log.seq, step := s.stepCurrent, time := s.micros, name := name, cls := cls, kind := kind,
                     source := source, info := info }
  let s := s.logged e
  let s := if e.kept && s.awake then s.notifyEvent e else s
  s.copyEvents (copyFuel s)

/-- An information event of the module. -/
def State.info (s : State) (name : String) (info : List Nat) : State := s.event name clsINFO srcModule 0 info

/-- An event of a halyard unit carries the unit's own sequence number (R456). -/
def State.halEvent (s : State) (name : String) (cls g : Nat) (info : List Nat) : State :=
  let n := Tab.get 0 s.halyard.eventSeq g
  let s := { s with halyard := { s.halyard with eventSeq := Tab.set s.halyard.eventSeq g (n + 1) } }
  s.event name cls srcHalyard g (n :: info)

/-! ### Action records (R622, R623) -/

def odKey (index sub : Nat) : Nat := 256 * index + sub

def State.action (s : State) (index sub : Nat) : Action := Tab.get .none s.actions (odKey index sub)

/-- The action of a CMD entry starts: in progress, counted. -/
def State.actionStart (s : State) (index sub : Nat) : State :=
  { s with actions := Tab.upd .none s.actions (odKey index sub) (fun a => { a with busy := true, count := satAdd32 a.count 1 }) }

/-- The action of a CMD entry ends with a status. -/
def State.actionEnd (s : State) (index sub status : Nat) : State :=
  { s with actions := Tab.upd .none s.actions (odKey index sub) (fun a => { a with busy := false, status := status }) }

/-- An action that completes at once. -/
def State.actionDone (s : State) (index sub status : Nat) : State := (s.actionStart index sub).actionEnd index sub status

/-- Status codes of R596. -/
def Status.code : Status → Nat
  | .ok => 0x0000
  | .accessDenied => 0x0001
  | .valueRange => 0x0002
  | .noEntry => 0x0003
  | .jobLoaded => 0x0004
  | .noJob => 0x0005
  | .busy => 0x0006
  | .aborted => 0x0007
  | .malformed => 0x0008
  | .authRequired => 0x0009
  | .slotBusy => 0x000A
  | .notLost => 0x000B
  | .checkpointLate => 0x000C
  | .checkpointBusy => 0x000D
  | .planInvalid => 0x0010
  | .planLoadFault => 0x0011
  | .programTrap => 0x0012
  | .planFault => 0x0013
  | .notReady => 0x0014
  | .datum => 0x0015
  | .timeout => 0x0016
  | .dataError => 0x0017

/-! ### Job states (R583) -/

def jsSTARTING : Nat := 0
def jsNO_PLAN : Nat := 1
def jsLOADED : Nat := 2
def jsRUNNING : Nat := 3
def jsQUIESCED : Nat := 4
def jsDATUM : Nat := 5

end Sys2Proof.Machine
end

