-- ==== Sys2Proof/Machine/ResetOps.lean ====
section
/-!
DEFINITION. Requests for a reset (R635, R685, R687): the widest scope that waits applies; NV pulses (R691, R692).
-/

namespace Sys2Proof.Machine

/-- Reset source codes (R685). -/
def rcPOWER_ON : Nat := 0x01
def rcMRST : Nat := 0x02
def rcOD_COLD : Nat := 0x03
def rcOD_WARM : Nat := 0x04
def rcFIELD_COLD : Nat := 0x05
def rcFIELD_WARM : Nat := 0x06
def rcWATCHDOG : Nat := 0x07
def rcCRITICAL_STATE : Nat := 0x08
def rcCRITICAL_CONTROL : Nat := 0x09
def rcTHERMAL_TRIP : Nat := 0x0A
def rcSTART_TIMEOUT : Nat := 0x0B

/-- A reset source asks for its reset, which waits until it asserts (R635, R687, R691); a Cartouche that has stopped has none but POWER_ON. -/
def State.askReset (s : State) (code : Nat) (scope : Scope) : State :=
  if !s.power.cartouche then s
  else match s.reset_.pending with
  | none => { s with reset_ := { s.reset_ with pending := some (code, scope) } }
  | some p => if p.2.rank < scope.rank then { s with reset_ := { s.reset_ with pending := some (code, scope) } } else s

/-! ### NV pulses (R691, R692) -/

/-- The pulse has run past 120 µs: it holds a reset no further. -/
def NvSt.overrun (x : NvSt) (now : Nat) : Bool := match x.pulse with | some p => p.1 + 120 < now | none => false

/-- The pulse ends: one that has run past 120 µs while a reset waited has written nothing. -/
def State.nvEnd (s : State) : State :=
  match s.nv.pulse with
  | none => s
  | some p => if s.reset_.pending.isSome && s.nv.overrun s.micros then s.nvRestore p.2 else { s with nv := .idle }

end Sys2Proof.Machine
end

