-- ==== Sys2Proof/Machine/GazOps.lean ====
section
/-!
DEFINITION. Counters of the blocks (R747 to R756), the slot tally's part in a replay (R758), and captures (R759 to R763).
Counts that add once per clock advance with the events of this model only: notes/assumptions/11.md.
-/

namespace Sys2Proof.Machine

/-! ### Blocks (R755) -/

def blkRouter (n : Nat) : Nat := 1344 + n
def blkStack (k : Nat) : Nat := 2688 + k
def blkPort (p : Nat) : Nat := 2732 + p
def blkPlotter (s : Nat) : Nat := 2764 + s
def blkGov (s : Nat) : Nat := 2820 + s
def numBlocks : Nat := 2876

/-- Selectable counters of a block (R747). -/
def blockCounters (b : Nat) : Nat :=
  if b < 1344 then 8 else if b < 2688 then 4 else if b < 2764 then 8 else 4

/-- The control word of a counter (R751); MASK 0xFF at reset. -/
def GazSt.ctl (g : GazSt) (b k : Nat) : Nat := Tab.get 0xFF00 g.control (8 * b + k)

def ctlEvent (w : Nat) : Nat := field w 22 10
def ctlEdge (w : Nat) : Bool := bit w 21
def ctlChain (w : Nat) : Bool := bit w 20
def ctlInvert (w : Nat) : Bool := bit w 19
def ctlMask (w : Nat) : Nat := field w 8 8
def ctlThr (w : Nat) : Nat := field w 0 8

/-- What `clocks` clocks in which an event has the value `v` add to a counter (R751). -/
def ctlAmount (w v clocks : Nat) : Nat :=
  if ctlInvert w then 0
  else if ctlThr w != 0 then (if v ≥ ctlThr w then clocks else 0)
  else if ctlEdge w then (if v = 0 ∨ clocks = 0 then 0 else 1)
  else v * clocks

/-- Counts and WRAPPED flags of a block after counter `k` goes up by `n` (R750, R753). -/
def bumpCounter (ctl : Nat → Nat) (last : Nat) (x : Tab Nat × Nat) (k n : Nat) : Tab Nat × Nat :=
  let v := Tab.get 0 x.1 k + n
  let t := Tab.set x.1 k (v % 2 ^ 48)
  if v < 2 ^ 48 then (t, x.2)
  else if ctlChain (ctl k) && k < last then
    let h := Tab.get 0 t (k + 1) + v / 2 ^ 48
    (Tab.set t (k + 1) (h % 2 ^ 48), if h < 2 ^ 48 then x.2 else x.2 ||| 2 ^ (k + 1))
  else (t, x.2 ||| 2 ^ k)

/-- An event of value `v` in `clocks` clocks, whose contribution has the qualifiers of the mask `q` (0: none), in a block's counters (R752,
R753). -/
def countIn (ctl : Nat → Nat) (num ev q v clocks : Nat) (x : Tab Nat × Nat) : Tab Nat × Nat :=
  (upFrom 0 num).foldl (fun a k =>
    if (k != 0 && ctlChain (ctl (k - 1))) || ctlEvent (ctl k) != ev || ctlMask (ctl k) &&& q != q then a
    else bumpCounter ctl (num - 1) a k (ctlAmount (ctl k) v clocks)) x

/-- An event in a block's counters. -/
def State.count (s : State) (b ev q v clocks : Nat) : State :=
  let ctl := s.gaz.ctl b
  if b < 1344 then
    s.updCore b (fun c => let x := countIn ctl 8 ev q v clocks (c.counters, c.wrapped); { c with counters := x.1, wrapped := x.2 })
  else
    let k := Tab.get BlockCounts.zero s.gaz.blocks b
    let x := countIn ctl (blockCounters b) ev q v clocks (k.counters, k.wrapped)
    { s with gaz := { s.gaz with blocks := Tab.set s.gaz.blocks b { k with counters := x.1, wrapped := x.2 } } }

/-- Event codes of R756 that this model counts. -/
def evISSUE : Nat := 0x010
def evMACS : Nat := 0x014
def evACC_READS : Nat := 0x016
def evGEN_WORDS : Nat := 0x017
def evREMOTE_RAISES : Nat := 0x018
def evSRAM_CORRECTED : Nat := 0x019
def evFLITS_OUT : Nat := 0x080
def evESCAPE_MOVES : Nat := 0x082
def evCRC_RETRY : Nat := 0x084
def evDATA_LINES : Nat := 0x100
def evOUTER_CORRECTED : Nat := 0x102
def evLEDGER_ELEMENTS : Nat := 0x104
def evTILES_SENT : Nat := 0x105
def evBYTES : Nat := 0x180
def evRETRANSMISSIONS : Nat := 0x181
def evCE_MARKED : Nat := 0x182
def evRX_NO_BUFFER : Nat := 0x184
def evPLOTTER_ROWS : Nat := 0x200
def evCOMMITS : Nat := 0x202
def evGRAM_RETRIES : Nat := 0x203
def evHALF_SLEW : Nat := 0x281
def evDROOPS : Nat := 0x283

/-! ### Replay (R758) -/

/-- At step 1 of a replay the RETIRED cycles since the release become WASTED, and counters that select MACS_RETIRED go back to
what they were at the release, with the counter that they carry into (R758). -/
def CoreSt.wasteStep (c : CoreSt) (ctl : Nat → Nat) : CoreSt :=
  let n := (c.tally.retired + 2 ^ 48 - c.tallyBase) % 2 ^ 48
  let back (k : Nat) : Bool :=
    (ctlEvent (ctl k) = evMACS && !(k != 0 && ctlChain (ctl (k - 1))))
      || (k != 0 && ctlChain (ctl (k - 1)) && ctlEvent (ctl (k - 1)) = evMACS)
  { c with tally := { c.tally with retired := c.tallyBase, wasted := add48 c.tally.wasted n },
           wrapped := c.wrapped ||| (if c.tally.wasted + n < 2 ^ 48 then 0 else 2 ^ 9),
           counters := (upFrom 0 8).foldl (fun t k => if back k then Tab.set t k (Tab.get 0 c.counterBase k) else t) c.counters }

/-! ### Captures (R760 to R763) -/

/-- The counts of a block at a capture (R761). -/
def State.captureOf (s : State) (b seq : Nat) : Capture :=
  if b < 1344 then
    let c := s.core b
    { counters := c.counters, tally := c.tally, wrapped := c.wrapped, seq := seq }
  else
    let k := Tab.get BlockCounts.zero s.gaz.blocks b
    { counters := k.counters, tally := { SlotTally.zero with cycles := k.cycles }, wrapped := k.wrapped, seq := seq }

/-- The sheet of a block, for darkness; ports and stacks stand on their own sheets (R763). -/
def blockSheet (b : Nat) : Nat :=
  if b < 1344 then sheetOf b else if b < 2688 then sheetOf (b - 1344) else if b < 2732 then stackSheet (b - 2688)
  else if b < 2764 then groupSheet ((b - 2732) / 8) else if b < 2820 then b - 2764 else b - 2820

/-- A dark block, or a router that is down, does not capture (R763). -/
def State.captures (s : State) (b : Nat) : Bool :=
  !s.wafer.dark.contains (blockSheet b) && !(1344 ≤ b && b < 2688 && s.wafer.routerDown.contains (b - 1344))

/-- A block copies its counts into the bank of a capture's kind (R761, R762). -/
def State.captureBlock (s : State) (b : Nat) (interval : Bool) (seq : Nat) : State :=
  if !s.captures b then s
  else
    let c := s.captureOf b seq
    if interval then { s with gaz := { s.gaz with intBank := Tab.set s.gaz.intBank b c } }
    else { s with gaz := { s.gaz with stepBank := Tab.set s.gaz.stepBank b c } }

/-- Difference of two tallies. -/
def SlotTally.sub (a b : SlotTally) : SlotTally :=
  let d (x y : Nat) : Nat := (x + 2 ^ 48 - y) % 2 ^ 48
  { retired := d a.retired b.retired, wasted := d a.wasted b.wasted, starvedFront := d a.starvedFront b.starvedFront,
    starvedBack := d a.starvedBack b.starvedBack, cycles := d a.cycles b.cycles }

def SlotTally.plus (a b : SlotTally) : SlotTally :=
  { retired := a.retired + b.retired, wasted := a.wasted + b.wasted, starvedFront := a.starvedFront + b.starvedFront,
    starvedBack := a.starvedBack + b.starvedBack, cycles := a.cycles + b.cycles }

/-- A sweep of a kind that GAZ_MODE selects is due; one still due loses its record (R764, R765). -/
def GazSt.due (g : GazSt) (w : CapSweep) : GazSt :=
  if (g.mode = 0 && w.kind != 1) || (g.mode = 1 && w.kind = 1) then
    { g with sweep := some w, missed := if g.sweep.isSome then satAdd16 g.missed 1 else g.missed }
  else g

/-- A step capture message goes to every block (R760); `kind` 2 at a job stop. At a step boundary SLOT_ACCOUNT takes the difference to
the boundary before (R759). -/
def State.sendCapture (s : State) (kind step attempt : Nat) (boundary : Bool) : State :=
  let g : GazSt := s.gaz
  let n : Nat := g.stepSeq
  let acct := if !boundary then g.account else s.mapped.foldl (fun a m => a.plus ((s.core m).tally.sub (Tab.get .zero g.lastTally m))) SlotTally.zero
  let tallies : Tab SlotTally := if !boundary then g.lastTally else s.cores.map (fun p => (p.1, p.2.tally))
  let g1 : GazSt := ⟨g.mode, g.interval, g.producer, g.consumer, g.overruns, g.control, g.blocks, g.stepBank, g.intBank,
    g.msgs ++ [⟨false, n, []⟩], g.sweep, (n + 1) % 2 ^ 32, g.intSeq, g.missed, acct, tallies, g.lastRecord, g.intervalAt⟩
  { s with gaz := g1.due { kind := kind, step := step, attempt := attempt, time := s.micros, epoch := s.wafer.legendEpoch,
                           seq := n } }

/-- A block has had a message. -/
def State.hadMessage (s : State) (p : CapMsg → Bool) (l : List Nat) : State :=
  let msgs := s.gaz.msgs.map (fun x => if p x then { x with reached := l.filter (fun b => !x.reached.contains b) ++ x.reached } else x)
  { s with gaz := { s.gaz with msgs := msgs.filter (fun x => x.reached.length < numBlocks) } }

/-- The latest step capture message reaches the cores that are released now, before their queues release (R760, R761). -/
def State.captureAtRelease (s : State) (l : List Nat) : State :=
  match (s.gaz.msgs.filter (fun m => !m.interval)).getLast? with
  | none => s
  | some m => (l.foldl (fun t b => t.captureBlock b false m.seq) s).hadMessage (fun x => !x.interval) l

end Sys2Proof.Machine
end

