-- ==== Sys2Proof/Machine/RouteOps.lean ====
section
/-!
DEFINITION. Routes over the mesh and the neat line (R370, R377 to R388): next-hop and target tables, packets and the way they take,
the distance table (R59 to R63, R392 to R394), re-placement (R53 to R57) and sheets that go dark (R387, R649).
-/

namespace Sys2Proof.Machine

/-! ### The mesh as it stands -/

def State.link (s : State) (l : Nat) : LinkSt := Tab.get .up s.fabric.links l
def State.setLink (s : State) (l : Nat) (x : LinkSt) : State :=
  { s with fabric := { s.fabric with links := Tab.set s.fabric.links l x } }

/-- Link identifiers that are down. -/
def State.linksDown (s : State) : List Nat := (s.fabric.links.filter (fun p => p.2.st = .down)).map (fun p => p.1)

/-- Spares of a link direction (R372). -/
def numSpares : Nat := 128

/-- A failed data wire takes the lowest free spare, if one is left (R372, R373). -/
def LinkSt.steer (x : LinkSt) (w : Nat) : Option LinkSt :=
  if x.wires.any (fun p => p.1 = w) then some x
  else ((upFrom 0 numSpares).find? (fun k => !x.wires.any (fun p => p.2 = k))).map (fun k => { x with wires := x.wires ++ [(w, k)] })

/-- Every failed data wire of a list takes a spare, or the failed wires outnumber the spares (R376). -/
def LinkSt.steerAll (x : LinkSt) (l : List Nat) : Option LinkSt := l.foldl (fun a w => a.bind (fun y => y.steer w)) (some x)

def State.mesh (s : State) : Mesh := { downRouters := s.wafer.routerDown, downLinks := s.linksDown }

/-- A link direction goes down (R376, R377). -/
def State.linkDown (s : State) (l : Nat) : State := s.setLink l { s.link l with st := .down }

/-- Counts of a router (R395). -/
def State.routerCount (s : State) (n : Nat) (f : RouterCounts → RouterCounts) : State :=
  { s with fabric := { s.fabric with counts := Tab.upd .zero s.fabric.counts n f } }

/-- An entry without a route (R60). -/
def noDistance : Nat := 0xFF00FFFF

/-- Routers are marked ROUTER_DOWN; their rows of the distance table hold no route at once, as estimates (R62, R63, R387). -/
def WaferSt.markRouters (w : WaferSt) (l : List Nat) : WaferSt :=
  let new := (l.eraseDups).filter (fun n => !w.routerDown.contains n)
  { w with routerDown := w.routerDown ++ new
           distance := new.foldl (fun d n => (upFrom (48 * n) 48).foldl (fun d i => Tab.set d i (noDistance + 2 ^ 18)) d) w.distance }

def State.markRouters (s : State) (l : List Nat) : State := { s with wafer := s.wafer.markRouters l }

/-- Channels of a neat line segment that are up in a direction, of 8 (R369, R511). -/
def State.neatUp (s : State) (k d : Nat) : List Nat := (upFrom 0 8).filter (fun c => (s.link (neatLink k d c)).st != .down)

/-- A neat line segment has no channel up in one of its directions (R511). -/
def State.segmentDown (s : State) (k : Nat) : Bool := (s.neatUp k 0).isEmpty || (s.neatUp k 1).isEmpty

/-! ### Tables (R378, R383) -/

/-- An entry without a route: PRIMARY and ESCAPE 0b111. -/
def noHop : Nat := 0xFC
/-- A target entry without a route: ENTRY 0b11111. -/
def noTarget : Nat := 0xF800

def hopPrimary (w : Nat) : Nat := field w 5 3
def hopEscape (w : Nat) : Nat := field w 2 3
def targetEntry (w : Nat) : Nat := field w 11 5
def targetAttach (w : Nat) : Nat := field w 0 11

def Routing.hop (r : Routing) (n d : Nat) : Nat := Tab.get noHop r.nextHop (1344 * n + d)

/-- The ports of router n on a shortest path to the router whose distances are given. -/
def Mesh.shortest (m : Mesh) (dist : Tab Nat) (n : Nat) : List Nat :=
  match Tab.find dist n with
  | none => []
  | some x => (upFrom 0 4).filter (fun d =>
      match m.step n d with
      | some k => decide ((Tab.find dist k).map (fun y => y + 1) = some x)
      | none => false)

/-- PRIMARY of router n toward router d; which of several shortest-path ports is firmware's choice (notes/assumptions/14.md). -/
def Mesh.primary (m : Mesh) (dist : Tab Nat) (n d : Nat) : Nat :=
  if !m.routerUp n || !m.routerUp d then 7
  else if n = d then 4
  else
    let c := m.shortest dist n
    c.getD (Config.pickPort n d c.length % max 1 c.length) 7

/-- The next-hop tables of every router (R378 to R380). -/
def Mesh.hopTable (m : Mesh) : Tab Nat :=
  let ds := (upFrom 0 numCores).map (fun d => (d, m.dists d))
  let t := m.tree
  (upFrom 0 numCores).flatMap (fun n => ds.map (fun p =>
    (1344 * n + p.1, if m.routerUp n then 32 * m.primary p.2 n p.1 + 4 * escapePort t n p.1 else noHop)))

/-- The way from router n to router d along PRIMARY ports: mesh links and sheet boundary crossings, or the router at which there is
no route. -/
def walk (hop : Nat → Nat → Nat) : Nat → Nat → Nat → Sum Nat (Nat × Nat)
  | 0, n, _ => .inl n
  | f + 1, n, d =>
    if n = d then .inr (0, 0)
    else
      let p := hopPrimary (hop n d)
      match if p < 4 then neighbour n p else none with
      | none => .inl n
      | some k =>
        match walk hop f k d with
        | .inl x => .inl x
        | .inr (l, b) => .inr (l + 1, if sheetOf n = sheetOf k then b else b + 1)

def Routing.path (r : Routing) (n d : Nat) : Option (Nat × Nat) :=
  match walk r.hop numCores n d with
  | .inr x => some x
  | .inl _ => none

/-- The segments that a packet crosses, each with its sub-channel: 0, and 1 once it has crossed segment 25 (R370). -/
def subChannels : Nat → List Nat → List (Nat × Nat)
  | _, [] => []
  | c, k :: l => (k, c) :: subChannels (if k = 25 then 1 else c) l

/-- The way on the neat line from station a to station b: the shorter way around the ring, ascending when both are 13; the other way
when a segment without a channel lies on it (R370, R511). -/
def neatTrack (dead : Nat → Bool) (a b : Nat) : Option (List (Nat × Nat)) :=
  let n := (b + 26 - a) % 26
  let up := (upFrom 0 n).map (fun i => (a + i) % 26)
  let down := if n = 0 then [] else (upFrom 0 (26 - n)).map (fun i => (a + 25 - i) % 26)
  let ways := (if n ≤ 13 then [up, down] else [down, up]).filter (fun w => !w.any dead)
  (ways.head?).map (subChannels 0)

/-- Neat line segments of that way. -/
def neatDist (dead : Nat → Bool) (a b : Nat) : Option Nat := (neatTrack dead a b).map (fun l => l.length)

/-- Virtual channels that the neat line carries (R369). -/
def neatCarries (vc : Nat) : Bool := [0, 1, 3, 4].contains vc

/-- A way by a station: its ring number, attachment router, mesh links, boundary crossings and segments. -/
structure Way where
  entry : Nat
  attach : Nat
  links : Nat
  crossings : Nat
  segments : Nat
  deriving DecidableEq, Repr

/-- Cost of R384. -/
def Way.cost (penalty : Nat) (w : Way) : Nat := 4 * w.links + w.crossings + (8 + penalty) * w.segments

def cheaper (penalty : Nat) (a : Option Way) (b : Way) : Option Way :=
  match a with
  | none => some b
  | some x => if b.cost penalty < x.cost penalty then some b else some x

/-- The least-cost station and attachment router between a router and a station (R384); `att` gives the attachment routers of a
station, `path` the mesh part between the router and one of them. Ties go to the station itself, then the lower ring number, then the lower router number. -/
def bestWay (att : Nat → List Nat) (path : Nat → Option (Nat × Nat)) (dead : Nat → Bool) (penalty home : Nat) : Option Way :=
  (home :: (upFrom 0 numStations).filter (fun k => k != home)).foldl (fun a e =>
    match neatDist dead e home with
    | none => a
    | some g => ((att e).mergeSort (fun x y => x ≤ y)).foldl (fun a x =>
        match path x with
        | none => a
        | some p => cheaper penalty a ⟨e, x, p.1, p.2, g⟩) a) none

def targetWord : Option Way → Nat
  | none => noTarget
  | some w => 2048 * w.entry + w.attach

/-- The tables of a mesh (step 3 of R389). -/
def Mesh.routing (m : Mesh) (dead : Nat → Bool) (penalty : Nat) : Routing :=
  let r : Routing := { Routing.empty with nextHop := m.hopTable }
  let up (n : Nat) (w : Nat) : Nat := if m.routerUp n then w else noTarget
  { r with
    target := (upFrom 0 numCores).flatMap (fun n => (upFrom 0 48).map (fun t =>
      (48 * n + t, up n (targetWord (bestWay m.attached (fun a => r.path n a) dead penalty (targetStation t))))))
    station := (upFrom 0 numStations).flatMap (fun k => (upFrom 0 numCores).map (fun n =>
      (1344 * k + n, up n (targetWord (bestWay m.attached (fun a => r.path a n) dead penalty k))))) }

/-- The router at which a packet between two cores finds no route (R386), if there is one. -/
def State.dropAt (s : State) (n d : Nat) : Option Nat :=
  match walk s.fabric.routing.hop numCores n d with
  | .inl x => some x
  | .inr _ => none

/-! ### Packets (R358, R359, R379 to R382, R386, R388) -/

/-- Data bytes of a full packet: 32 flits of 256 (R358, R359). -/
def packetBytes : Nat := 8192

/-- The packets of a transfer's data (R359); a transfer without data is one packet. -/
def packetData (l : List Byte) : List (List Byte) := if l.isEmpty then [[]] else chunks packetBytes l

/-- Sources that number their packets: cores, then stations (R381). -/
def stationSource (k : Nat) : Nat := numCores + k

/-- Packets with the given data that enter the mesh at router `here`, numbered on from the last of their source and channel (R381). -/
def State.packets (s : State) (src vc here dst : Nat) (track : List (Nat × Nat)) (l : List (List Byte)) : List Packet :=
  let q := Tab.get 0 s.fabric.seqNo (5 * src + vc)
  (l.zip (upFrom 0 l.length)).map (fun x =>
    { vc := vc, escape := false, seq := (q + x.2) % 1024, dst := dst, flits := max 1 (ceilDiv x.1.length 256),
      last := decide (x.2 + 1 = l.length), here := here, hops := 0, crc := (chunks 256 x.1).map crc32, track := track })

/-- The next numbers of a source and channel. -/
def State.numbered (s : State) (src vc n : Nat) : State :=
  { s with fabric := { s.fabric with seqNo := Tab.upd 0 s.fabric.seqNo (5 * src + vc) (fun q => (q + n) % 1024) } }

/-- A packet without a route is discarded at a router and counted there (R386). -/
def State.discarded (s : State) (x n : Nat) : State := s.routerCount x (fun c => { c with noRoute := satAdd32 c.noRoute n })


/-- The routers of the way from n to d along the ports that `port` takes from the next-hop entries, both included, as far as there is a
route. -/
def wayRouters (port : Nat → Nat) (hop : Nat → Nat → Nat) : Nat → Nat → Nat → List Nat
  | 0, n, _ => [n]
  | f + 1, n, d =>
    if n = d then [n]
    else
      match if port (hop n d) < 4 then neighbour n (port (hop n d)) else none with
      | none => [n]
      | some k => n :: wayRouters port hop f k d

def State.wayFrom (s : State) (n d : Nat) : List Nat := wayRouters hopPrimary s.fabric.routing.hop numCores n d

/-- The routers that still send a packet on, the last to a core or a station (R379). -/
def State.wayLeft (s : State) (p : Packet) : List Nat :=
  if p.escape then wayRouters hopEscape s.fabric.routing.hop numCores p.here p.dst else s.wayFrom p.here p.dst

/-- Routers send the flits of a packet on, on its channel and sub-channel (R756). -/
def State.flitsOut (s : State) (p : Packet) (l : List Nat) : State :=
  l.foldl (fun t n => t.count (blkRouter n) evFLITS_OUT (2 ^ p.vc + (if p.escape then 64 else 32)) 1 p.flits) s

/-- Packets have come to the end of their ways. -/
def State.landed (s : State) (l : List Packet) : State := l.foldl (fun t p => t.flitsOut p (t.wayLeft p)) s

/-- Packets with the given data go all their way in this command. -/
def State.carried (s : State) (src vc here dst : Nat) (l : List (List Byte)) : State :=
  (s.numbered src vc l.length).landed (s.packets src vc here dst [] l)

/-- Next-hop entries on a way that hold single-bit errors are corrected as packets pass (R388). -/
def State.passes (s : State) (n d : Nat) : State :=
  if s.fabric.tableErr.isEmpty then s else (s.wayFrom n d).foldl (fun t x => t.tableRead (.nextHop x d)) s

/-- Packets between two cores go out, or are discarded and counted where their route ends (R386). -/
def State.routed (s : State) (n d count : Nat) (go : State → State) : State :=
  let s := s.passes n d
  match s.dropAt n d with
  | none => go s
  | some x => s.discarded x count

/-- The station port by which a router delivers its next packet to its station: with two, they alternate (R382). -/
def State.toStation (s : State) (n count : Nat) : State :=
  if ((upFrom 0 numStations).any (fun k => (attachLinks k).contains (n, 6))) then
    { s with fabric := { s.fabric with band := Tab.upd 0 s.fabric.band n (fun b => (b + count) % 2) } }
  else s

/-- Packets from a core to the station of a column of its target table (R382, R383): they go out with the neat line segments that they
cross, or are discarded where their route ends (R386). -/
def State.toTarget (s : State) (n t vc count : Nat) (go : Nat → List (Nat × Nat) → State → State) : State :=
  let s := s.tableRead (.target n t)
  let w := Tab.get noTarget s.fabric.routing.target (48 * n + t)
  if targetEntry w ≥ numStations then s.discarded n count
  else
    match neatTrack s.segmentDown (targetEntry w) (targetStation t) with
    | none => s.discarded (targetAttach w) count
    | some track =>
      if !track.isEmpty && !neatCarries vc then s.discarded (targetAttach w) count
      else s.routed n (targetAttach w) count (fun u => go (targetAttach w) track (u.toStation (targetAttach w) count))

/-- A station has a way to a core, by its own table (R383). -/
def State.stationWay (s : State) (k n : Nat) : Option (Nat × List (Nat × Nat)) :=
  let w := Tab.get noTarget s.fabric.routing.station (1344 * k + n)
  if targetEntry w ≥ numStations then none
  else (neatTrack s.segmentDown k (targetEntry w)).map (fun l => (targetAttach w, l))

/-- Packets from a station to a core (R383, R386); without an entry they stay at the station, where no router counts them. -/
def State.fromStation (s : State) (k n count : Nat) (go : Nat → List (Nat × Nat) → State → State) : State :=
  let s := s.tableRead (.station k n)
  match s.stationWay k n with
  | none => s
  | some x => s.routed x.1 n count (go x.1 x.2)

/-- A transfer between two stations goes by the neat line in packets of its own on a channel (R359, R361); what it brings is there at once, and
without a way on the ring it takes the mesh (DESIGN CHOICE: notes/assumptions/37.md). -/
def State.ferry (s : State) (a b vc bytes : Nat) : State :=
  if a = b then s else s.numbered (stationSource a) vc (max 1 (ceilDiv bytes packetBytes))

/-- The station of a port group (R366). -/
def groupStation (g : Nat) : Nat := targetStation (44 + g)

/-- Data that a port group has received goes to a stack, or a stack's data to a port group, on VC4. -/
def State.ferryIn (s : State) (g k bytes : Nat) : State := s.ferry (groupStation g) (targetStation k) 4 bytes
def State.ferryOut (s : State) (g k bytes : Nat) : State := s.ferry (targetStation k) (groupStation g) 4 bytes

/-! ### Arrival at a CORE port (R381) -/

/-- Places of a CORE port for early packets of one channel. -/
def reorderPlaces : Nat := 32

/-- The packets that stand in the input buffer take the places that are free. -/
def refill {α : Type} (place : α → PktPlace) (setPlace : PktPlace → α → α) (port : α → Bool) : Nat → List α → List α
  | _, [] => []
  | free, x :: l =>
    if port x && place x = .buffered && free > 0 then setPlace .early x :: refill place setPlace port (free - 1) l
    else x :: refill place setPlace port free l

/-- The nth of the elements that meet a condition is changed. -/
def setNth {α : Type} (mine : α → Bool) (f : α → α) : Nat → List α → List α
  | _, [] => []
  | n, x :: l =>
    if mine x then (match n with | 0 => f x :: l | k + 1 => x :: setNth mine f k l) else x :: setNth mine f n l

/-- The nth packet of a flow, in the order in which its source sent them, arrives at its CORE port. In order, it is written with the held
packets that follow it; early, it takes one of the port's places, or waits in its input buffer when they are full (R381). The answer: the
packets that remain, those that are written, and whether this one waits. -/
def arrive {α : Type} [BEq α] (place : α → PktPlace) (setPlace : PktPlace → α → α) (flow port : α → Bool) (nth : Nat) (l : List α) :
    List α × List α × Bool :=
  let mine := l.filter flow
  match mine[nth]? with
  | none => (l, [], false)
  | some x =>
    if place x != .flying then (l, [], false)
    else
      let held := (l.filter (fun y => port y && place y = .early)).length
      if nth = 0 then
        let out := x :: (mine.drop 1).takeWhile (fun y => place y != .flying)
        let rest := out.foldl List.erase l
        (refill place setPlace port (reorderPlaces - (rest.filter (fun y => port y && place y = .early)).length) rest, out, false)
      else if held < reorderPlaces then (setNth flow (setPlace .early) nth l, [], false)
      else (setNth flow (setPlace .buffered) nth l, [], true)

/-- A packet waits in its input buffer for a place (R381, R395). -/
def State.reorderWait (s : State) (n : Nat) (waits : Bool) : State :=
  if waits then s.routerCount n (fun c => { c with reorderWaits := satAdd32 c.reorderWaits 1 }) else s

/-! ### The distance table (R59 to R63, R392 to R394) -/

/-- The way of a core to a target on the current tables. -/
def State.wayOf (s : State) (n t : Nat) : Option Way :=
  let w := Tab.get noTarget s.fabric.routing.target (48 * n + t)
  if targetEntry w ≥ numStations then none
  else
    match s.fabric.routing.path n (targetAttach w), neatDist s.segmentDown (targetEntry w) (targetStation t) with
    | some p, some g => some ⟨targetEntry w, targetAttach w, p.1, p.2, g⟩
    | _, _ => none

/-- The way by which the station of a target returns a probe, on its own table (R383, R392). -/
def State.wayBack (s : State) (n t : Nat) : Option Way :=
  let k := targetStation t
  match s.stationWay k n with
  | none => none
  | some x => (s.fabric.routing.path x.1 n).map (fun p =>
      ⟨targetEntry (Tab.get noTarget s.fabric.routing.station (1344 * k + n)), x.1, p.1, p.2, x.2.length⟩)

/-- HOPS: mesh links, the attachment link and neat line segments (R60, R393). More than 254 read as 254
(DESIGN CHOICE: notes/assumptions/14.md). -/
def Way.hops (w : Way) : Nat := min 254 (w.links + 1 + w.segments)

/-- One-way idle latency 4M + B + 10 + 8S (R360, R394). -/
def Way.latency (w : Way) : Nat := 4 * w.links + w.crossings + 10 + 8 * w.segments

/-- HOPS of the same core and target with every router taken as up and links that are down absent (R394). -/
def State.referenceHops (s : State) (n t : Nat) : Nat :=
  let m : Mesh := { downRouters := [], downLinks := s.linksDown }
  let hop (x d : Nat) : Nat := 32 * m.primary (m.dists d) x d
  match bestWay m.attached (fun a => match walk hop numCores n a with | .inr p => some p | .inl _ => none) s.segmentDown s.fabric.neatPenalty
    (targetStation t) with
  | some w => w.hops
  | none => 255

/-- A distance table entry on a way, with a latency (R60). -/
def State.entryOn (s : State) (n t : Nat) (w : Way) (estimated : Bool) (latency : Nat) : Nat :=
  2 ^ 24 * w.hops + (if estimated then 2 ^ 18 else 0) + (if w.hops > s.referenceHops n t then 2 ^ 17 else 0)
    + (if w.segments ≥ 1 then 2 ^ 16 else 0) + min 65535 latency

/-- A measured entry: the probe goes out and its echo returns, and half of the round trip, rounded up, is the latency (R392, R393);
without either way, or at a router that is down, there is no route (R63). -/
def State.distanceEntry (s : State) (n t : Nat) : Nat :=
  if s.wafer.routerDown.contains n then noDistance
  else
    match s.wayOf n t, s.wayBack n t with
    | some w, some b => s.entryOn n t w false (ceilDiv (w.latency + b.latency) 2)
    | _, _ => noDistance

/-- An estimated entry: its latency is that of the way out (R62, R394). -/
def State.estimatedEntry (s : State) (n t : Nat) : Nat :=
  match if s.wafer.routerDown.contains n then none else s.wayOf n t with
  | none => noDistance + 2 ^ 18
  | some w => s.entryOn n t w true w.latency

/-- The measured table (R61, R392, R393). -/
def State.measure (s : State) : State :=
  { s with wafer := { s.wafer with
      distance := (upFrom 0 numCores).flatMap (fun n => (upFrom 0 48).map (fun t => (48 * n + t, s.distanceEntry n t)))
      measureCount := s.wafer.measureCount + 1 } }

/-- The table after a routing reload: entries that the new tables change are estimates (R62). -/
def State.estimate (s : State) : State :=
  { s with wafer := { s.wafer with
      distance := (upFrom 0 numCores).flatMap (fun n => (upFrom 0 48).map (fun t =>
        let old := Tab.get noDistance s.wafer.distance (48 * n + t)
        (48 * n + t, if old = s.distanceEntry n t then old else s.estimatedEntry n t))) } }

/-! ### Reserves and re-placement (R45, R53 to R57) -/

/-- The cores of a sheet in the order in which reserves are made (R45). -/
def reserveOrder (sheet : Nat) : List Nat :=
  let first := [8, 9, 14, 15]
  (first ++ (upFrom 0 24).filter (fun i => !first.contains i)).map (coreOfSheet sheet)

/-- A batch's changes of the legend as they are made up: logical map, core states, reserves picked with the logical core and the core
whose failure they answer, logical cores that move, cores fenced, sheets short of a reserve, and whether a failed core found none. -/
structure Placing where
  logical : List (Nat × Nat)
  coreState : Tab CoreState
  picked : List (Nat × Nat × Nat)
  moved : List Nat
  fenced : List Nat
  shortSheets : List Nat
  unplaced : Bool
  deriving DecidableEq, Repr

def Placing.stateOf (p : Placing) (n : Nat) : CoreState := Tab.get .unused p.coreState n
def Placing.setState (p : Placing) (n : Nat) (x : CoreState) : Placing := { p with coreState := Tab.set p.coreState n x }
def Placing.fence (p : Placing) (n : Nat) : Placing := { p.setState n .fenced with fenced := p.fenced ++ [n] }

/-- A reserve of a sheet is made, when the sheet has an UNUSED good core (R45, R56). -/
def Placing.makeReserve (p : Placing) (sheet : Nat) : Placing :=
  match (reserveOrder sheet).find? (fun n => decide (p.stateOf n = .unused)) with
  | some n => p.setState n .reserve
  | none => { p with shortSheets := p.shortSheets ++ [sheet] }

/-- Links from a failed core to another on the tables of a mesh (R54). -/
def Mesh.linksTo (m : Mesh) (failed n : Nat) : Option Nat :=
  if m.routerUp failed then Tab.find (m.dists failed) n
  else
    let ups := ((upFrom 0 4).filterMap (neighbour failed)).filter m.routerUp
    if ups.isEmpty then some (manhattan failed n)
    else ((ups.filterMap (fun u => Tab.find (m.dists u) n)).min?).map (fun x => x + 1)

/-- The reserve for a failed core: of its own sheet when that holds one, the fewest links away, the lower number (R54). -/
def Placing.select (p : Placing) (m : Mesh) (dark : List Nat) (failed : Nat) : Option Nat :=
  let rs := ((upFrom 0 numCores).filter (fun n => decide (p.stateOf n = .reserve) && !dark.contains (sheetOf n)))
  let near (l : List Nat) : Option (Nat × Nat) := l.foldl (fun a n =>
    match m.linksTo failed n, a with
    | some d, some x => if d < x.1 then some (d, n) else some x
    | some d, none => some (d, n)
    | none, _ => a) none
  match near (rs.filter (fun n => sheetOf n = sheetOf failed)) with
  | some x => some x.2
  | none => (near rs).map (fun x => x.2)

/-- A logical core of a failed core is placed on a reserve (R54, R55). -/
def Placing.place (p : Placing) (m : Mesh) (dark : List Nat) (l failed moves : Nat) : Placing :=
  match p.select m dark failed with
  | none => { p with unplaced := true, moved := p.moved.filter (fun x => x != l) }
  | some n =>
    let p := p.setState n .mapped
    { p with logical := p.logical.set l (n, moves), picked := p.picked ++ [(n, l, failed)],
             moved := p.moved.filter (fun x => x != l) ++ [l] }

/-- A failed core of a batch, in the order of detection (R54 to R57). -/
def Placing.fail (p : Placing) (m : Mesh) (dark : List Nat) (n : Nat) : Placing :=
  match p.picked.find? (fun x => x.1 = n) with
  | some x =>
    let q := { p.fence n with picked := p.picked.filter (fun y => y.1 != n) }
    q.place m dark x.2.1 x.2.2 (p.logical.getD x.2.1 (0, 0)).2
  | none =>
    match p.stateOf n with
    | .reserve => (p.fence n).makeReserve (sheetOf n)
    | .mapped =>
      match (p.logical.map (fun x => x.1)).findIdx? (fun x => x = n) with
      | some l => (p.fence n).place m dark l n (min 255 ((p.logical.getD l (0, 0)).2 + 1))
      | none => p.fence n
    | .unused => p.fence n
    | .fenced => p
    | .defective => p

/-! ### Sheets that go dark -/

/-- LEGEND_EPOCH goes up by one (R52). -/
def State.nextEpoch (s : State) : State := { s with wafer := { s.wafer with legendEpoch := (s.wafer.legendEpoch + 1) % 2 ^ 32 } }

/-- Routers stop forwarding outside of a routing reload: they are marked, with one legend change when any of them was not (R52, R387). -/
def State.routersFail (s : State) (l : List Nat) : State :=
  if l.all (fun n => s.wafer.routerDown.contains n) then s else (s.markRouters l).nextEpoch

/-- A sheet loses its power: its cores are DARK, its routers down, in one legend change (R50, R52, R387, R649). -/
def State.darken (s : State) (sheet : Nat) : State :=
  if s.wafer.dark.contains sheet then s
  else
    let s := s.markRouters (sheetCores sheet)
    { s with wafer := { s.wafer with dark := s.wafer.dark ++ [sheet] } }.nextEpoch

end Sys2Proof.Machine
end

