-- ==== Sys2Proof/Machine/Survey.lean ====
section
/-!
DEFINITION. The survey (R35 to R41, R793), good and mappable cores (R43, R44, R797) and identifiers of regulators (R650, R651).
-/

namespace Sys2Proof.Machine

/-! ### Regulator identifiers (R650, R651) -/

def regKind (r : Nat) : Nat := field r 28 4
def regIndex (r : Nat) : Nat := field r 0 16

/-- Regulators of each kind: stage-1 converters, core logic, core array, sheet fabric, stack and port regions. -/
def regCount (kind : Nat) : Nat :=
  if kind = 0 then 224 else if kind = 1 ∨ kind = 2 then 1344 else if kind = 3 then 56 else if kind = 4 then 44
  else if kind = 5 then 32 else 0

/-- The identifier names a regulator or converter. -/
def regExists (r : Nat) : Bool := decide (r < 2 ^ 32) && field r 16 12 = 0 && decide (regIndex r < regCount (regKind r))

/-! ### Survey records (R38 to R40) -/

/-- A survey record: type and bytes, header included. -/
structure SurveyRec where
  type : Nat
  len : Nat
  data : List Byte
  deriving DecidableEq, Repr

/-- Records from an offset, as many as the header counts; none when one runs past the end (R793). -/
def surveyRecs (b : List Byte) (total : Nat) : Nat → Nat → Option (List SurveyRec × Nat)
  | 0, o => some ([], o)
  | n + 1, o =>
    let len := leAt b (o + 2) 2
    if len < 4 || o + len > total then none
    else
      match surveyRecs b total n (o + len) with
      | none => none
      | some r => some ({ type := leAt b o 1, len := len, data := slice b o len } :: r.1, r.2)

/-- Shortest LENGTH of a record of a known type; 0 for others (R793). -/
def surveyMin (t : Nat) : Nat := if t = 1 then 8 else if t = 2 then 10 else if t = 3 then 12 else if t = 4 then 12 else 0

/-- The fields of a record of a known type lie in their ranges (R39, R793). -/
def SurveyRec.ok (r : SurveyRec) : Bool :=
  let f (o n : Nat) : Nat := leAt r.data o n
  r.len ≥ surveyMin r.type &&
  (if r.type = 1 then f 4 2 < numCores && (f 6 1 = 1 || f 6 1 = 2)
   else if r.type = 2 then meshLink (f 4 2) && f 6 2 < 2048 && f 8 1 < 128
   else if r.type = 3 then f 4 2 < numCores && f 6 1 ≤ 0x22
   else if r.type = 4 then regExists (f 4 4)
   else true)

structure SurveyInfo where
  cores : List Nat
  /-- spare-wire assignments: link identifier, failed data wire, spare (R39). -/
  wires : List (Nat × Nat × Nat)
  /-- trim codes: regulator identifier and code (R39, R652). -/
  trims : List (Nat × Nat)
  /-- row repairs: core, MEMORY, failed row, spare row (R39). -/
  rows : List (Nat × Nat × Nat × Nat)
  skipped : Nat
  deriving DecidableEq, Repr

/-- The survey, or none when it is malformed (R793). -/
def surveyRead (b : List Byte) : Option SurveyInfo :=
  let total := leAt b 0x10 4
  if slice b 0 4 != ascii "KWSV" || leAt b 4 2 != 1 || leAt b 6 2 != 0xB0 || total < 64 || total > 0x100000 then none
  else
    match surveyRecs b total (leAt b 0x14 4) 0x40 with
    | none => none
    | some r =>
      let cores := r.1.filter (fun x => x.type = 1)
      if r.2 != total || !r.1.all SurveyRec.ok || leAt b 0x18 2 != cores.length then none
      else some { cores := cores.map (fun x => leAt x.data 4 2)
                  wires := (r.1.filter (fun x => x.type = 2)).map (fun x => (leAt x.data 4 2, leAt x.data 6 2, leAt x.data 8 1))
                  trims := (r.1.filter (fun x => x.type = 4)).map (fun x => (leAt x.data 4 4, leAt x.data 8 2))
                  rows := (r.1.filter (fun x => x.type = 3)).map (fun x =>
                    (leAt x.data 4 2, leAt x.data 6 1, leAt x.data 8 2, leAt x.data 10 2))
                  skipped := (r.1.filter (fun x => surveyMin x.type = 0)).length }

def surveyInfo : SurveyInfo := (surveyRead Config.survey).getD ⟨[], [], [], [], 0⟩

/-- WAFER_SERIAL (R38). -/
def waferSerial : Nat := leAt Config.survey 8 8

/-- SURVEY_STATE of this survey (R37, R65, R793): 0 verified, 1 digest mismatch, 2 malformed. -/
def surveyCheck : Nat :=
  let b := Config.survey
  if sha256 (b.take (leAt b 0x10 4)) != Config.surveyDigest then 1
  else if (surveyRead b).isNone then 2 else 0

/-! ### Good cores (R43, R44, R797) -/

/-- Cores with a CORE record or an entry in the field-defect list (R44). -/
def State.defects (s : State) : List Nat := surveyInfo.cores ++ s.wafer.fieldDefects.filter (fun n => !surveyInfo.cores.contains n)

/-- MAPPABLE_CORES (R43, R797); a fenced core without an entry of R44 is among the good cores (DEDUCED: notes/assumptions/25.md). -/
def State.mappable (s : State) : Nat :=
  let bad := s.defects
  let sheets := (upFrom 0 numSheets).filter (fun n => !s.wafer.dark.contains n)
  let good := sheets.foldl (fun a n => a + ((sheetCores n).filter (fun c => !bad.contains c)).length) 0
  good - s.wafer.reserve * sheets.length

/-- A core that no plan may map: defective by R44, fenced or dark (R51). -/
def State.badCore (s : State) (n : Nat) : Bool :=
  s.defects.contains n || s.coreStateOf n = .fenced || s.wafer.dark.contains (sheetOf n)

end Sys2Proof.Machine
end

