-- ==== Sys2Proof/Machine/Fetch.lean ====
section
/-!
DEFINITION. The Fetch engine and the array input: weight tile loads (R263 to R265), windows (R144 to R149, R268 to R273),
operand staging (R67 to R69, R109) and the entry of MMUL rows from it.
-/

namespace Sys2Proof.Machine

/-- A byte of the activation store, addresses modulo 2^25 (R272). -/
def CoreSt.actByte (c : CoreSt) (a : Nat) : Byte := Memory.read c.act (a % actBytes)

/-- `n` bytes of the activation store from address a. -/
def CoreSt.actBytesAt (c : CoreSt) (a n : Nat) : List Byte := (upFrom a n).map c.actByte

/-! ### Weight path -/

/-- The columns of a weight tile image in the stream buffer (R264). -/
def imageCols (m : Memory) (addr form n : Nat) : List (List Byte) :=
  (upFrom 0 n).map (fun j => Memory.readN m (addr + j * columnBytes form) (columnBytes form))

/-- FWGT fills the shadow set (R114, R115, R265) and counts encoding errors (R160, R162). -/
def CoreSt.loadShadow (c : CoreSt) (w : InstrWord) : CoreSt :=
  let f := fwgtF w
  let cols := imageCols c.sbuf f.addr f.form f.n
  let c := { c with shadow := { form := some f.form, n := f.n, cols := cols }, shadowFull := true }
  c.addEnc ((cols.map (encErrors f.form (kT f.form))).foldl (· + ·) 0)

/-- A Plotter FWGT fills the Plotter weight set (R98, R102). -/
def CoreSt.loadPlot (c : CoreSt) (w : InstrWord) : CoreSt :=
  let f := fwgtF w
  let cols := imageCols c.sbuf f.addr f.form f.n
  CoreSt.addEnc { c with plotSet := { form := some f.form, n := f.n, cols := cols } }
    ((cols.map (encErrors f.form (kT f.form))).foldl (· + ·) 0)

/-- MSWAP makes the shadow set the active set (R70, R119). -/
def CoreSt.swapSets (c : CoreSt) : CoreSt := { c with active := c.shadow, shadow := .blank, shadowFull := false }

/-! ### Windows -/

/-- The address offset of output position `pos` and tap number `tap` over the dimensions, or none for padding (R148). -/
def windowOffset : List Dim → (tap pos : Nat) → Option Nat
  | [], _, _ => some 0
  | d :: l, tap, pos =>
    let i : Int := ((pos % d.out * d.stride + tap % d.taps * d.dilation : Nat) : Int) - (d.pad : Int)
    if i < 0 ∨ i ≥ (d.size : Int) then none
    else (windowOffset l (tap / d.taps) (pos / d.out)).map (fun o => o + i.toNat * d.step)

/-- The code at K position kk of a window (R147, R148, R272), for forms without blocks. -/
def CoreSt.windowCode (c : CoreSt) (d : Desc) (pos kk : Nat) : Nat × Bool :=
  let ch := kk % d.c
  match windowOffset d.dims (kk / d.c) pos with
  | none => (d.padValue, true)
  | some o =>
    let a := d.base + o
    if d.form = 0 then (leNat (c.actBytesAt (a + 2 * ch) 2), false)
    else if d.form = 9 then (field (c.actByte (a + ch / 2)).toNat (4 * (ch % 2)) 4, false)
    else ((c.actByte (a + ch)).toNat, false)

/-- Block b of 32 K positions of a window: codes, scale, pennant, reserved pennant bits, padding (R147, R149, R159). -/
structure WinBlock where
  codes : List Nat
  scale : Nat
  pen : Option (Nat × Nat)
  err : Nat
  pad : Bool
  deriving DecidableEq, Repr

def CoreSt.windowBlock (c : CoreSt) (d : Desc) (pos kk : Nat) : WinBlock :=
  match windowOffset d.dims (kk / d.c) pos with
  | none => { codes := List.replicate 32 d.padValue, scale := 127, pen := none, err := 0, pad := true }
  | some o =>
    let b := c.actBytesAt (d.base + o + kk % d.c / 32 * blockBytes d.form) (blockBytes d.form)
    let v := Vec.ofBytes d.form 32 b
    { codes := v.codes, scale := v.scales.getD 0 127, pen := v.pens.getD 0 none, err := encErrors d.form 32 b, pad := false }

/-- The operand row at output position `pos`: KLEN values from K offset k0 (R270), its encoding errors, and whether all of
it is padding: such a row of an FCONV is wasted, also where K is above KLEN (R757, R792; DEDUCED: notes/assumptions/36.md). -/
def CoreSt.windowRow (c : CoreSt) (d : Desc) (pos k0 klen : Nat) : Vec × Nat × Bool :=
  if isBlockForm d.form then
    let bs := (upFrom 0 (ceilDiv klen 32)).map (fun b => c.windowBlock d pos (k0 + 32 * b))
    ({ form := d.form, codes := ((bs.map (fun b => b.codes)).flatten).take klen, scales := bs.map (fun b => b.scale),
       pens := bs.map (fun b => b.pen) },
      (bs.map (fun b => b.err)).foldl (· + ·) 0, bs.all (fun b => b.pad) && klen != 0)
  else
    let cs := (upFrom 0 klen).map (fun k => c.windowCode d pos (k0 + k))
    ({ form := d.form, codes := cs.map (fun p => p.1), scales := [], pens := [] }, 0,
      cs.all (fun p => p.2) && klen != 0)

/-! ### Activation path -/

/-- The descriptor as FLOAD or FCONV evaluates it (R271). -/
def FloadRun.descriptor (r : FloadRun) : Desc :=
  if opcodeOf r.word = 0x10 then (descOf r.desc).forLoad else descOf r.desc

/-- Activation rows of one staging slot (128 staging rows, R68, R122). -/
def slotSpan (pack : Bool) : Nat := if pack then 256 else 128

/-- The next slot of an activation-path operation and the operation afterwards; none when its last row is in staging. -/
def CoreSt.fillSlot (c : CoreSt) (r : FloadRun) : CoreSt × Option FloadRun :=
  let f := floadF r.word
  let d := r.descriptor
  let n := min (slotSpan f.pack) (f.m - r.row)
  let rows : List (Vec × Nat × Bool) := (upFrom (f.m0 + r.row) n).map (fun pos => c.windowRow d pos f.k0 f.klen)
  let slot : Slot := { form := d.form, packed := f.pack, rows := rows.map (fun x => x.1), pads := rows.map (fun x => x.2.2) }
  let c := CoreSt.addEnc { c with staging := c.staging ++ [slot] } ((rows.map (fun x => x.2.1)).foldl (· + ·) 0)
  (c, if r.row + n < f.m then some { r with row := r.row + n } else none)

/-- Marks the operation of a queue with key `k` finished. -/
def Queue.finish (q : Queue) (op : Nat → Bool) (k : Nat) : Queue :=
  { q with ops := q.ops.map (fun o => if op o.opcode && o.key = k && !o.done then { o with done := true } else o) }

def isFloadOp (op : Nat) : Bool := op = 0x10 || op = 0x11

/-- The activation path moves rows until its next slot is not free (R109). -/
def CoreSt.pumpFload (c : CoreSt) : Nat → CoreSt
  | 0 => c
  | fuel + 1 =>
    match c.floadRun with
    | [] => c
    | r :: rest =>
      if c.staging.length ≥ 8 then c
      else
        let x := c.fillSlot r
        match x.2 with
        | some r' => CoreSt.pumpFload { x.1 with floadRun := r' :: rest } fuel
        | none => CoreSt.pumpFload { x.1 with floadRun := rest, fq := x.1.fq.finish isFloadOp r.key } fuel

/-- The weight path loads the shadow set when MSWAP has promoted it (R110). -/
def CoreSt.pumpFwgt (c : CoreSt) : CoreSt :=
  match c.fwgtWait with
  | [] => c
  | (w, k) :: rest =>
    if c.shadowFull then c
    else
      let c := c.loadShadow w
      { c with fwgtWait := rest, fq := c.fq.finish (fun op => op = 0x12) k }

/-! ### Array input -/

/-- What the entry of rows came to. -/
inductive Entry where
  | ok
  | form
  | bad (row pair : Nat)
  deriving DecidableEq, Repr

/-- What the entry of one slot's rows came to: the core, the outcome, how many rows count RETIRED, and whether more can enter. -/
structure Entered where
  core : CoreSt
  entry : Entry
  kept : Nat
  more : Bool
  deriving DecidableEq, Repr

/-- Rows of the running MMUL enter from the first staging slot (R69); the slot is free when its rows are consumed or the
MMUL is complete, and rows that it still holds then are dropped (DESIGN CHOICE: notes/assumptions/34.md). -/
def CoreSt.enterSlot (c : CoreSt) (modes : Nat) : Entered :=
  match c.mmulRun, c.staging with
  | some r, s :: rest =>
    let f := mmulF r.word
    if s.form ≠ f.af then { core := c, entry := .form, kept := 0, more := false }
    else
      let pads := wastedRows (isDouble f.wf f.af) (s.pads.take (f.m - r.row))
      match mmulSlotRows modes f c.active.vecs (s.rows.zip pads) r.row 0 c with
      | (.bad c' row pair, m, k) =>
        { core := { c' with mmulRun := some { r with row := m } }, entry := .bad row pair, kept := k, more := false }
      | (.ok c', m, k) =>
        if m < f.m then { core := { c' with staging := rest, mmulRun := some { r with row := m } }, entry := .ok, kept := k, more := true }
        else
          { core := { c' with staging := rest, mmulRun := none, aq := c'.aq.finish (fun op => op = 0x20) r.key }, entry := .ok, kept := k,
            more := true }
  | _, _ => { core := c, entry := .ok, kept := 0, more := false }

/-- Fetch and the array run as far as staging lets them (R69, R109): the core, the outcome, and the rows that count RETIRED. -/
def CoreSt.pump (modes : Nat) : Nat → (kept : Nat) → CoreSt → CoreSt × Entry × Nat
  | 0, k, c => (c, .ok, k)
  | fuel + 1, k, c =>
    let x := ((c.pumpFload 8).pumpFwgt).enterSlot modes
    if x.more then CoreSt.pump modes fuel (k + x.kept) x.core else (x.core, x.entry, k + x.kept)

/-! ### The Plotter queue's array operations (R98, R102, R103) -/

/-- The Fetch activation path fills the Plotter staging slot, of 128 rows of 256 bytes, when it is free (R103). -/
def CoreSt.fillPlot (c : CoreSt) : CoreSt :=
  match c.plotStaging, c.plotRows with
  | none, x :: rest => { c with plotStaging := some ((x.take 128).map (fun b => b.take 256)), plotRows := rest }
  | _, _ => c

/-- Rows of the running Plotter MMUL enter from the Plotter staging slot. -/
def CoreSt.enterPlot (c : CoreSt) (modes : Nat) : Entered :=
  match c.plotRun, c.plotStaging with
  | some r, some s =>
    let f := mmulF r.word
    let l := (s.take (f.m - r.row)).map (fun b => (Vec.ofBytes f.af (kT f.wf) b, false))
    match mmulSlotRows modes f c.plotSet.vecs l r.row 0 c with
    | (.bad c' row pair, m, k) =>
      { core := { c' with plotRun := some { r with row := m } }, entry := .bad row pair, kept := k, more := false }
    | (.ok c', m, k) =>
      if m < f.m then { core := { c' with plotStaging := none, plotRun := some { r with row := m } }, entry := .ok, kept := k, more := true }
      else
        { core := { c' with plotStaging := none, plotRun := none, pq := c'.pq.finish (fun op => op = 0x20) r.key }, entry := .ok,
          kept := k, more := true }
  | _, _ => { core := c, entry := .ok, kept := 0, more := false }

/-- The weight path loads the Plotter weight set for the oldest waiting Plotter FWGT, once the rows that use the set have entered
(R102, R117). -/
def CoreSt.pumpPlotFwgt (c : CoreSt) : CoreSt :=
  match c.plotFwgt, c.plotRun with
  | (w, k) :: rest, none =>
    let c := c.loadPlot w
    { c with plotFwgt := rest, pq := c.pq.finish (fun op => op = 0x12) k }
  | _, _ => c

/-- The Plotter queue's array operations run as far as they can. -/
def CoreSt.pumpPlot (modes : Nat) : Nat → (kept : Nat) → CoreSt → CoreSt × Entry × Nat
  | 0, k, c => (c, .ok, k)
  | fuel + 1, k, c =>
    let x := (c.fillPlot.pumpPlotFwgt).enterPlot modes
    if x.more || (x.core.plotRun.isNone && !x.core.plotFwgt.isEmpty) then CoreSt.pumpPlot modes fuel (k + x.kept) x.core
    else (x.core, x.entry, k + x.kept)

/-- Slots that one MMUL and the loads behind it can pass through in one command. -/
def pumpFuel : Nat := 64

end Sys2Proof.Machine
end

