-- ==== Sys2Proof/Machine/PlanTables.lean ====
section
/-!
DEFINITION. The fields of plan table entries that engines and controllers read: region tables (R321, R795), core halyard table
entries (R439), chain table entries (R441), stream descriptors (R328), gather list entries (R351) and ledger tiles (R343).
-/

namespace Sys2Proof.Machine

/-! ### Core halyard table (R439) -/

structure HalEntry where
  layer : Nat
  tileFirst : Nat
  tileCount : Nat
  m : Nat
  n : Nat
  margin : Nat
  eDefault : Int
  upstream : Bool
  nextKind : Nat
  nextCore : Nat
  chain : Nat
  codeRegion : Nat
  codeOffset : Nat
  codeStride : Nat
  mergeAddr : Nat
  mergeSlots : Nat
  /-- a reserved code or non-zero reserved field (R437). -/
  bad : Bool
  deriving DecidableEq, Repr

def halEntryOf (x : Nat) : HalEntry :=
  { layer := field x 240 16, tileFirst := field x 224 16, tileCount := field x 208 16, m := field x 195 13,
    n := field x 187 8, margin := field x 184 3, eDefault := signed (field x 176 8) 8, upstream := bit x 175,
    nextKind := field x 173 2, nextCore := field x 162 11, chain := field x 150 12, codeRegion := field x 144 6,
    codeOffset := field x 116 28, codeStride := field x 108 8, mergeAddr := field x 94 14, mergeSlots := field x 90 4,
    bad := field x 0 90 != 0 || field x 184 3 > 4 || field x 176 8 = 0x80 || field x 173 2 = 3
      || (field x 173 2 != 0 && field x 162 11 != 0) || field x 208 16 = 0 }

/-- Entry `h` of a logical core's halyard table; none where the plan defines none (reads 0). -/
def State.halEntry (s : State) (l h : Nat) : Option HalEntry :=
  match s.job.plan with
  | none => none
  | some p =>
    match Tab.find p.halyard (4096 * l + h) with
    | some x => if x = 0 then none else some (halEntryOf x)
    | none => none

/-! ### Chain table (R441) -/

structure ChainEntry where
  chain : Nat
  next : Nat
  alt1 : Nat
  alt2 : Nat
  owner : Nat
  mirror : Nat
  ups : List Nat
  upstream : Nat
  depth : Nat
  group : Nat
  port : Nat
  isOwner : Bool
  expected : Nat
  deriving DecidableEq, Repr

def chainEntryOf (x : Nat) : ChainEntry :=
  { chain := field x 244 12, next := field x 230 14, alt1 := field x 216 14, alt2 := field x 202 14, owner := field x 188 14,
    mirror := field x 174 14,
    ups := [field x 160 14, field x 146 14, field x 132 14, field x 118 14].take (field x 115 3), upstream := field x 115 3,
    depth := field x 107 8, group := field x 105 2, port := field x 102 3, isOwner := bit x 101, expected := field x 77 24 }

/-- The module's entry for a chain number. -/
def State.chainEntry (s : State) (c : Nat) : Option ChainEntry :=
  match s.job.plan with
  | none => none
  | some p => (p.chains.map chainEntryOf).find? (fun e => e.chain = c)

/-- M and N of the module's own entry for a tile of a chain (R454), when a core of the module has one. -/
def State.ownEntry (s : State) (layer tile chain : Nat) : Option HalEntry :=
  match s.job.plan with
  | none => none
  | some p =>
    ((p.halyard.filter (fun x => x.2 != 0)).map (fun x => halEntryOf x.2)).find? (fun e =>
      e.layer = layer && e.chain = chain && e.tileFirst ≤ tile && tile < e.tileFirst + e.tileCount)

/-! ### Region tables (R321, R795) -/

/-- What an entry of a core's region table stands for. -/
inductive RegionRef where
  | none
  | region (r : Region)
  | input (r : Region) (start len : Nat)
  deriving DecidableEq, Repr

/-- Data bytes of input slot k: region, first byte, length (R795). -/
def Plan.inputSlot (p : Plan) (k : Nat) : Option (Region × Nat × Nat) :=
  match p.inputs[k % 2]? with
  | none => none
  | some x =>
    match p.regions[x.1]? with
    | none => none
    | some r => some (r, r.start + 64 * x.2.1, 64 * x.2.2)

/-- Entry `e` of a physical core's region table in step `step`. -/
def State.regionRef (s : State) (core e step : Nat) : RegionRef :=
  match s.job.plan, s.logicalOf core with
  | some p, some l =>
    let v := (p.regionTables.getD l []).getD e 0xFFFF
    if v = 0xFFFF then .none
    else if v = 0xFFFE then (match p.inputSlot step with | some x => .input x.1 x.2.1 x.2.2 | none => .none)
    else (match p.regions[v]? with | some r => (if r.kind = 0 then .none else .region r) | none => .none)
  | _, _ => .none

/-- The bytes of a region table entry: stack, first data byte, length. -/
def RegionRef.range : RegionRef → Option (Nat × Nat × Nat)
  | .none => Option.none
  | .region r => some (r.stack, r.start, r.bytes)
  | .input r a n => some (r.stack, a, n)

/-! ### Stream descriptors (R328) -/

structure StreamDesc where
  op : Nat
  form : Nat
  n : Nat
  src : Nat
  rep : Nat
  tstride : Nat
  dkind : Nat
  dest : Nat
  cmask : Nat
  smask : Nat
  sbaddr : Nat
  sbstep : Nat
  sbslots : Nat
  dpen : Option Nat
  cwaitIdx : Nat
  cwaitThr : Nat
  lwaitIdx : Nat
  lwaitThr : Nat
  lraiseIdx : Nat
  lraiseInc : Nat
  deriving DecidableEq, Repr

def streamDescOf (x : Nat) : StreamDesc :=
  { op := field x 252 4, form := field x 248 4, n := field x 240 8, src := 64 * field x 210 30, rep := field x 194 16,
    tstride := 64 * field x 170 24, dkind := field x 168 2, dest := field x 157 11, cmask := field x 151 6,
    smask := field x 147 4, sbaddr := 64 * field x 133 14, sbstep := 64 * field x 119 14, sbslots := field x 115 4,
    dpen := if bit x 114 then some (field x 109 5) else none, cwaitIdx := field x 104 5, cwaitThr := field x 93 11,
    lwaitIdx := field x 85 8, lwaitThr := field x 69 16, lraiseIdx := field x 61 8, lraiseInc := field x 53 8 }

/-- The descriptor list of a stream unit (R327). -/
def State.streamList (s : State) (k u : Nat) : List Nat :=
  match s.job.plan with
  | some p => Tab.get [] p.streams (4 * k + u)
  | none => []

/-- The descriptor at a position of a unit's list; END past its end. -/
def State.streamDesc (s : State) (k u pos : Nat) : StreamDesc := streamDescOf ((s.streamList k u).getD pos 0)

/-! ### Gather lists (R351) -/

structure GatherEntry where
  op : Nat
  wire : Nat
  opform : Nat
  keepBwd : Bool
  holder : Nat
  layer : Nat
  tileFirst : Nat
  tileCount : Nat
  region : Nat
  arrive : Nat
  deriving DecidableEq, Repr

def gatherEntryOf (x : Nat) : GatherEntry :=
  { op := field x 124 4, wire := field x 120 4, opform := field x 116 4, keepBwd := bit x 115, holder := field x 101 14,
    layer := field x 85 16, tileFirst := field x 69 16, tileCount := field x 53 16, region := field x 41 12,
    arrive := field x 33 8 }

/-- The gather list of a stack controller. -/
def State.gatherList (s : State) (k : Nat) : List GatherEntry :=
  match s.job.plan with
  | some p => ((Tab.get [] p.gathers k).map gatherEntryOf).takeWhile (fun e => e.op = 1)
  | none => []

/-! ### Ledger tiles (R343, R438) -/

/-- Tile `n` of the run of a core's entry. -/
def State.ledgerTile (s : State) (l h n : Nat) : Option LedgerTile :=
  match s.job.plan with
  | some p => (p.ledgers.filter (fun t => t.core = l && t.htab = h))[n]?
  | none => none

/-! ### Layers and modules -/

/-- All layers of the plan. -/
def State.planLayers (s : State) : List PlanLayer := match s.job.plan with | some p => p.layers | none => []

/-- FIRST_STEP of the plan. -/
def State.firstStep (s : State) : Nat := match s.job.plan with | some p => p.hdr.firstStep | none => 0

/-- Modules of the job other than this one, as the peer table's ACTIVE entries name them (R550). -/
def State.jobPeers (s : State) : List Nat :=
  (s.net.peers.filter (fun p => p.present && p.active && p.module != s.moduleId)).map (fun p => p.module)

/-- The upstream modules a layer's downhaul goes to: those of every chain that the LAYERS section lists for it (R463). -/
def State.downTargets (s : State) (layer : Nat) : List Nat :=
  match s.planLayer layer with
  | none => []
  | some l => ((l.chains.filterMap s.chainEntry).flatMap (fun c => c.ups)).eraseDups

/-- The promoted weight form; none above BF16 (R204). -/
def nextRung (f : Nat) : Option Nat :=
  if f = 0xA then some 0x8 else if f = 7 ∨ f = 8 ∨ f = 9 then some 3 else if f = 0 then none else some 0

/-- The forms from `f` up the ladder. -/
def rungsFrom : Nat → Nat → List Nat
  | 0, f => [f]
  | n + 1, f => f :: (match nextRung f with | some g => rungsFrom n g | none => [])

/-- The rung of a layer's forward form. -/
def State.rungOf (s : State) (l : PlanLayer) : Nat := Tab.get l.rung s.plotter.rung l.layer

/-- The form of a layer's forward tile images of a size: the layer's own, or one that it has been promoted to (R205). -/
def State.formOf (s : State) (l : PlanLayer) (size : Nat) : Option Nat :=
  (rungsFrom 3 (s.rungOf l)).find? (fun f => size = 128 * columnBytes f)

/-- The rung whose program runs for a layer (R206). -/
def State.programRung (s : State) (l : PlanLayer) : Nat := Tab.get l.rung s.job.switched l.layer

/-- A variant's program is the one for the rungs that run. -/
def State.variantRuns (s : State) (l : PlanLayer) (v : Variant) : Bool :=
  let rung (k : Nat) : Option Nat := (s.planLayer k).map s.programRung
  s.programRung l = v.rung && v.others.all (fun x => rung x.1 = some x.2)

/-- The queue regions of a logical core, QBASE and QLEN by queue: those of the variant for the rungs that run, else the plan's own (R72,
R206). -/
def State.programOf (s : State) (l : Nat) (x : PlanCore) : List Nat × List Nat :=
  match s.planLayers.findSome? (fun y => y.variants.find? (fun v => v.core = l && s.variantRuns y v)) with
  | some v => (v.qbase, v.qlen)
  | none => (x.qbase, x.qlen)

/-- The stacks that hold parts of a layer's stream copy or code records (R795). -/
def State.copyStacks (s : State) (l : PlanLayer) : List Nat :=
  (((s.copyPlaces l).map (fun p => (s.placeAddr p p.first).1))).eraseDups

/-! ### Schedule table (R485, R486) -/

/-- Layer record at an offset of the schedule table (R486). -/
def schedLayerAt (b : List Byte) (o : Nat) : SchedLayer :=
  { layer := leAt b o 2, group := leAt b (o + 2) 2, rows := leAt b (o + 4) 4, cols := leAt b (o + 8) 4,
    mode := leAt b (o + 0x0C) 1, nsSet := leAt b (o + 0x0D) 1, sheet := leAt b (o + 0x0E) 1,
    stateRegion := leAt b (o + 0x10) 2, journalRegion := leAt b (o + 0x12) 2, stateOffset := leAt b (o + 0x14) 4,
    journalOffset := leAt b (o + 0x18) 4 }

/-- The layer records of a schedule table. -/
def schedLayers (b : List Byte) : List SchedLayer :=
  (upFrom 0 (leAt b 8 2)).map (fun i => schedLayerAt b (leAt b 0x14 4 + 32 * i))

/-- The schedule table of the loaded plan. -/
def State.schedule (s : State) : List Byte := match s.job.plan with | some p => p.schedule | none => []

/-- A layer's record in the schedule table. -/
def State.schedLayer (s : State) (layer : Nat) : Option SchedLayer := (schedLayers s.schedule).find? (fun r => r.layer = layer)

end Sys2Proof.Machine
end

