-- ==== Sys2Proof/Machine/Send.lean ====
section
/-!
DEFINITION. Messages of the Peolo transport as bytes (R459, R556) and their sending: fragments, sequence numbers and the
unacknowledged-frame tables (R552, R554, R564, R570).
-/

namespace Sys2Proof

namespace Machine

/-! ### Bodies -/

/-- Big-endian value of `n` bytes at offset `o`. -/
def beAt (l : List Byte) (o n : Nat) : Nat := beNat (slice l o n)

/-- A signed value as `n` big-endian bytes. -/
def beInt (v : Int) (n : Nat) : List Byte := beBytes ((v % 2 ^ (8 * n)).toNat) n

/-- A list of codes padded with zeros to a multiple of 8 (R459). -/
def codeVector (l : List Nat) : List Byte :=
  l.map (fun c => BitVec.ofNat 8 c) ++ zeros ((8 - l.length % 8) % 8)

end Machine

open Machine

/-- A HALYARD_SUM body (R459). -/
def SumMsg.bytes (b : SumMsg) : List Byte :=
  beBytes b.layer 2 ++ beBytes b.tile 2 ++ beBytes b.step 4 ++ beBytes b.round 1 ++ beBytes b.contributors 3
    ++ beBytes b.tokens 5 ++ beBytes b.gaps 1 ++ beBytes b.saturations 2 ++ beBytes b.nonfinite 2 ++ beBytes b.chain 2
    ++ beBytes b.m 2 ++ beBytes b.n 1 ++ beBytes b.skips 1 ++ beBytes b.excluded 1 ++ zeros 3 ++ codeVector b.codes
    ++ (if b.round = 1 then (b.words.map (fun w => beInt w 6)).flatten else [])

def GatherMsg.bytes (g : GatherMsg) : List Byte :=
  beBytes g.kind 1 ++ beBytes g.aux 1 ++ beBytes g.tag 2 ++ beBytes g.layer 2 ++ zeros 2 ++ beBytes g.step 4
    ++ beBytes g.first 4 ++ beBytes g.count 4

def BeatMsg.bytes (b : BeatMsg) : List Byte :=
  beBytes b.reading 4 ++ beBytes b.current 4 ++ beBytes b.attempt 1 ++ beBytes b.role 1 ++ beBytes b.flags 1 ++ zeros 1
    ++ beBytes b.ports 4 ++ beBytes b.eventSeq 4

/-- TYPE and body of a message (R556). -/
def Msg.type : Msg → Nat
  | .sum _ => 1
  | .down _ => 2
  | .gatherReq _ => 3
  | .gatherData _ _ => 4
  | .checkpoint _ _ _ _ _ => 5
  | .heartbeat _ => 6
  | .control _ _ _ _ => 7

def Msg.bytes : Msg → List Byte
  | .sum b => b.bytes
  | .down b => beBytes b.layer 2 ++ beBytes b.part 1 ++ zeros 1 ++ beBytes b.step 4 ++ beBytes b.first 4
      ++ beBytes b.count 4 ++ b.data
  | .gatherReq g => g.bytes
  | .gatherData g data => g.bytes ++ data
  | .checkpoint slot record step offset data =>
    beBytes slot 1 ++ beBytes record 1 ++ zeros 2 ++ beBytes step 4 ++ beBytes offset 8 ++ data
  | .heartbeat b => b.bytes
  | .control sub layer step value => beBytes sub 1 ++ zeros 1 ++ beBytes layer 2 ++ beBytes step 4 ++ beBytes value 8

/-- Receive tag of a message's frames: that of a tagged gather, otherwise 0 (R553, R563). -/
def Msg.tag : Msg → Nat
  | .gatherReq g => if g.kind = 5 then g.tag else 0
  | .gatherData g _ => if g.kind = 5 then g.tag else 0
  | _ => 0

/-- The words of a sum, 6 bytes each. -/
def Machine.wordsOf (l : List Byte) : List Int := (chunks 6 l).map (fun b => signed (beNat b) 48)

/-- A sum message from its body (R459). -/
def SumMsg.ofBytes (l : List Byte) : SumMsg :=
  let m := beAt l 0x18 2
  let nb := ceilDiv m 8
  let cv := nb + (8 - nb % 8) % 8
  { layer := beAt l 0 2, tile := beAt l 2 2, step := beAt l 4 4, round := beAt l 8 1, contributors := beAt l 9 3,
    tokens := beAt l 0x0C 5, gaps := beAt l 0x11 1, saturations := beAt l 0x12 2, nonfinite := beAt l 0x14 2,
    chain := beAt l 0x16 2, m := m, n := beAt l 0x1A 1, skips := beAt l 0x1B 1, excluded := beAt l 0x1C 1,
    codes := (slice l 0x20 nb).map (fun b => b.toNat), words := if beAt l 8 1 = 1 then wordsOf (l.drop (0x20 + cv)) else [] }

def GatherMsg.ofBytes (l : List Byte) : GatherMsg :=
  { kind := beAt l 0 1, aux := beAt l 1 1, tag := beAt l 2 2, layer := beAt l 4 2, step := beAt l 8 4, first := beAt l 12 4,
    count := beAt l 16 4 }

/-- A message from its TYPE and body (R556); none for a reserved type. -/
def Msg.ofBytes (type : Nat) (l : List Byte) : Option Msg :=
  if type = 1 then some (.sum (SumMsg.ofBytes l))
  else if type = 2 then
    some (.down { layer := beAt l 0 2, part := beAt l 2 1, step := beAt l 4 4, first := beAt l 8 4, count := beAt l 12 4,
                  data := l.drop 16 })
  else if type = 3 then some (.gatherReq (GatherMsg.ofBytes l))
  else if type = 4 then some (.gatherData (GatherMsg.ofBytes l) (l.drop 20))
  else if type = 5 then some (.checkpoint (beAt l 0 1) (beAt l 1 1) (beAt l 4 4) (beAt l 8 8) (l.drop 16))
  else if type = 6 then
    some (.heartbeat { reading := beAt l 0 4, current := beAt l 4 4, attempt := beAt l 8 1, role := beAt l 9 1,
                       flags := beAt l 10 1, ports := beAt l 12 4, eventSeq := beAt l 16 4 })
  else if type = 7 then some (.control (beAt l 0 1) (beAt l 2 2) (beAt l 4 4) (beAt l 8 8))
  else none

namespace Machine

/-! ### Peers and interfaces -/

def State.peer (s : State) (m : Nat) : Option PeerSt := s.net.peers.find? (fun p => p.module = m)

def State.setPeer (s : State) (p : PeerSt) : State :=
  { s with net := { s.net with peers := s.net.peers.map (fun x => if x.module = p.module then p else x) } }

def State.updPeer (s : State) (m : Nat) (f : PeerSt → PeerSt) : State :=
  match s.peer m with
  | some p => s.setPeer (f p)
  | none => s

/-- A module counts as lost: declared so, or without a PRESENT entry (R552, R576). -/
def State.isLost (s : State) (m : Nat) : Bool :=
  match s.peer m with
  | some p => p.lost || !p.present
  | none => true

/-- The module field of a checkpoint destination (R549). -/
def destModule : Nat := 0x4000

/-- Modes of a port (R545). -/
def State.portMode (s : State) (p : Nat) : Nat := field s.net.portModes (2 * p) 2

def State.iface (s : State) (i : Nat) : IfState := Tab.get .down s.net.ifaces i

/-- The interfaces of a port that its mode gives it (R545). -/
def State.portIfaces (s : State) (p : Nat) : List Nat :=
  if s.portMode p = 0 then [2 * p] else if s.portMode p = 1 then [2 * p, 2 * p + 1] else []

/-- Up interfaces of a group, in ascending number (R34). -/
def State.groupUp (s : State) (g : Nat) : List Nat :=
  (((upFrom (8 * g) 8).map s.portIfaces).flatten).filter (fun i => s.iface i = .up)

/-- Counts of an interface; 64 stands for none. -/
def State.netCount (s : State) (i : Nat) (f : NetCounts → NetCounts) : State :=
  if i ≥ 64 then s else { s with net := { s.net with counts := Tab.upd .zero s.net.counts i f } }

/-- The bytes of a frame on an interface (R553, R752, R756), in a direction of R752: 4 transmit, 8 receive. -/
def State.frameBytes (s : State) (i direction payload : Nat) : State :=
  if i ≥ 64 then s else s.count (blkPort (i / 2)) evBYTES (2 ^ (i % 2) + direction) 1 (payload + 106)

/-- The interface a message leaves by (R552): that of the chosen port when up, otherwise another up interface of the group in
rotation; 64 stands for none up. -/
def State.pickIface (s : State) (g : Nat) (port : Option Nat) (turn : Nat) : Nat :=
  let up := s.groupUp g
  let own := match port with
    | some p => (up.filter (fun i => i / 2 = p)).head?
    | none => none
  match own with
  | some i => i
  | none => if up.isEmpty then 64 else up.getD (turn % up.length) 64

/-- Frames of a message (R554): fragments of 8,192 bytes. -/
def fragments (l : List Byte) : List (List Byte) := if l.isEmpty then [[]] else chunks 8192 l

/-- Messages of a peer with frames on an interface. -/
def messagesOn (l : List TxFrame) (i : Nat) : Nat := (((l.filter (fun f => f.iface = i)).map (fun f => f.msgId)).eraseDups).length

/-- The unacknowledged-message table of an interface is full (R570): 1,024 entries, or 512 for half a port. -/
def State.tableFull (s : State) (i : Nat) : Bool :=
  i < 64 && (s.net.peers.map (fun p => messagesOn p.tx i)).foldl (· + ·) 0 ≥ (if s.portMode (i / 2) = 1 then 512 else 1024)

/-- A port has no table entry left on any of its up interfaces (R111). -/
def State.portFull (s : State) (p : Nat) : Bool :=
  let up := (s.portIfaces p).filter (fun i => s.iface i = .up)
  !up.isEmpty && up.all s.tableFull

/-! ### Frames on the wire (R546 to R548, R553, R568) -/

/-- The port group of an interface (R34, R545). -/
def groupOfIface (i : Nat) : Nat := i / 16

/-- The address of a port group (R547). -/
def State.groupAddr (s : State) (g : Nat) : List Byte := slice s.net.groupAddresses (16 * g) 16

/-- JOB_ID of the loaded plan. -/
def State.jobId (s : State) : Nat := match s.job.plan with | some p => p.hdr.jobId | none => 0

/-- The 40-byte Peolo header of a frame to a peer (R553). DEDUCED: every frame carries ACK and SACK, so ACK_VALID is always 1 (R565;
notes/assumptions/32.md). -/
def State.peoloHeader (s : State) (p : PeerSt) (type seq msgId frag fragCount len tag : Nat) : List Byte :=
  beBytes 1 1 ++ beBytes type 1 ++ beBytes (if p.rxCe then 3 else 1) 1 ++ zeros 1 ++ beBytes s.moduleId 2 ++ beBytes p.module 2
    ++ beBytes s.jobId 8 ++ beBytes seq 4 ++ beBytes p.ackBase 4 ++ beBytes p.sackMask 4 ++ beBytes msgId 4 ++ beBytes frag 2
    ++ beBytes fragCount 2 ++ beBytes len 2 ++ beBytes tag 2

/-- UDP destination port of a peer: that of the checkpoint destination, or PEOLO_UDP_PORT (R553, R578). -/
def State.udpTo (s : State) (p : PeerSt) : Nat := if p.module = destModule then s.job.ckpt.port else s.net.udpPort

/-- The next-hop address of an interface's group (R548). -/
def State.nextHopOf (s : State) (i : Nat) : List Byte := slice s.net.gateways (16 * groupOfIface i) 16

/-- Neighbor Discovery resolves the next hop of an interface's group before its first frame (R548); the answer is taken to come at once
(DESIGN CHOICE: notes/assumptions/32.md). -/
def State.resolve (s : State) (i : Nat) : State :=
  if i ≥ 64 || s.net.neighbors.contains (i, s.nextHopOf i) then s
  else ({ s with net := { s.net with neighbors := s.net.neighbors ++ [(i, s.nextHopOf i)] } }).send (.neighborSolicit i (s.nextHopOf i) (macOf i))

/-- A frame of an interface to a peer; none when the group has no interface up. -/
def State.wire (s : State) (i : Nat) (p : PeerSt) (type msgId : Nat) (header payload : List Byte) : List WireFrame :=
  if i ≥ 64 then []
  else [{ iface := i, mac := macOf i, src := s.groupAddr (groupOfIface i), dst := slice p.addr (16 * p.remoteGroup) 16,
          nextHop := s.nextHopOf i, dstMac := Config.neighborMac i (s.nextHopOf i), dscp := field s.net.trafficClasses (8 * type) 6, ecn := 2,
          udpSrc := 49152 + msgId % 16384, udpDst := s.udpTo p, header := header, payload := payload }]

/-- The frame of a table entry. -/
def State.wireTx (s : State) (p : PeerSt) (f : TxFrame) : List WireFrame :=
  s.wire f.iface p f.type f.msgId (s.peoloHeader p f.type f.seq f.msgId f.frag f.fragCount f.payload.length f.tag) f.payload

/-- What a frame that leaves says to the peer is said: its acknowledgement, and the CE marks that it covers (R565, R568). -/
def PeerSt.acked (p : PeerSt) (i : Nat) : PeerSt := if i ≥ 64 then p else { p with unacked := 0, rxCe := false }

/-- A message leaves for a peer by an interface (R564): one frame per fragment, unacknowledged until its acknowledgement. -/
def State.messageOn (s : State) (p : PeerSt) (i : Nat) (m : Msg) : State :=
  let fr := fragments m.bytes
  let rto := if p.sampled then max 20 (min 10000 (p.srtt + 4 * p.rttvar)) else 100
  let new := (fr.zip (upFrom 0 fr.length)).map (fun x =>
    { seq := (p.nextSeq + x.2) % 2 ^ 32, olds := [], msgId := p.nextMsg, frag := x.2, fragCount := fr.length, type := m.type,
      tag := m.tag, payload := x.1, iface := i, sends := 1, rto := rto, sent := s.micros : TxFrame })
  let p' := { p.acked i with nextSeq := (p.nextSeq + fr.length) % 2 ^ 32, nextMsg := (p.nextMsg + 1) % 2 ^ 32, tx := p.tx ++ new }
  let s := ((s.resolve i).setPeer p').netCount i (fun c => { c with sent := satAdd32 c.sent fr.length })
  (fr.foldl (fun t b => t.frameBytes i 4 b.length) s).send (.message p.module p.nextMsg m (new.flatMap (s.wireTx p)))

/-- A message waits for a table entry (R111, R570). -/
def State.waitSend (s : State) (w : Waiting) : State := { s with net := { s.net with backlog := s.net.backlog ++ [w] } }

/-- Sends a message to a module (R552, R564). A message to a lost module is not sent, and one whose interface has no table entry left waits
(R111, R570). -/
def State.message (s : State) (dst : Nat) (group : Option Nat) (port : Option Nat) (m : Msg) : State :=
  match s.peer dst with
  | none => s.info "PEER_UNKNOWN" [dst]
  | some p =>
    let i := s.pickIface (group.getD p.localGroup) port p.rotate
    if !p.present then s.info "PEER_UNKNOWN" [dst]
    else if p.lost then s
    else if s.tableFull i then s.waitSend { dst := dst, group := group, port := port, m := m }
    else s.messageOn { p with rotate := p.rotate + 1 } i m

/-- A heartbeat leaves by the next of the group's up interfaces, in a rotation of its own (R573). -/
def State.beat (s : State) (p : PeerSt) (m : Msg) : State :=
  let i := s.pickIface p.localGroup none p.beatTurn
  if s.tableFull i then s.waitSend { dst := p.module, group := none, port := none, m := m }
  else s.messageOn { p with beatTurn := p.beatTurn + 1 } i m

/-- Messages that wait for table entries are sent, as far as there are any; a module with no plan sends none (R577). -/
def State.drainBacklog (s : State) : State :=
  let t := { s with net := { s.net with backlog := [] } }
  if s.job.plan.isNone then t else s.net.backlog.foldl (fun t w => t.message w.dst w.group w.port w.m) t

/-- A message to every module of the peer table (R522, R526, R607). -/
def State.broadcast (s : State) (m : Msg) : State :=
  (s.net.peers.filter (fun p => p.present && p.module != destModule && p.module != s.moduleId)).foldl (fun t p => t.message p.module none none m) s

end Machine

end Sys2Proof
end

