-- ==== Sys2Proof/Machine/CopyOps.lean ====
section
/-!
DEFINITION. Controller counters (R331), writes of stream copies and code records under their release and arrival counters (R340,
R428, R464, R520) and the sending of downhauls (R463, R465).
-/

namespace Sys2Proof.Machine

/-! ### Wishes for job control -/

/-- Job control is to stop the job with a status (R631); the first wish of a command stands. -/
def State.askStop (s : State) (status : Nat) : State :=
  { s with job := { s.job with wantStop := match s.job.wantStop with | none => some status | some x => some x } }

/-- A class B fault is handed to firmware (R509). -/
def State.askB (s : State) (f : FaultB) : State := { s with job := { s.job with wantB := s.job.wantB ++ [f] } }

/-- A class C fault is handed to firmware (R509). -/
def State.askC (s : State) (f : FaultC) : State := { s with job := { s.job with wantC := s.job.wantC ++ [f] } }

def stPROGRAM_TRAP : Nat := 0x12
def stPLAN_FAULT : Nat := 0x13

/-! ### Controller counters (R331) -/

/-- A counter of a stack controller. -/
def StackSt.counter (k : StackSt) (i : Nat) : Nat := Tab.get 0 k.counters i

/-- A raise of a controller counter (R331). -/
def State.counterRaise (s : State) (k i inc : Nat) : State :=
  let v := (s.stack k).counter i + inc
  let s1 := s.updStack k (fun x => { x with counters := Tab.set x.counters i (min v 65535) })
  if v ≤ 65535 then s1
  else (s1.event "CONTROLLER_COUNTER_SATURATED" clsPROGRAM srcStack k [i]).askStop stPLAN_FAULT

/-- A granted wait subtracts its threshold (R331). -/
def State.counterTake (s : State) (k i thr : Nat) : State :=
  s.updStack k (fun x => { x with counters := Tab.set x.counters i (x.counter i - thr) })

/-! ### Stream copies (R340) -/

/-- A module that can answer a gather: not this one, PRESENT, not lost (R353, R794). -/
def State.reachable (s : State) (m : Nat) : Bool := m != s.moduleId && !s.isLost m

/-- The form of a layer's backward copy: BF16 once its forward form is BF16 (R324). -/
def State.backForm (s : State) (l : PlanLayer) : Nat := if s.rungOf l = fBF16 then fBF16 else if l.back = 4 then 4 else 3

/-- The form that a layer's forward copy has on a stack (R205, R206). -/
def State.copyFormOf (s : State) (k layer : Nat) : Nat :=
  Tab.get (match s.planLayer layer with | some l => l.rung | none => 0) s.halyard.copyForm (64 * layer + k)

/-- The form in which a stack holds a layer's backward copy: BF16 with a BF16 forward copy, otherwise the plan's (R324). -/
def State.backHeld (s : State) (k : Nat) (l : PlanLayer) : Nat :=
  if s.copyFormOf k l.layer = fBF16 then fBF16 else if l.back = 4 then 4 else 3

/-- The counters of a layer on a stack (R340). -/
def State.copyCtr (s : State) (layer k : Nat) : Option CopyCtr :=
  match s.job.plan with
  | some p => p.copyCtrs.find? (fun c => c.layer = layer && c.stack = k)
  | none => none

/-- Tiles of a layer in a part of its copy, where the schedule table gives its rows and columns (R323, R324); none for code records. -/
def State.tilesIn (s : State) (l : PlanLayer) (part : Nat) : Option Nat :=
  match s.schedLayer l.layer with
  | none => none
  | some r =>
    if part = 0 then some (ceilDiv r.rows (kT (s.rungOf l)) * ceilDiv r.cols 128)
    else if part = 1 then some (ceilDiv r.rows 128 * ceilDiv r.cols 128)
    else none

/-- Items of a layer's parts on a stack, as (2^32·part + item): a placement may reserve more tiles than the layer's rung has (R207). -/
def State.copyItems (s : State) (l : PlanLayer) (k : Nat) : List Nat :=
  (s.copyPlaces l).flatMap (fun p => if (s.placeAddr p p.first).1 = k then
      ((upFrom p.first p.count).filter (fun n => match s.tilesIn l p.part with | some t => n < t | none => true)).map
        (fun n => 2 ^ 32 * p.part + n)
    else [])

/-- Code records among the items of a stack. -/
def State.codeItems (s : State) (l : PlanLayer) (k : Nat) : List Nat := (s.copyItems l k).filter (fun x => x / 2 ^ 32 = 2)

/-- Bytes of a tile of a layer's backward copy in a form: a row block of up to 128 rows, the last one with what remains (R324). -/
def State.backBytes (s : State) (l : PlanLayer) (form n : Nat) : Option Nat :=
  (s.schedLayer l.layer).map (fun r =>
    min 128 (r.rows - 128 * (n / max 1 (ceilDiv r.cols 128))) * (if form = fBF16 then 256 else 132))

/-- A list cut into parts of given lengths. -/
def cutAt : List Nat → List Byte → List (List Byte)
  | [], _ => []
  | n :: t, l => l.take n :: cutAt t (l.drop n)

/-- The data of items first, first + 1, … of a part, each at its own length: backward tiles as their rows give it, others in equal
shares. -/
def State.itemsOf (s : State) (l : PlanLayer) (part first count : Nat) (data : List Byte) : List (List Byte) :=
  let sizes (form : Nat) : List Nat := (upFrom first count).map (fun n => (s.backBytes l form n).getD 0)
  match [fBF16, 3].find? (fun f => part = 1 && (sizes f).foldl (· + ·) 0 = data.length) with
  | some f => cutAt (sizes f) data
  | none => (chunks (if count = 0 then 1 else data.length / count) data).take count

/-- The address of an item: a code record's slot for step + 1 is slot (step + 1) mod 2 (R427, R428). -/
def State.copyAddr (s : State) (p : Placement) (n step : Nat) : Nat :=
  let a := (s.placeAddr p n).2
  if p.part = 2 then a + (step + 1) % 2 * (64 * p.stride / 2) else a

/-- Step plus 1 of the stream copy, or of the code records for part 2, that a layer's regions on a stack hold whole. -/
def State.heldNext (s : State) (layer k part : Nat) : Option Nat :=
  Tab.find (if part = 2 then s.halyard.codeStep else s.halyard.copyStep) (64 * layer + k)

/-- A part of a copy is at or below what the stack holds (R464). -/
def State.isHeld (s : State) (layer k part step : Nat) : Bool :=
  match s.heldNext layer k part with
  | some v => step + 1 ≤ v
  | none => false

/-- One item of a copy is written on the stack that holds it. -/
def State.writeItem (s : State) (l : PlanLayer) (k step part n : Nat) (data : List Byte) : State :=
  match s.copyPlace l part n with
  | none => s
  | some p =>
    if (s.placeAddr p n).1 = k then
      let s := s.writeStack k (s.copyAddr p n step) data
      { s with halyard := { s.halyard with written := (64 * l.layer + k, step, 2 ^ 32 * part + n) :: s.halyard.written } }
    else s

/-- Every item of a list has been written for a step. -/
def State.allWritten (s : State) (key step : Nat) (l : List Nat) : Bool :=
  !l.isEmpty && l.all (fun x => s.halyard.written.contains (key, step, x))

/-- The code records of a step stand whole on a stack (R428, R431). -/
def State.codesDone (s : State) (l : PlanLayer) (k step : Nat) : State :=
  let key := 64 * l.layer + k
  if s.allWritten key step (s.codeItems l k) then
    { s with halyard := { s.halyard with codeStep := Tab.upd 0 s.halyard.codeStep key (fun v => max v (step + 1)) } }
  else s

/-- When the whole new copy of a layer on a stack is written, its arrival counter is raised by 1 (R340), unless R520 leaves it uncounted,
and its release is over. -/
def State.copyDone (s : State) (l : PlanLayer) (k step : Nat) : State :=
  let key := 64 * l.layer + k
  if s.allWritten key step (s.copyItems l k) then
    let h := s.halyard
    let s := { s with halyard := { h with
      written := h.written.filter (fun x => !(x.1 = key && x.2.1 ≤ step)),
      copyStep := Tab.upd 0 h.copyStep key (fun v => max v (step + 1)) } }
    let s := s.updStack k (fun x => { x with released := x.released.filter (fun y => !(y.1 = l.layer && y.2 ≤ step)) })
    match s.copyCtr l.layer k with
    | some c => if step ≥ s.firstStep && step ≥ s.halyard.copyFloor then s.counterRaise k c.arrival 1 else s
    | none => s
  else s

/-- Items first, first + 1, … of a part. -/
def State.writeItems (s : State) (l : PlanLayer) (k step part : Nat) : List (List Byte) → Nat → State
  | [], _ => s
  | d :: t, n => State.writeItems (s.writeItem l k step part n d) l k step part t (n + 1)

/-- A released write takes effect; one that the stack holds already has none (R464). -/
def State.applyCopy (s : State) (k : Nat) (h : HeldWrite) : State :=
  match s.planLayer h.layer with
  | none => s
  | some l =>
    if s.isHeld h.layer k h.part h.step then s
    else
      let size := if h.count = 0 then 0 else h.data.length / h.count
      let s := match s.formOf l (if h.part = 0 then size else 0) with
        | some f =>
          let key := 64 * h.layer + k
          if f = Tab.get l.rung s.halyard.copyForm key then s
          else { s with halyard := { s.halyard with copyForm := Tab.set s.halyard.copyForm key f,
                                                    formSince := Tab.set s.halyard.formSince key (h.step + 1) } }
        | none => s
      let s := s.writeItems l k h.step h.part (s.itemsOf l h.part h.first h.count h.data) h.first
      (if h.part = 2 then s.codesDone l k h.step else s).copyDone l k h.step

/-- A write of the codes that a calibration pass has made, while the rerun of its step waits for them: no queue runs that could read or
release, so the release counter holds nothing back (R421 step 5, R431; DEDUCED: notes/assumptions/26.md). -/
def State.calibrated (s : State) (h : HeldWrite) : Bool :=
  s.job.calibrated && h.part = 2 && h.step + 1 = s.firstStep && s.job.release = .replay s.firstStep

/-- A downhaul or Plotter write to a layer's copy reaches a stack controller: it is held until the release counter has been
granted for this copy (R340). -/
def State.copyWrite (s : State) (k : Nat) (h : HeldWrite) : State :=
  if s.isHeld h.layer k h.part h.step then s
  else
    match s.copyCtr h.layer k with
    | none => s.applyCopy k h
    | some _ => if (s.stack k).released.contains (h.layer, h.step) || s.calibrated h then s.applyCopy k h
      else s.updStack k (fun x => { x with held := x.held ++ [h] })

/-- The stacks that hold an item of a write. -/
def State.writeStacks (s : State) (l : PlanLayer) (part first count : Nat) : List Nat :=
  (s.copyStacks l).filter (fun k => (s.copyPlaces l).any (fun p => p.part = part && (s.placeAddr p p.first).1 = k && p.first < first + count
    && first < p.first + p.count))

/-- The write goes to every stack that holds an item of it. -/
def State.copyWriteAll (s : State) (h : HeldWrite) : State :=
  match s.planLayer h.layer with
  | none => s
  | some l => (s.writeStacks l h.part h.first h.count).foldl (fun t k => t.copyWrite k h) s

/-- The release counter covers its threshold (R340). -/
def State.releaseReady (s : State) (k layer : Nat) : Option CopyCtr :=
  match s.copyCtr layer k with
  | some c => if (s.stack k).counter c.release ≥ c.threshold then some c else none
  | none => none

/-- The step of the oldest held writes of a layer on a stack. -/
def StackSt.heldStep (x : StackSt) (layer : Nat) : Option Nat :=
  match x.held.filter (fun h => h.layer = layer) with
  | [] => none
  | h :: t => some (t.foldl (fun a y => min a y.step) h.step)

/-- The release of a layer's oldest held copy on a stack: the threshold is consumed and the writes take effect in order (R340). -/
def State.releaseCopies (s : State) (k layer : Nat) : State :=
  match s.releaseReady k layer, (s.stack k).heldStep layer with
  | some c, some step =>
    let mine (h : HeldWrite) : Bool := h.layer = layer && h.step = step
    let held := (s.stack k).held.filter mine
    let s := s.counterTake k c.release c.threshold
    let s := s.updStack k (fun x => { x with held := x.held.filter (fun h => !mine h), released := (layer, step) :: x.released })
    held.foldl (fun t h => t.applyCopy k h) s
  | _, _ => s

/-- The held writes of a kind take effect without their release counter. -/
def State.flushOf (s : State) (sel : HeldWrite → Bool) : State :=
  (upFrom 0 numStacks).foldl (fun t k =>
    let held := (t.stack k).held.filter sel
    if held.isEmpty then t
    else held.foldl (fun u h => u.applyCopy k h) (t.updStack k (fun x => { x with held := x.held.filter (fun h => !sel h) }))) s

/-- Every held write of the module takes effect without its release counter (step 3 of R519). -/
def State.flushHeld (s : State) : State := s.flushOf (fun _ => true)

/-- The held codes of a calibration pass take effect (R431). -/
def State.flushCodes (s : State) : State := s.flushOf s.calibrated

/-- The module holds a part of a layer's copy whole for a step or a later one, on every stack that has items of it (R464). -/
def State.copyHeld (s : State) (l : PlanLayer) (part step : Nat) : Bool :=
  let ks := (s.copyStacks l).filter (fun k => (s.copyItems l k).any (fun x => x / 2 ^ 32 = part))
  !ks.isEmpty && ks.all (fun k => s.isHeld l.layer k part step)

/-! ### Downhauls (R463 to R465) -/

/-- A downhaul goes to each UP module of each chain of the layer, those that are lost skipped (R463, R465). -/
def State.sendDown (s : State) (d : DownMsg) : State :=
  (s.downTargets d.layer).foldl (fun t m => t.message m none none (.down d)) s

/-- An item of a downhaul has been forwarded before (R464). -/
def State.downHas (s : State) (d : DownMsg) (n : Nat) : Bool :=
  s.halyard.forwardedDown.any (fun x =>
    x.1 = d.layer && x.2.1 = d.step && x.2.2.1 / 2 ^ 32 = d.part && x.2.2.1 % 2 ^ 32 ≤ n && n < x.2.2.1 % 2 ^ 32 + x.2.2.2)

/-- Runs of successive numbers in an ascending list: first and count. -/
def runsOf : List Nat → List (Nat × Nat)
  | [] => []
  | n :: t => match runsOf t with
    | (a, c) :: r => if a = n + 1 then (n, c + 1) :: r else (n, 1) :: (a, c) :: r
    | [] => [(n, 1)]

/-- What a downhaul brings for the first time: all of it, or the runs of its items that have not been forwarded (R464, R557). -/
def State.downFresh (s : State) (l : PlanLayer) (d : DownMsg) : List DownMsg :=
  if !(upFrom d.first d.count).any (s.downHas d) then [d]
  else
    let items := s.itemsOf l d.part d.first d.count d.data
    (runsOf ((upFrom d.first d.count).filter (fun n => !s.downHas d n))).map (fun r =>
      { d with first := r.1, count := r.2, data := ((items.drop (r.1 - d.first)).take r.2).flatten })

/-- A piece is noted; pieces at or below the copy that the module holds need no note. -/
def State.noteDown (s : State) (d : DownMsg) : State :=
  let old (x : Nat × Nat × Nat × Nat) : Bool :=
    x.1 = d.layer && (match s.planLayer d.layer with | some l => s.copyHeld l (x.2.2.1 / 2 ^ 32) x.2.1 | none => false)
  { s with halyard := { s.halyard with forwardedDown := (d.layer, d.step, 2 ^ 32 * d.part + d.first, d.count)
      :: s.halyard.forwardedDown.filter (fun x => !old x) } }

/-- The owner's own copy is written and its downhaul sent (R463, R475). -/
def State.originDown (s : State) (d : DownMsg) : State :=
  ((s.noteDown d).copyWriteAll { layer := d.layer, step := d.step, part := d.part, first := d.first, count := d.count,
                                  data := d.data }).sendDown d

end Sys2Proof.Machine
end

