-- ==== Sys2Proof/Machine/HalyardOps.lean ====
section
/-!
DEFINITION. Halyard sums (R433 to R435), the open sums of the halyard units and their forwarding (R448 to R458), the hand-over to
the owner's update (R460, R462, R477, R503) and the calibration pass (R431).
-/

namespace Sys2Proof.Machine

/-! ### Sums -/

/-- A halyard word wraps at 48 bits (R433: no sum within the contributor bound does). -/
def word48 (x : Int) : Int := signed ((x % 2 ^ 48).toNat) 48

/-- Element by element over two lists, the longer one's rest kept. -/
def zipAdd {α : Type} (f : α → α → α) : List α → List α → List α
  | [], l => l
  | l, [] => l
  | a :: s, b :: t => f a b :: zipAdd f s t

/-- Two sums added (R433, R435). -/
def SumVal.add (a b : SumVal) : SumVal :=
  { contributors := a.contributors + b.contributors, tokens := (a.tokens + b.tokens) % 2 ^ 40, gaps := satAdd8 a.gaps b.gaps,
    saturations := satAdd16 a.saturations b.saturations, nonfinite := satAdd16 a.nonfinite b.nonfinite,
    skips := satAdd8 a.skips b.skips, excluded := satAdd8 a.excluded b.excluded, codes := zipAdd max a.codes b.codes,
    words := zipAdd (fun x y => word48 (x + y)) a.words b.words }

/-- The sum a message carries. -/
def sumVal (b : SumMsg) : SumVal :=
  { contributors := b.contributors, tokens := b.tokens, gaps := b.gaps, saturations := b.saturations, nonfinite := b.nonfinite,
    skips := b.skips, excluded := b.excluded, codes := b.codes, words := b.words }

/-- The module's own partial from the blocks of its last core (R442, R447). -/
def ownOfBlocks (bs : List DexBlock) : SumVal :=
  let b := bs.mergeSort (fun x y => x.idx ≤ y.idx)
  let l := b.getLast?
  { contributors := (l.map (fun x => x.contribs)).getD 0, tokens := (l.map (fun x => x.tokens)).getD 0, gaps := 0,
    saturations := b.foldl (fun a x => satAdd16 a x.sat) 0, nonfinite := b.foldl (fun a x => satAdd16 a x.nonfin) 0,
    skips := 0, excluded := 0, codes := b.map (fun x => x.code), words := b.flatMap (fun x => x.rows.flatten) }

/-- At most 16,777,215 contributions (R434). -/
def maxContributors : Nat := 16777215

/-! ### Open sums -/

def State.halCount (s : State) (g : Nat) (f : HalCounts → HalCounts) : State :=
  { s with halyard := { s.halyard with counts := Tab.upd .zero s.halyard.counts g f } }

/-- 2·STEP + ROUND: the place of a sum in its tile's order (R450, R431). -/
def stampOf (step round : Nat) : Nat := 2 * step + round

/-- Key of a tile. -/
def tileKey (layer tile : Nat) : Nat := 65536 * layer + tile

/-- The stamp of what was last forwarded for a tile; none when nothing was. -/
def State.lastForward (s : State) (layer tile : Nat) : Option Nat := Tab.find s.halyard.forwarded (tileKey layer tile)

/-- A sum has been forwarded, with the own partial in or without it; the latest one stands (R450). -/
def State.noteForward (s : State) (layer tile stamp : Nat) (own : Bool) : State :=
  { s with halyard := { s.halyard with
      forwarded := Tab.upd 0 s.halyard.forwarded (tileKey layer tile) (fun v => max v stamp)
      ownForwarded := if own then s.halyard.ownForwarded ++ [(tileKey layer tile, stamp)] else s.halyard.ownForwarded } }

/-- The own partial of a tile has been forwarded (R458). -/
def State.ownSent (s : State) (layer tile stamp : Nat) : Bool := s.halyard.ownForwarded.contains (tileKey layer tile, stamp)

/-- The tile's sums of a step and round have been forwarded, or a later one has (R450). -/
def State.isLate (s : State) (layer tile stamp : Nat) : Bool :=
  match s.lastForward layer tile with
  | some v => stamp ≤ v
  | none => false

def OpenSum.is (o : OpenSum) (g layer tile step round : Nat) : Bool :=
  o.group = g && o.layer = layer && o.tile = tile && o.step = step && o.round = round

def State.openSum (s : State) (g layer tile step round : Nat) : Option OpenSum :=
  s.halyard.sums.find? (fun o => o.is g layer tile step round)

def State.dropSum (s : State) (o : OpenSum) : State :=
  { s with halyard := { s.halyard with sums := s.halyard.sums.filter (fun x => !(x.is o.group o.layer o.tile o.step o.round)) } }

/-- Most open sums of a unit (R455). -/
def maxOpen : Nat := 1024

/-- Open sums of a unit (R455). -/
def State.openCount (s : State) (g : Nat) : Nat := (s.halyard.sums.filter (fun o => o.group = g)).length

/-- An open sum joins its unit, or takes the place of its earlier form. -/
def State.putSum (s : State) (o : OpenSum) : State :=
  let s1 := s.dropSum o
  let s2 := { s1 with halyard := { s1.halyard with sums := s1.halyard.sums ++ [o] } }
  s2.halCount o.group (fun c => { c with openPeak := max c.openPeak (s2.openCount o.group) })

/-- An open sum that holds nothing yet. -/
def OpenSum.fresh (g layer tile step round chain m n : Nat) : OpenSum :=
  { group := g, layer := layer, tile := tile, step := step, round := round, chain := chain, m := m, n := n, own := none, up := none, upCount := 0, tOwn := 0, tUp := 0 }

/-! ### At the owner -/

def State.roleOf (s : State) (layer : Nat) : Nat := Tab.get 0 s.plotter.role layer

/-- Tiles of a layer (R478). -/
def State.tilesOf (s : State) (layer m n : Nat) : Nat :=
  match s.schedLayer layer with
  | some r => ceilDiv r.rows (max 1 m) * ceilDiv r.cols (max 1 n)
  | none => match s.planLayer layer with | some l => l.tiles | none => 0

/-- An update waits for its sheet (R472, R477), once per layer and step. -/
def State.updateReady (s : State) (layer step : Nat) : State :=
  if s.plotter.ready.any (fun u => u.layer = layer && u.step = step)
      || s.plotter.running.any (fun r => r.2.layer = layer && r.2.step = step) then s
  else { s with plotter := { s.plotter with ready := s.plotter.ready ++ [{ layer := layer, step := step, again := false }] } }

/-- A tile's sum is handed to the layer's update (R460, R462); a calibration sum's codes go out instead (R431). -/
def State.handOver (s : State) (o : OpenSum) (v : SumVal) : State :=
  if o.round = 0 then
    s.originDown { layer := o.layer, part := 2, step := o.step - 1, first := o.tile, count := 1,
                   data := v.codes.map (fun c => BitVec.ofNat 8 c) }
  else
    let s := if v.tokens = 0 then
        (s.halCount o.group (fun c => { c with empty := satAdd32 c.empty 1 })).halEvent "HALYARD_EMPTY" clsINFO o.group [o.layer, o.tile]
      else s
    let p := s.plotter
    let first := if p.firstSum.any (fun x => x.1 = o.layer && x.2.1 = o.step) then p.firstSum
      else p.firstSum ++ [(o.layer, o.step, s.micros)]
    let hand := p.hand ++ [{ layer := o.layer, tile := o.tile, step := o.step, chain := o.chain, val := v, m := o.m, n := o.n }]
    let s := { s with plotter := { p with hand := hand, firstSum := first } }
    let got : List Nat := ((hand.filter (fun x => x.layer = o.layer && x.step = o.step)).map (fun x => x.tile)).eraseDups
    if got.length ≥ s.tilesOf o.layer o.m o.n then s.updateReady o.layer o.step else s

/-! ### Forwarding (R449, R451) -/

/-- The successors of a chain in the order of R451; OWNER counts as lost after a TAKEOVER of the layer (R502). -/
def State.successors (s : State) (c : ChainEntry) (layer : Nat) : List (Nat × Bool) :=
  let lost (m : Nat) : Bool := s.isLost m || (s.halyard.takenOver.contains layer && m = c.owner)
  [c.next, c.alt1, c.alt2, c.owner, c.mirror].map (fun m => (m, lost m))

/-- A sum message. -/
def OpenSum.msg (o : OpenSum) (v : SumVal) : SumMsg :=
  { layer := o.layer, tile := o.tile, step := o.step, round := o.round, contributors := v.contributors, tokens := v.tokens,
    gaps := v.gaps, saturations := v.saturations, nonfinite := v.nonfinite, chain := o.chain, m := o.m, n := o.n,
    skips := v.skips, excluded := v.excluded, codes := v.codes, words := v.words }

/-- What a forwarded sum holds: the own partial and the upstream sum added. -/
def OpenSum.total (o : OpenSum) (withOwn : Bool) : Option SumVal :=
  match (if withOwn then o.own else none), o.up with
  | some a, some b => some (a.add b)
  | some a, none => some a
  | none, some b => some b
  | none, none => none

/-- The owner of a layer, or the mirror that has been promoted (R460, R503). -/
def State.takesSum (s : State) (c : ChainEntry) (layer : Nat) : Bool := c.isOwner || s.roleOf layer = 3

/-- A sum of more contributions than R434 allows is discarded, logged, and stops the job. -/
def State.overflowSum (s : State) (o : OpenSum) : State :=
  ((s.dropSum o).halEvent "HALYARD_OVERFLOW" clsPROGRAM o.group [o.layer, o.tile]).askStop stPLAN_FAULT

/-- A hop forwards an open sum once: `gaps` sums missing under the Deadline case, `own` whether its own partial is in (R449). -/
def State.forwardSum (s : State) (c : ChainEntry) (o : OpenSum) (own : Bool) (gaps : Nat) : State :=
  let s := s.dropSum o
  match o.total own with
  | none => s
  | some v0 =>
    let ex := if own then 0 else 1
    let v := { v0 with gaps := satAdd8 v0.gaps gaps, excluded := satAdd8 v0.excluded ex }
    let s := s.noteForward o.layer o.tile (stampOf o.step o.round) (own && o.own.isSome)
    if v.contributors > maxContributors then s.overflowSum o
    else
      let s := s.halCount o.group (fun x => { x with forwarded := satAdd32 x.forwarded 1, gaps := satAdd32 x.gaps gaps,
                                                      excluded := satAdd32 x.excluded ex })
      if s.takesSum c o.layer then (if s.roleOf o.layer = 4 then s else s.handOver o v)
      else
        let l := s.successors c o.layer
        let k := (l.takeWhile (fun x => x.2)).length
        match l[k]? with
        | some (m, _) =>
          let s := s.halCount o.group (fun x => { x with skips := satAdd32 x.skips k })
          s.message m (some c.group) (some (8 * c.group + c.port)) (.sum (o.msg { v with skips := satAdd8 v.skips k }))
        | none =>
          (s.halCount o.group (fun x => { x with orphaned := satAdd32 x.orphaned 1 })).halEvent "HALYARD_ORPHANED" clsINFO o.group
            [o.layer, o.tile]

/-- Among the open sums of a tile and step, of both rounds, the one whose forwarding moment comes first, where `due` gives that moment (R449,
R503). -/
def State.firstDue (s : State) (sel : OpenSum → Bool) (due : OpenSum → ChainEntry → Option Nat) : Option (OpenSum × ChainEntry × Nat) :=
  let l := (s.halyard.sums.filter sel).filterMap (fun o =>
    (s.chainEntry o.chain).bind (fun c => (due o c).map (fun t => (o, c, t))))
  l.foldl (fun a x => match a with
    | some y => if x.2.2 < y.2.2 then some x else some y
    | none => some x) none

/-- Contributions that an open sum holds. -/
def OpenSum.contribs (o : OpenSum) : Nat := ((o.total true).map (fun v => v.contributors)).getD 0

/-- The own partials of a step never arrive (R519). -/
def State.ownNever (s : State) (step : Nat) : Bool := s.halyard.noOwn.any (fun x => x.1 ≤ step && step < x.2)

/-- What follows an addition to an open sum: the bound of R434, and the forwarding moments that need no timer: Complete and Head, own
partials that never come, and a promoted mirror's full count (R449, R503, R519). -/
def State.tryForward (s : State) (c : ChainEntry) (o : OpenSum) : State :=
  if o.contribs > maxContributors then s.overflowSum o
  else if s.roleOf o.layer = 3 && o.round = 1 then
    (if o.contribs ≥ c.expected then s.forwardSum c o true 0 else s.putSum o)
  else if o.own.isSome && o.upCount ≥ c.upstream then s.forwardSum c o true 0
  else if o.own.isNone && o.up.isSome && s.ownNever o.step then s.forwardSum c o false 0
  else s.putSum o

/-- The partial joins its open sum; one that is complete already stands (R458). -/
def State.ownJoin (s : State) (c : ChainEntry) (layer tile step round chain m n : Nat) (v : SumVal) (dup : State → State) : State :=
  let o := (s.openSum c.group layer tile step round).getD (OpenSum.fresh c.group layer tile step round chain m n)
  if o.own.isSome then dup s else s.tryForward c { o with own := some v, tOwn := s.micros }

/-- The module's own partial of a tile is complete at its halyard unit (R447, R450, R458). -/
def State.ownComplete (s : State) (layer tile step round chain m n : Nat) (v : SumVal) : State :=
  match s.chainEntry chain with
  | none => s
  | some c =>
    let s := s.tableRead (.chain chain)
    let st := stampOf step round
    let dup (s : State) : State := s.halCount c.group (fun x => { x with duplicate := satAdd32 x.duplicate 1 })
    let late (s : State) : State := s.halCount c.group (fun x => { x with late := satAdd32 x.late 1 })
    if s.ownSent layer tile st then dup s
    else if s.isLate layer tile st then late s
    else s.ownJoin c layer tile step round chain m n v dup

/-- A HALYARD_SUM reaches a halyard unit that takes it (R448, R450, R453 to R455). -/
def State.sumArrives (s : State) (g : Nat) (b : SumMsg) : State :=
  let bad (s : State) : State :=
    (s.halCount g (fun x => { x with malformed := satAdd32 x.malformed 1 })).halEvent "HALYARD_MALFORMED" clsINFO g [b.layer, b.tile]
  match s.chainEntry b.chain with
  | none => bad s
  | some c =>
    let s := s.tableRead (.chain b.chain)
    let wrong : Bool := match s.ownEntry b.layer b.tile b.chain with
      | some e => e.m != b.m || e.n != b.n
      | none => false
    if b.round > 1 || wrong then bad s
    else if s.roleOf b.layer = 4 then s
    else if s.isLate b.layer b.tile (stampOf b.step b.round) then
      s.halCount c.group (fun x => { x with late := satAdd32 x.late 1 })
    else
      match s.openSum c.group b.layer b.tile b.step b.round with
      | some o =>
        let v := match o.up with | some u => u.add (sumVal b) | none => sumVal b
        s.tryForward c { o with up := some v, upCount := o.upCount + 1, tUp := if o.up.isSome then o.tUp else s.micros }
      | none =>
        s.tryForward c { OpenSum.fresh c.group b.layer b.tile b.step b.round b.chain b.m b.n with
                        up := some (sumVal b), upCount := 1, tUp := s.micros }

/-- The halyard unit of a chain, or the one that a message reaches when the chain is unknown. -/
def State.unitOf (s : State) (g chain : Nat) : Nat := match s.chainEntry chain with | some c => c.group | none => g

/-- A halyard unit below its bound takes sums and own partials; at the bound it takes nothing (R455). -/
def State.unitTakes (s : State) (g : Nat) : Bool := s.openCount g < maxOpen

def State.sumTaken (s : State) (g : Nat) (b : SumMsg) : Bool := s.unitTakes (s.unitOf g b.chain)

/-- Step 2 of the abort table and of R522: units whose port group is up forward every open sum that holds an upstream sum, with
EXCLUDED + 1, and the owner's hands it over (R460); the rest is discarded (R522, R607). -/
def State.forwardOnLeave (s : State) : State :=
  let l := s.halyard.sums
  let s1 := l.foldl (fun t o =>
    match t.chainEntry o.chain with
    | some c => if o.up.isSome && !(t.groupUp o.group).isEmpty then t.forwardSum c o false 0 else t
    | none => t) s
  { s1 with halyard := { s1.halyard with sums := [] } }

/-- Open sums of the abandoned steps that hold an upstream sum go on at once with EXCLUDED + 1, and own partials of those steps
never arrive (step 2 of R519). -/
def State.abandonSums (s : State) (first target : Nat) : State :=
  let l := s.halyard.sums.filter (fun o => decide (first ≤ o.step) && decide (o.step < target) && o.up.isSome)
  let s1 := { s with halyard := { s.halyard with noOwn := s.halyard.noOwn ++ [(first, target)] } }
  l.foldl (fun t o =>
    match t.chainEntry o.chain with
    | some c => t.forwardSum c o false 0
    | none => t.dropSum o) s1

end Sys2Proof.Machine
end

