-- ==== Sys2Proof/Machine/StreamOps.lean ====
section
/-!
DEFINITION. Stream units (R327 to R336): receivers of a descriptor, where a unit stands, and the beginning of a descriptor and of
each of its repeats.
-/

namespace Sys2Proof.Machine

def StackSt.unit (k : StackSt) (u : Nat) : UnitSt := Tab.get .stopped k.units u

def State.unit (s : State) (k u : Nat) : UnitSt := (s.stack k).unit u
def State.setUnit (s : State) (k u : Nat) (x : UnitSt) : State :=
  s.updStack k (fun t => { t with units := Tab.set t.units u x })

/-- The physical core that the plan's legend gives a logical core: its place at plan load (R335). -/
def State.placeOf (s : State) (l : Nat) : Nat :=
  match s.job.plan with
  | some p => field (p.legend.getD l 0) 0 11
  | none => 0

/-- The logical core that stood at a physical core at plan load (R335). -/
def State.logicalAtLoad (s : State) (n : Nat) : Option Nat :=
  match s.job.plan with
  | some p => ((p.legend.take p.hdr.cores).map (fun x => field x 0 11)).findIdx? (fun x => x = n)
  | none => none

/-- The receivers of a descriptor, logical cores in ascending order, resolved at plan load (R335). -/
def State.receivers (s : State) (d : StreamDesc) : List Nat :=
  if d.dkind = 0 then [d.dest]
  else
    let n := s.placeOf d.dest
    let cs : List Nat :=
      if d.dkind = 1 then ((upFrom 0 6).filter (fun k => bit d.cmask k)).map (fun k => coreOfCluster (clusterOf n) k)
      else ((upFrom 0 4).filter (fun q => bit d.smask q)).flatMap (fun q =>
        ((upFrom 0 6).filter (fun k => bit d.cmask k)).map (fun k => coreOfLocalCluster (sheetOf n) q k))
    (cs.filterMap s.logicalAtLoad).mergeSort (fun a b => a ≤ b)

/-- The credit wait of a unit leaves its stack's station for a receiver as a single-flit packet on VC0 (R332, R361); without a route it is
discarded, and the receiver cannot grant it (R386). -/
def State.askCredit (s : State) (k u l : Nat) : State :=
  let src := stationSource (targetStation k)
  s.fromStation (targetStation k) (s.phys l) 1 (fun here track t =>
    let ps := t.packets src 0 here (t.phys l) track [[]]
    let x := t.unit k u
    (t.numbered src 0 1).setUnit k u { x with asks := x.asks ++ ps.map (fun p => (l, p)) })

/-- A repeat of the descriptor begins: its credit waits go out in the order of its receivers, or it is ready to send (R332). -/
def State.beginRepeat (s : State) (k u : Nat) (d : StreamDesc) (x : UnitSt) : State :=
  let rs := s.receivers d
  if d.cwaitThr != 0 && !rs.isEmpty then
    rs.foldl (fun t l => t.askCredit k u l) (s.setUnit k u { x with st := .credits, pend := rs, asks := [] })
  else s.setUnit k u { x with st := .ready, pend := [], asks := [] }

/-- The unit comes to the descriptor at a position of its list (R327). -/
def State.enterDesc (s : State) (k u pos : Nat) : State :=
  let d := s.streamDesc k u pos
  let x : UnitSt := { st := .lwait, pos := pos, rep := 0, pend := [], asks := [], out := 0, since := s.micros }
  if d.op = 0 || pos ≥ 4096 then s.setUnit k u { x with st := .ended }
  else if d.lwaitThr != 0 then s.setUnit k u x
  else s.beginRepeat k u d x

/-- Every stream unit starts its list from the first entry (R327). -/
def State.startUnits (s : State) : State :=
  (upFrom 0 (4 * numStacks)).foldl (fun t i => t.enterDesc (i / 4) (i % 4) 0) s

/-- A request cut into parts whose answers, of items of `size` bytes, fit one message (R554). -/
def gatherPieces (g : GatherMsg) (size : Nat) : List GatherMsg :=
  let n := max 1 ((65535 * 8192 - 20) / max 1 size)
  (upFrom 0 (ceilDiv g.count n)).map (fun i => { g with first := g.first + n * i, count := min n (g.count - n * i) })

/-- A request goes to a module, and its answer is awaited (R559). -/
def State.askGather (s : State) (m : Nat) (g : GatherMsg) (rest : List Nat) (use : GatherUse) : State :=
  let o : OutGather := { g := g, holder := m, rest := rest, use := use }
  ({ s with net := { s.net with gathers := s.net.gathers ++ [o] } }).message m none none (.gatherReq g)

/-- The holders of a layer after the preferred one (R353). -/
def State.otherHolders (s : State) (lay m : Nat) : List Nat :=
  ((s.job.plan.bind (fun p => Tab.find p.holders lay)).getD []).filter (fun x => x != m)

/-- No holder of a gather entry is left: the event, then step 5 of R311 (R315, R353, R509). -/
def State.noHolder (s : State) (k i : Nat) : State :=
  let t := (s.info "GATHER_FAILOVER" [k, i]).event "HBM_UNCORRECTABLE" clsB srcStack k [0]
  if t.job.wantB.contains (.stackData k) then t else t.askB (.stackData k)

/-- The tiles of a gather entry are asked of its preferred holder, or of the next holder of the layer that is not lost (R353), in requests
whose answers fit one message. -/
def State.askHolders (s : State) (k i : Nat) (e : GatherEntry) (g : GatherMsg) (again : Bool := false) : State :=
  match (e.holder :: s.otherHolders e.layer e.holder).filter s.reachable with
  | m :: rest => (gatherPieces g (if g.kind = 0 then 128 * columnBytes e.wire else 128 * 256)).foldl (fun t q => t.askGather m q rest (.entry k i again)) s
  | [] => s.noHolder k i

/-- Every gather list entry asks its preferred holder for the tiles of the step that begins (R351, R354, R559). -/
def State.startGathers (s : State) (step : Nat) : State :=
  (upFrom 0 numStacks).foldl (fun t k =>
    ((t.gatherList k).zip (upFrom 0 4096)).foldl (fun u x =>
      let e := x.1
      let g : GatherMsg := { kind := 0, aux := e.wire, tag := 0, layer := e.layer, step := step - 1, first := e.tileFirst, count := e.tileCount }
      let u := u.askHolders k x.2 e g
      if e.keepBwd then u.askHolders k x.2 e { g with kind := 1 } else u) t) s

/-- Every stream unit stops; what waits for lines for it or for the adder is read anew when it comes again. -/
def State.stopUnits (s : State) : State :=
  let stop (x : StackSt) : StackSt :=
    { x with units := x.units.map (fun q => (q.1, { q.2 with st := .stopped })), reads := x.reads.filter (fun r => !r.1.ofJob) }
  { s with hbm := s.hbm.map (fun p => (p.1, stop p.2)) }

/-- Every stream unit has reached END (R415). -/
def State.unitsEnded (s : State) : Bool :=
  (upFrom 0 (4 * numStacks)).all (fun i => decide ((s.unit (i / 4) (i % 4)).st = .ended))

end Sys2Proof.Machine
end

