-- ==== Sys2Proof/Machine/JobOps.lean ====
section
/-!
DEFINITION. Job control: stopping and releasing the queues (R78, R115, R215), job stops (R607, R631), leaving a job (R522),
class B batches (R53, R512), replay (R421) and realignment (R519); and what every command ends with.
-/

namespace Sys2Proof.Machine

/-! ### Stops -/

/-- A Plotter queue with nothing fed to it; its pennant counters stand (DESIGN CHOICE: notes/assumptions/16.md). -/
def CoreSt.clearPlot (c : CoreSt) : CoreSt :=
  { c with pq := { Queue.idle with opSeq := c.pq.opSeq }, plotStaging := none, plotFeed := [], plotRows := [], plotFwgt := [],
           plotRun := none }

/-- A Plotter queue with nothing fed to it, whose weight set holds no form (R115). -/
def CoreSt.blankPlot (c : CoreSt) : CoreSt := { c.clearPlot with plotSet := .blank }

/-- A Plotter queue is stopped: it issues nothing more, what it has issued retires, a trapped queue stays TRAPPED (R104, R105), and firmware
marks the Plotter weight set as holding no form (R115). -/
def CoreSt.stopPlot (c : CoreSt) : CoreSt :=
  { c with pq := { c.pq with st := if c.pq.st = .trapped then .trapped else .idle }, plotStaging := none, plotFeed := [], plotRows := [],
           plotSet := .blank }

/-- Every program queue and Plotter queue of the mapped cores stops (R115, R389). -/
def State.stopCores (s : State) : State := s.updCores s.mapped (fun _ c => { c.stopPlot with stopped := true })

/-- Every program queue of the mapped cores stops (R421). -/
def State.haltCores (s : State) : State := s.updCores s.mapped (fun _ c => { c with stopped := true })

/-- An update that has not reached step 4 of R474 is abandoned: it waits again, its sums kept; one past it goes on (R505). -/
def PlotterSt.stop (p : PlotterSt) : PlotterSt :=
  let back := (p.running.filter (fun x => x.2.stage < 2)).map (fun x => ({ layer := x.2.layer, step := x.2.step, again := true } : UpdReady))
  { p with running := p.running.filter (fun x => 2 ≤ x.2.stage), ready := back ++ p.ready }

/-- Step 1 of R389, R421, R512, R522 and R607: queues, stream units and Plotter queues stop. -/
def State.stopAll (s : State) : State :=
  let s := s.stopCores.stopUnits
  { s with plotter := s.plotter.stop }

/-- A checkpoint that ends before step 3 of R535 is logged as aborted (R539). -/
def State.noteAborted (s : State) (k : CkptSt) : State :=
  if k.st = 0 ∨ k.drainStep = 3 then s else s.info "CHECKPOINT_ABORTED" [k.step]

/-- An armed or draining checkpoint ends; the slot committed before stays valid (R539). -/
def State.endCheckpoint (s : State) : State :=
  let k := s.job.ckpt
  if k.st = 0 then s
  else { s with job := { s.job with ckpt := { CkptSt.idle with lastSeq := k.lastSeq } } }.noteAborted k

/-- The batch's response is over; the self-tests of the cores it fenced run on (R512 step 7). -/
def Batch.finish (b : Batch) : Batch := { Batch.idle with testing := b.testing ++ b.fenced }

def State.endBatch (s : State) : State := { s with job := { s.job with batch := s.job.batch.finish } }

/-- A batch that waits for a release has nothing more to wait for when its job ends. -/
def Batch.leave (b : Batch) : Batch := if b.stage = .release then b.finish else b

/-- INPUT and RUNNING records become FREE (R607). -/
def StepRec.abandon (r : StepRec) : StepRec := if r.st = .input ∨ r.st = .running then { r with st := .free } else r

def State.freeRecords (s : State) : State :=
  { s with job := { s.job with rec0 := s.job.rec0.abandon, rec1 := s.job.rec1.abandon } }

/-- CONTROL subtypes (R558). -/
def subALARMS : Nat := 1
def subTAKEOVER : Nat := 2
def subLEAVE : Nat := 3
def subJOIN : Nat := 4

/-- A CONTROL message to every module of the job. -/
def State.controlAll (s : State) (sub layer step value : Nat) : State := s.broadcast (.control sub layer step value)

/-- Steps 1 to 3 of the abort table and of R522. -/
def State.leaveSteps (s : State) : State :=
  let s := (s.stopAll.endCheckpoint.forwardOnLeave).controlAll subLEAVE 0 0 0
  { s with net := { s.net with beatsOn := false } }

/-- Vector 4 is raised when STEP_CURRENT has changed (R593). -/
def State.noteStep (s : State) (before : Nat) : State := if s.stepCurrent = before then s else s.vector 4

/-- A job stop with a status (R607, R631): the steps of the abort table, the event of the stop, and a capture of kind 2 (R760). -/
def State.stopJob (s : State) (status : Nat) (name : String) (cls : Nat) : State :=
  let step := s.stepCurrent
  let att := s.stepAttempt
  let s := s.leaveSteps
  let p := s.plotter
  let s := { s.freeRecords with plotter := { p with hand := [], firstSum := [], ready := [] } }
  let s := { s with job := { s.job with jobState := jsQUIESCED, stopStatus := status, stopEvent := s.log.seq,
                                        release := .none, resync := 0, calibrating := false,
                                        batch := s.job.batch.leave } }
  ((s.event name cls srcModule 0 [status]).sendCapture 2 step att false).noteStep step

/-- The plan is removed (R424, R522): the module holds no plan, and its stacks keep their contents (R525). -/
def State.unloadPlan (s : State) (role : Nat) : State :=
  let step := s.stepCurrent
  let s := ((s.stopAll.endCheckpoint).freeRecords).noteStep step
  let p := s.plotter
  let last := match s.job.plan with | some q => some (q.hdr.jobId, q.hdr.moduleId) | none => s.job.lastJob
  { s with
    plotter := { p with hand := [], firstSum := [], ready := [], running := [], role := [], rung := [], alarms := [] }
    halyard := { s.halyard with sums := [], takenOver := [] }
    flight := .reset
    net := { s.net with beatsOn := false, gathers := [], held := [], backlog := [], peers := s.net.peers.map (fun q => { q with tx := [], rx := [] }) }
    job := { s.job with plan := none, jobState := jsNO_PLAN, role := role, release := .none, resync := 0, lastJob := last,
                        started := false, calibrating := false, replayed := false, rejoin := false, switched := [],
                        batch := s.job.batch.leave } }

/-- The response to class C faults (R522): the module leaves the job. -/
def State.leaveJob (s : State) : State :=
  if s.job.plan.isNone then s
  else ((s.leaveSteps).unloadPlan 3).event "MODULE_LEFT" clsC srcModule 0 []

/-! ### Release at QBASE (R78, R115, R215) -/

/-- Rows of the program part of accumulator memory (R213). -/
def CoreSt.progRows (c : CoreSt) : Nat := 4096 - c.window

/-- What firmware does to a core before a release: program rows cleared (R215), weight sets hold no form (R115), and everything
that an earlier execution left in flight is gone. -/
def CoreSt.clearRun (c : CoreSt) : CoreSt :=
  { c with fq := .idle, aq := .idle, vq := .idle, dq := .idle,
           acc := c.acc.filter (fun p => p.1 ≥ 128 * c.progRows), accErr := c.accErr.filter (fun p => p.1 ≥ 64 * c.progRows),
           active := .blank, shadow := .blank, shadowFull := false, fwgtWait := [], floadRun := [], staging := [],
           mmulRun := none, mmulCount := 0, dexitCount := [], codes := none, merge := [], dexits := [], tri := [],
           recvs := [], recvAsked := false, recvHeld := [], loads := [], vc4 := [], reported := false }

/-- The queues of a core are released at QBASE (R78); draws are counted from 0 again (R176). -/
def CoreSt.release (c : CoreSt) (regions : List Nat × List Nat) (free : Nat) : CoreSt :=
  let q (i : Nat) : Queue := { Queue.idle with qbase := regions.1.getD i 0, qlen := regions.2.getD i 0, st := .run }
  { c.clearRun with fq := q 0, aq := q 1, vq := q 2, dq := q 3, pq := { c.pq with opSeq := 0 }, stopped := false, tallyBase := c.tally.retired,
                    counterBase := c.counters, freeBase := free, alarms := [] }

/-- Pennants from the plan image (R78). -/
def CoreSt.loadPennants (c : CoreSt) (l : List Nat) : CoreSt := { c with pen := (upFrom 0 32).zip l }

def State.loadPennants (s : State) : State :=
  match s.job.plan with
  | none => s
  | some p => ((upFrom 0 s.planCores)).foldl (fun t l => t.updCore (t.phys l) (fun c => c.loadPennants (p.pennants.getD l []))) s

/-- Controller counters from the plan image (R331). -/
def State.loadCounters (s : State) : State :=
  match s.job.plan with
  | none => s
  | some p => (upFrom 0 numStacks).foldl (fun t k => t.updStack k (fun x =>
      { x with counters := (upFrom 0 256).map (fun i => (i, Tab.get 0 p.counters (256 * k + i))), released := [] })) s

/-- The queues of all mapped cores and the stream units are released for a step (R78, R327); a capture pending for them is taken
in the ACLK before (R761). -/
def State.releaseQueues (s : State) : State :=
  match s.job.plan with
  | none => s
  | some p =>
    let s := s.captureAtRelease s.mapped
    let s := (upFrom 0 s.planCores).foldl (fun t l =>
      let f := t.fresh
      f.2.updCore (f.2.phys l) (fun c => c.release (s.programOf l (p.cores.getD l ⟨[], [], 0, []⟩)) f.1)) s
    (s.startUnits).startGathers s.stepCurrent

/-- Tagged and gathered data that a dropped execution has asked for is asked for no more. -/
def State.dropGathers (s : State) : State :=
  { s with net := { s.net with gathers := s.net.gathers.filter (fun o =>
      match o.use with | .recv _ _ => false | .entry _ _ _ => false | _ => true) } }

/-! ### Replay (R421) -/

/-- Scale tables of the mapped cores from SCALES; none leaves them as they are (R195). -/
def State.restoreFrom (s : State) : Option (List (Tab ScaleEntry)) → State
  | none => s
  | some l => (upFrom 0 s.planCores).foldl (fun t n => t.updCore (t.phys n) (fun c => { c with scales := l.getD n [] })) s

/-- Scale tables of the mapped cores from a record's SCALES (R195). -/
def State.restoreScales (s : State) (r : StepRec) : State := s.restoreFrom (some r.scales)

/-- Scale tables of the mapped cores, by logical core. -/
def State.takeScales (s : State) : List (Tab ScaleEntry) := (upFrom 0 s.planCores).map (fun l => (s.core (s.phys l)).scales)

/-- Steps 3 and 4 of R421 on the RUNNING record, whose queues have stopped; the release waits for its condition. -/
def State.rewind (s : State) (r : StepRec) : State :=
  let s := s.updCores s.mapped (fun _ c => c.clearRun)
  let s := ((s.loadPennants).loadCounters).restoreScales r
  let s := s.setRec r.step { r with attempt := (r.attempt + 1) % 256 }
  { s with job := { s.job with replays := satAdd32 s.job.replays 1, release := .replay r.step } }

/-- Steps 1 to 4 of R421 on the RUNNING record. Own partials that are not complete are blocks in flight, and go with everything in
flight (R457). -/
def State.beginReplay (s : State) : State :=
  match s.running with
  | none => s
  | some r =>
    let s := s.haltCores.stopUnits
    let ctl := s.gaz.ctl
    let s := s.updCores s.mapped (fun n c => c.wasteStep (ctl n))
    let s := (({ s with flight := .reset }).dropGathers).rewind r
    { s with job := { s.job with replayed := true } }

/-- Step 5 of R421: every copy that step s reads stands whole in the state of step s − 1, with nothing of a later one written over it, and
so do the codes, whose two slots let the codes of step s stand beside them (R427); a calibration pass does without codes (R431). -/
def State.copiesReady (s : State) (step : Nat) : Bool :=
  s.planLayers.all (fun l => (s.copyStacks l).all (fun k =>
    let newer (code : Bool) (t : Nat) : Bool :=
      s.halyard.written.any (fun x => x.1 = 64 * l.layer + k && decide (x.2.2 / 2 ^ 32 = 2) = code && decide (t ≤ x.2.1))
    let copies := (s.copyItems l k).filter (fun x => x / 2 ^ 32 != 2)
    (copies.isEmpty || (s.heldNext l.layer k 0 = some step && !newer false step))
    && (s.job.calibrating || (s.codeItems l k).isEmpty
      || ((s.heldNext l.layer k 2 = some step || s.heldNext l.layer k 2 = some (step + 1)) && !newer true (step + 1)))))

/-! ### Realignment (R519) -/

/-- The threshold with which the first read of a layer's copy on a stack waits on its arrival counter (R341). -/
def State.firstReadThr (s : State) (k ctr : Nat) : Nat :=
  let ds := (upFrom 0 4).flatMap (fun u => (s.streamList k u).map streamDescOf)
  match ds.find? (fun d => d.op != 0 && d.lwaitThr != 0 && d.lwaitIdx = ctr) with
  | some d => d.lwaitThr
  | none => 1

/-- Step 3 of R519: each arrival counter covers its first read when the copy is already of step s′ − 1, and is 0 otherwise. -/
def State.setArrivals (s : State) (target : Nat) : State :=
  match s.job.plan with
  | none => s
  | some p => p.copyCtrs.foldl (fun t c =>
      let v := if t.heldNext c.layer c.stack 0 = some target then t.firstReadThr c.stack c.arrival else 0
      t.updStack c.stack (fun x => { x with counters := Tab.set x.counters c.arrival v })) s

/-- Contributions of steps that are not abandoned stay in flight at a realignment (R519). -/
def FlightSt.keepBefore (f : FlightSt) (first : Nat) : FlightSt :=
  { FlightSt.reset with contribs := f.contribs.filter (fun m => m.step < first) }

/-- Steps 1 to 4 of R519: from the first abandoned step to step s′, with the SCALES of the record of step s (none: the tables stay as they
are), which stay at hand for a further decision (R515). -/
def State.realign (s : State) (scales : Option (List (Tab ScaleEntry))) (first target : Nat) : State :=
  let step := s.stepCurrent
  let s := s.stopAll
  let j := s.job
  let s := { s with job := { j with rec0 := StepRec.free, rec1 := StepRec.free, resync := target, release := .realign target,
                                    next := target, abandoned := satAdd32 j.abandoned (target - first),
                                    realigns := satAdd32 j.realigns 1, replayed := false, calibrating := false,
                                    resyncScales := scales } }
  let s := (s.info "STEP_RESYNC" [target]).abandonSums first target
  let s := (s.flushHeld.loadCounters).setArrivals target
  let s := { s with halyard := { s.halyard with copyFloor := target - 1 }, flight := s.flight.keepBefore first }
  ((((s.updCores s.mapped (fun _ c => c.clearRun)).dropGathers).loadPennants).noteStep step).restoreFrom scales

/-- s_p: the highest reading step in heartbeats of the last 8 ms (R516). -/
def State.peerStep (s : State) : Nat :=
  ((s.net.peers.filter (fun p => p.present && p.active)).flatMap (fun p =>
    (p.readings.filter (fun x => s.micros ≤ x.1 + 8000)).map (fun x => x.2))).foldl max 0

/-- Step 6 of R512: replay when s_p ≤ s, realignment otherwise (R517). A realignment that waits for its release is decided afresh, and not
back to an earlier step (R515; DESIGN CHOICE: notes/assumptions/28.md). -/
def State.replayOrRealign (s : State) : State :=
  match s.running with
  | none => if s.job.resync = 0 then s else s.realign s.job.resyncScales s.job.resync (max (s.peerStep + 1) s.job.resync)
  | some r => if s.peerStep ≤ r.step then s.beginReplay else s.realign (some r.scales) r.step (s.peerStep + 1)

/-! ### Class B batches (R53, R512, R515) -/

def faultBSrc : FaultB → Nat × Nat
  | .core n => (srcCore, n)
  | .router n => (srcLink, 4 * n)
  | .link l => (srcLink, l)
  | .stackData k => (srcStack, k)
  | .neatSegment k => (srcLink, neatLink k 0 0)
  | .neatChannel k d => (srcLink, neatLink k d 0)

/-- A batch begins: the job stops and the routing reload drains (R389, R512). -/
def State.startBatch (s : State) (fs : List FaultB) : State :=
  let s := s.stopAll
  { s with fabric := { s.fabric with reload := .draining, reloadFails := 0 }
           job := { s.job with release := .none, batch := { s.job.batch with stage := .reload, faults := fs, next := [] } } }

/-- Class B faults are logged, counted and join a batch (R53, R512, R515). -/
def State.classB (s : State) (fs : List FaultB) : State :=
  let s := fs.foldl (fun t f => t.event "CLASS_B_FAULT" clsB (faultBSrc f).1 (faultBSrc f).2 []) s
  let s := { s with job := { s.job with classB := satAdd32 s.job.classB fs.length } }
  let b := s.job.batch
  if b.stage != .reload then s.startBatch fs
  else if s.fabric.reload = .draining then { s with job := { s.job with batch := { b with faults := b.faults ++ fs } } }
  else { s with job := { s.job with batch := { b with next := b.next ++ fs } } }

def faultCSrc : FaultC → Nat × Nat
  | .sheetLost n => (srcSheet, n)
  | .fabricRail n => (srcSheet, n)
  | .plane n => (srcSheet, n)
  | .stack k => (srcStack, k)
  | .portGroup g => (srcPort, 8 * g)
  | .noReserve => (srcModule, 0)

/-- What a class C fault takes from the wafer (R387, R649, R678). -/
def State.loseC (s : State) : FaultC → State
  | .sheetLost n => s.darken n
  | .plane n => s.darken n
  | .fabricRail n => s.routersFail (sheetCores n)
  | _ => s

/-- Class C faults are logged and counted, and the module leaves the job (R522). -/
def State.classC (s : State) (fs : List FaultC) : State :=
  let s := fs.foldl State.loseC s
  let s := fs.foldl (fun t f => t.event "CLASS_C_FAULT" clsC (faultCSrc f).1 (faultCSrc f).2 []) s
  { s with job := { s.job with classC := satAdd32 s.job.classC fs.length } }.leaveJob

/-! ### The end of a command -/

/-- The wishes of the command that runs are forgotten. -/
def State.clearWants (s : State) : State :=
  { s with job := { s.job with wantStop := none, wantB := [], wantC := [] } }

/-- A plan is loaded and no stop has ended its job. -/
def State.inJob (s : State) : Bool := s.job.jobState = jsRUNNING || s.job.jobState = jsLOADED

/-- Job control acts on what the command has found: class B faults, a job stop, class C faults. What these find in a job that
they end is moot. -/
def State.settle (s : State) : State :=
  let j := s.job
  let s := s.clearWants
  let s := if j.wantB.isEmpty then s else s.classB j.wantB
  let s := match j.wantStop with
    | some st => if s.inJob then s.stopJob st "JOB_STOPPED" clsPROGRAM else s
    | none => s
  (if j.wantC.isEmpty then s else s.classC j.wantC).clearWants

/-- A command that has its effect. -/
def done (s : State) : Res := .next s.settle

end Sys2Proof.Machine
end

