-- ==== Sys2Proof/Machine/Order.lean ====
section
/-!
DEFINITION. What stands in front of a queue: fetching (R79, R248), waits and raises (R86, R87), the decode causes of every opcode (R250 to
R252), the ordering conditions (R74, R76, R77, R95, R108, R110, R446), the order in which the queues of a core take one counter (R89), and
whether the instruction issues, waits or traps.
-/

namespace Sys2Proof.Machine

/-! ### Pennants and instructions -/

/-- One of the 32 pennant counters of a core (R85). -/
def CoreSt.pennant (c : CoreSt) (i : Nat) : Nat := Tab.get 0 c.pen i
def CoreSt.setPennant (c : CoreSt) (i v : Nat) : CoreSt := { c with pen := Tab.set c.pen i v }

/-- A pennant counter as a queue sees it: the core's, or one of the four of the Plotter queue (R101), which the low bits of an index
name (DESIGN CHOICE: notes/assumptions/16.md). -/
def CoreSt.pennantOf (c : CoreSt) (q : QName) (i : Nat) : Nat := if q = .plotter then Tab.get 0 c.plotPen (i % 4) else c.pennant i
def CoreSt.setPennantOf (c : CoreSt) (q : QName) (i v : Nat) : CoreSt :=
  if q = .plotter then { c with plotPen := Tab.set c.plotPen (i % 4) v } else c.setPennant i v

/-- Remote raises of a core that are sent and not delivered, or wait in its queues to retire (R95). -/
def State.remoteOut (s : State) (n : Nat) : Nat :=
  let c := s.core n
  (s.flight.raises.filter (fun r => r.src = n)).length
    + ([c.fq, c.aq, c.vq, c.dq].map (fun q => (q.ops.filter (fun o => o.remote.isSome)).length)).foldl (· + ·) 0

/-- The instruction at a queue's program counter (R248); the Plotter queue takes what the sheet's Plotter has fed to it (R250). -/
def CoreSt.fetch (c : CoreSt) (q : QName) : InstrWord :=
  let Q := c.queue q
  if q = .plotter then c.plotFeed.getD Q.pc 0
  else BitVec.ofNat 128 (leNat (Memory.readN c.istore (16 * (Q.qbase + Q.pc)) 16))

/-- The pennant counter, threshold and whether the wait consumes: PWAIT's own fields, the common fields of the others; PRAISE
carries no wait (R86, R297, R298). -/
def waitOf (w : InstrWord) : Nat × Nat × Bool :=
  if opcodeOf w = 0x01 then ((pwaitF w).index, (pwaitF w).thr, !(pwaitF w).peek)
  else if opcodeOf w = 0x02 then (0, 0, false)
  else (waitIndexOf w, waitThresholdOf w, true)

/-- The raise that an instruction's operation carries: index, increment, remote target (R87, R299). -/
def raiseOf (w : InstrWord) : Nat × Nat × Option Nat :=
  if opcodeOf w = 0x01 then (0, 0, none)
  else if opcodeOf w = 0x02 then ((praiseF w).index, (praiseF w).inc, if (praiseF w).remote then some (praiseF w).target else none)
  else (raiseIndexOf w, raiseIncrementOf w, none)

/-! ### Causes and conditions of the Dispatch instructions -/

/-- Data bytes of a DSTORE or DLOAD: stack and address, or none when the range leaves its region (R292, R795). -/
def State.moveRange (s : State) (n : Nat) (f : DmoveF) : Option (Nat × Nat) :=
  match (s.regionRef n f.region s.stepCurrent).range with
  | some (k, a, len) => if f.offset + f.len ≤ len then some (k, a + f.offset) else none
  | none => none

/-- The region of a DSTORE is of kind STAGING or GENERAL (R293, R321); an input slot entry is neither (R795). -/
def storeKind : RegionRef → Bool
  | .region r => r.kind = 4 || r.kind = 7
  | _ => false

def dstoreCauses (n : Nat) (s : State) (_ : CoreSt) (w : InstrWord) : Causes :=
  let f := dmoveF w
  [(cRESERVED_FIELD, opf w 24 0 != 0), (cFIELD_CODE, f.lmem),
   (cADDR_RANGE, f.laddr + f.len > actBytes || !storeKind (s.regionRef n f.region s.stepCurrent) || (s.moveRange n f).isNone)]

def dloadCauses (n : Nat) (s : State) (_ : CoreSt) (w : InstrWord) : Causes :=
  let f := dmoveF w
  [(cRESERVED_FIELD, opf w 24 0 != 0),
   (cADDR_RANGE, f.laddr + f.len > memBytes f.lmem || (s.moveRange n f).isNone)]

/-- The receive table entry of a tag for a core (R295, R562). -/
def State.recvEntry (s : State) (n tag : Nat) : Option RecvEntry :=
  match s.job.plan, s.logicalOf n with
  | some p, some l => p.receive.find? (fun e => e.tag = tag && e.core = l)
  | _, _ => none

def drecvCauses (n : Nat) (s : State) (_ : CoreSt) (w : InstrWord) : Causes :=
  let f := drecvF w
  [(cRESERVED_FIELD, opf w 42 0 != 0),
   (cADDR_RANGE, (s.recvEntry n f.tag).isNone || f.daddr + f.len > memBytes f.dmem)]

/-- Tile that the next DEXIT of an entry takes (R436). -/
def HalEntry.tileAt (e : HalEntry) (n : Nat) : Nat :=
  if e.nextKind = 2 then e.tileFirst + n % e.tileCount else e.tileFirst + n

/-- The halyard entry that a DEXIT of a core names (R439). -/
def State.entryOf (s : State) (n htab : Nat) : Option HalEntry := (s.logicalOf n).bind (fun l => s.halEntry l htab)

/-- Where the code record slot of a DEXIT's tile lies in step s, and its length; none when the region does not exist or the
record's two slots do not lie in it (R427, R439, R446). -/
def State.codeRange (s : State) (n htab : Nat) : Option (Nat × Nat × Nat) :=
  match s.entryOf n htab with
  | none => none
  | some e =>
    let i := e.tileAt (Tab.get 0 (s.core n).dexitCount htab) - e.tileFirst
    let step := s.stepCurrent
    let start := 64 * (e.codeOffset + i * e.codeStride)
    let slot := 64 * (e.codeStride / 2)
    match (s.regionRef n e.codeRegion step).range with
    | some (k, a, len) => if start + slot + ceilDiv e.m 8 ≤ len then some (k, a + start + step % 2 * slot, ceilDiv e.m 8) else none
    | none => none

/-- An entry that R437 puts under R349. -/
def State.entryFaulty (s : State) (e : HalEntry) : Bool := e.bad || (s.chainEntry e.chain).isNone

/-- The causes of a DEXIT that the plan's tables decide (R437, R440, R446). -/
def dexitPlanCauses (n : Nat) (s : State) (c : CoreSt) (w : InstrWord) : Causes :=
  let f := dexitF w
  dexitCauses c w ++
    (match s.entryOf n f.htab with
    | none => [(cADDR_RANGE, true)]
    | some e =>
      if s.entryFaulty e then []
      else [(cFIELD_CODE, f.ledger != (e.nextKind = 2) || e.m != f.m || e.n != f.n),
            (cADDR_RANGE, (e.nextKind != 2 && Tab.get 0 c.dexitCount f.htab ≥ e.tileCount) || (s.codeRange n f.htab).isNone)])

/-- The codes of a DEXIT are missing: there are codes to read, and Dispatch does not hold them (R446). -/
def codesMissing (n : Nat) (s : State) (c : CoreSt) (w : InstrWord) : Bool :=
  c.codes.isNone && (s.codeRange n (dexitF w).htab).isSome
    && (match s.entryOf n (dexitF w).htab with | some e => !s.entryFaulty e | none => false)

/-! ### Ordering conditions -/

/-- Every earlier operation of the queue has retired, or of all program queues for a FENCE of core scope (R76). -/
def fenceReady (q : QName) (c : CoreSt) (w : InstrWord) : Bool :=
  if opf w 91 91 = 1 then programQueues.all (fun x => (c.queue x).ops.isEmpty) else (c.queue q).ops.isEmpty

/-- An MMUL issues when no earlier one is entering rows and, if it enters any, its first slot is full (R69). -/
def mmulReady (c : CoreSt) (w : InstrWord) : Bool :=
  let f := mmulF w
  c.mmulRun.isNone && (f.m = 0 || f.n = 0 || f.k = 0 || !c.staging.isEmpty)

/-- A Plotter MMUL issues when every earlier FWGT has completed, no other MMUL is entering rows and, if it enters any, the Plotter's rows are there (R103, R119). -/
def plotMmulReady (c : CoreSt) (w : InstrWord) : Bool :=
  let f := mmulF w
  c.plotRun.isNone && c.plotFwgt.isEmpty && (f.m = 0 || f.n = 0 || f.k = 0 || c.plotStaging.isSome || !c.plotRows.isEmpty)

/-- MSWAP waits until FWGT has filled the shadow set and every earlier row has entered (R70, R110, R119). -/
def mswapReady (c : CoreSt) : Bool := c.shadowFull && c.mmulRun.isNone

/-- The core as a Plotter instruction's decode sees it: its rows select the Plotter weight set, and the window is its own (R98, R250). -/
def CoreSt.plotView (c : CoreSt) : CoreSt := { c with active := c.plotSet, window := 0 }

def CoreSt.viewOf (c : CoreSt) (q : QName) : CoreSt := if q = .plotter then c.plotView else c

/-- The causes from RESERVED_FIELD to OPERAND_FORM that an instruction holds at a queue, and those of its loops (R251, R252). -/
def State.causes (s : State) (n : Nat) (q : QName) (w : InstrWord) : Causes :=
  let c := (s.core n).viewOf q
  match opcodeOf w with
  | 0x01 => pwaitCauses w
  | 0x02 => praiseCauses s.planCores w
  | 0x03 => fenceCauses w
  | 0x04 => loopCauses w ++ [(cLOOP_DEPTH, loopCount w != 0 && (c.queue q).loops.length ≥ 4)]
  | 0x05 => bareCauses w ++ [(cLOOP_UNMATCHED, (c.queue q).loops.isEmpty)]
  | 0x06 => bareCauses w
  | 0x10 => floadCauses c false w
  | 0x11 => floadCauses c true w
  | 0x12 => fwgtCauses w
  | 0x20 => mmulCauses c w
  | 0x21 => mswapCauses w
  | 0x30 => vopCauses c w
  | 0x31 => vredCauses c w
  | 0x32 => vquantCauses c w
  | 0x33 => vtstoreCauses c w
  | 0x34 => vrandCauses w
  | 0x40 => dsendCauses s.planCores w
  | 0x41 => dstoreCauses n s c w
  | 0x42 => dloadCauses n s c w
  | 0x43 => dexitPlanCauses n s c w
  | 0x44 => drecvCauses n s c w
  | _ => []

/-- The ordering condition of an instruction at a queue holds (R69, R74, R76, R77, R110, R446). -/
def State.ordered (s : State) (n : Nat) (q : QName) (w : InstrWord) : Bool :=
  let c := s.core n
  match opcodeOf w with
  | 0x03 => fenceReady q c w
  | 0x06 => (c.queue q).ops.isEmpty
  | 0x20 => if q = .plotter then plotMmulReady c w else mmulReady c w
  | 0x21 => if q = .plotter then true else mswapReady c
  | 0x43 => !codesMissing n s c w
  | _ => true

/-! ### In-flight slots (R101, R108) -/

/-- Array operations of the Plotter queue: what is no vector operation, FWGT and MSWAP among it (DESIGN CHOICE:
notes/assumptions/16.md). -/
def plotArray (op : Nat) : Bool := op < 0x30

/-- The queue has no in-flight slot for an operation of an opcode. -/
def Queue.full (Q : Queue) (q : QName) (op : Nat) : Bool :=
  !isControl op && (if q = .plotter then
      (Q.ops.filter (fun o => plotArray o.opcode = plotArray op)).length ≥ (if plotArray op then plotArraySlots else plotVectorSlots)
    else Q.inflight ≥ slotsOf q)

/-! ### Bounds beyond the core (R95, R111) -/

/-- Outstanding requests of a read that waits: a stream tile's is one per 576-byte group (R339). -/
def requestsOf (p : Consumer × LineWait) : Nat :=
  match p.1 with
  | .stream _ => ((p.2.need.map (fun l => l / 8)).eraseDups).length
  | _ => if p.2.need.isEmpty then 0 else 1

/-- Outstanding requests of a stack controller: DLOADs, host reads, the reads of stream units, gathers and the adder, and what the other
consumers wait for, by group (R312, R339). -/
def State.outstanding (s : State) (k : Nat) : Nat :=
  let other (c : Consumer) : Bool := match c with | .dload _ => false | .host => false | c => !c.holds
  (s.cores.map (fun p => (p.2.loads.filter (fun w => w.wait.stack = k)).length)).foldl (· + ·) 0
    + (s.host.reads.filter (fun w => w.stack = k)).length
    + (s.host.inflight.filter (fun c => match c.wait with | some w => w.stack = k | none => false)).length
    + ((s.stack k).reads.map requestsOf).foldl (· + ·) 0
    + (((s.stack k).fetches.flatMap (fun f => (f.consumers.filter other).map (fun c => (c, f.line / 8)))).eraseDups).length

/-- The controller stops issuing (R111, R339). -/
def State.stackFull (s : State) (k : Nat) : Bool := s.outstanding k ≥ 512

/-- An instruction stalls at a bound beyond the core: 32 remote raises, or a stack controller's requests (R95, R111). -/
def State.stalled (s : State) (n : Nat) (w : InstrWord) : Bool :=
  match opcodeOf w with
  | 0x02 => (raiseOf w).2.2.isSome && s.remoteOut n ≥ 32
  | 0x41 => (match s.moveRange n (dmoveF w) with | some x => s.stackFull x.1 | none => false)
  | 0x42 => (match s.moveRange n (dmoveF w) with | some x => s.stackFull x.1 | none => false)
  | _ => false

/-! ### In front of a queue -/

/-- What stands in front of a queue. -/
inductive Stand where
  /-- the queue does not issue: not released, stopped, halted, trapped, or fed nothing. -/
  | still
  /-- it waits, in a state of R80 and on a counter. -/
  | wait (st : QState) (i : Nat)
  /-- it traps with a cause (R252). -/
  | trap (cause : Nat)
  /-- it issues. -/
  | go
  deriving DecidableEq, Repr

/-- The same before the queues of a core are set against each other. Of several conditions that fail together the first shows: missing
codes (R446), then the pennant, the slot, and the order (DESIGN CHOICE: notes/assumptions/34.md). -/
def State.standAlone (s : State) (n : Nat) (q : QName) : Stand :=
  let c := s.core n
  let Q := c.queue q
  if (q != .plotter && c.stopped) || Q.st = .idle || Q.st = .halted || Q.st = .trapped then .still
  else if Q.pc ≥ Q.qlen then (if q = .plotter then .still else .trap cPC_RANGE)
  else
    let w := c.fetch q
    let o := opcodeOf w
    let x := waitOf w
    let wrong := wrongQueue o q
    if o = 0x43 && !wrong && codesMissing n s c w then .wait .waitOrder 0
    else if x.2.1 != 0 && c.pennantOf q x.1 < x.2.1 then .wait .waitPennant x.1
    else if !opcodeListed o then .trap cOPCODE
    else if !wrong && Q.full q o then .wait .waitSlot 0
    else if !wrong && s.stalled n w then .wait .waitSlot 0
    else if !wrong && !s.ordered n q w then .wait .waitOrder 0
    else
      match lowestCause ((cWRONG_QUEUE, wrong) :: s.causes n q w) with
      | some k => .trap k
      | none => .go

/-- The queues that come before one in the order of R89. -/
def queuesBefore (q : QName) : List QName := if q = .plotter then [] else programQueues.takeWhile (fun p => p != q)

/-- A queue's front consumes a counter. -/
def CoreSt.consumes (c : CoreSt) (q : QName) (i : Nat) : Bool :=
  let x := waitOf (c.fetch q)
  x.2.2 && x.2.1 != 0 && x.1 = i

/-- A queue that comes before one takes the same counter in this ACLK (R89). -/
def State.outranked (s : State) (n : Nat) (q : QName) : Bool :=
  let c := s.core n
  let i := (waitOf (c.fetch q)).1
  c.consumes q i && (queuesBefore q).any (fun p => s.standAlone n p = .go && c.consumes p i)

/-- What stands in front of a queue among the program queues of its core (R89). -/
def State.standProgram (s : State) (n : Nat) (q : QName) : Stand :=
  match s.standAlone n q with
  | .still => .still
  | .wait st i => .wait st i
  | x => if ((s.core n).queue q).pc < ((s.core n).queue q).qlen && s.outranked n q then .wait .waitPennant (waitOf ((s.core n).fetch q)).1 else x

/-- Operations of the vector unit. -/
def vectorOpcode (op : Nat) : Bool := op / 16 = 3

/-- A program vector operation can issue, and a Plotter one yields to it (R99). -/
def State.yields (s : State) (n : Nat) (q : QName) : Bool :=
  let c := s.core n
  q = .plotter && vectorOpcode (opcodeOf (c.fetch .plotter)) && s.standProgram n .vector = .go && vectorOpcode (opcodeOf (c.fetch .vector))

/-- What stands in front of a queue (R74, R79, R86, R89, R95, R99, R108, R252). -/
def State.stand (s : State) (n : Nat) (q : QName) : Stand :=
  match s.standProgram n q with
  | .go => if s.yields n q then .wait .waitOrder 0 else .go
  | x => x

/-- A program queue of a core is granted a wait on a counter in this ACLK (R333). -/
def State.localGrant (s : State) (n i : Nat) : Bool :=
  programQueues.any (fun p => s.standAlone n p = .go && (s.core n).consumes p i)

end Sys2Proof.Machine
end

