-- ==== Sys2Proof/Machine/Sram.lean ====
section
/-!
DEFINITION. SEC-DED of a core's activation store, stream buffer and instruction store (R511): what an instruction reads of them, the
single-bit errors that it corrects, and the errors that it cannot.
-/

namespace Sys2Proof.Machine

/-- Latent errors meet a read of bytes a … a + n − 1 of a memory: 64-bit words with a single-bit error, and whether one has more. -/
def CoreSt.sramMeets (c : CoreSt) (mem a n : Nat) : List (Nat × Nat) :=
  c.sramErr.filter (fun p => p.1 / 2 ^ 24 = mem && n != 0 && a / 8 ≤ p.1 % 2 ^ 24 && p.1 % 2 ^ 24 ≤ (a + n - 1) / 8)

/-- What a window row reads of the activation store (R147 to R149). -/
def windowReads (d : Desc) (pos k0 klen : Nat) : List (Nat × Nat × Nat) :=
  let at' (k : Nat) (size : Nat → Nat × Nat) : Option (Nat × Nat × Nat) :=
    (windowOffset d.dims (k / d.c) pos).map (fun o => (memAct, (d.base + o + (size (k % d.c)).1) % actBytes, (size (k % d.c)).2))
  if isBlockForm d.form then
    (upFrom 0 (ceilDiv klen 32)).filterMap (fun b => at' (k0 + 32 * b) (fun ch => (ch / 32 * blockBytes d.form, blockBytes d.form)))
  else
    (upFrom k0 klen).filterMap (fun k => at' k (fun ch => if d.form = 0 then (2 * ch, 2) else if d.form = 9 then (ch / 2, 1) else (ch, 1)))

/-- What the A operand reads of the activation store (R259). -/
def srcReads (f : SrcF) (m : Nat) : List (Nat × Nat × Nat) :=
  if f.acc then [] else [(memAct, 64 * f.addr, m * (if f.rfmt = 1 then 256 else 512))]

/-- What an instruction reads of its core's memories, as (memory, address, bytes). -/
def CoreSt.operandReads (c : CoreSt) (w : InstrWord) : List (Nat × Nat × Nat) :=
  match opcodeOf w with
  | 0x10 | 0x11 =>
    let f := floadF w
    let d := (FloadRun.descriptor { word := w, desc := Memory.readN c.act f.desc 64, row := 0, key := 0 })
    (memAct, f.desc, 64) :: (upFrom f.m0 f.m).flatMap (fun pos => windowReads d pos f.k0 f.klen)
  | 0x12 => [(memSbuf, (fwgtF w).addr, (fwgtF w).n * columnBytes (fwgtF w).form)]
  | 0x30 =>
    let f := vopF w
    srcReads f.src f.m ++ (if f.bmode = 1 then [(memAct, f.b, 512 * f.m)] else if f.bmode = 2 then [(memAct, f.b, 512)]
      else if f.bmode = 3 then [(memAct, f.b, 16 * f.m)] else [])
  | 0x31 => srcReads (vredF w).src (vredF w).m
  | 0x32 => srcReads (vquantF w).src (vquantF w).m
  | 0x33 => srcReads (vtstoreF w).src (vtstoreF w).m
  | 0x40 => [(memAct, (dsendF w).src, (dsendF w).len)]
  | 0x41 => [(memAct, (dmoveF w).laddr, (dmoveF w).len)]
  | _ => []

/-- What the instruction in front of a queue reads: itself, and its operands. -/
def CoreSt.sramReads (c : CoreSt) (q : QName) (w : InstrWord) : List (Nat × Nat × Nat) :=
  (if q = .plotter then [] else [(memIstore, 16 * ((c.queue q).qbase + (c.queue q).pc), 16)]) ++ c.operandReads w

/-- An instruction reads its core's memories: a single-bit error is corrected in line and counted, and a word with more is a class B fault of
the core, which issues nothing then (R511); the reads are those of the whole instruction (notes/assumptions/7.md). -/
def State.sramRead (s : State) (n : Nat) (q : QName) (w : InstrWord) : State × Bool :=
  if (s.core n).sramErr.isEmpty then (s, true)
  else
    let l := ((s.core n).sramReads q w).flatMap (fun r => (s.core n).sramMeets r.1 r.2.1 r.2.2)
    let k := (l.filter (fun p => p.2 = 1)).length
    let s := { s with job := { s.job with sramCorrected := satAdd32 s.job.sramCorrected k } }.count n evSRAM_CORRECTED 0 1 k
    if l.all (fun p => p.2 = 1) then (s, true) else (s.askB (.core n), false)

end Sys2Proof.Machine
end

