-- ==== Sys2Proof/Machine/Transc.lean ====
section
/-!
DEFINITION. The functions of R280 that are stated only within a bound in units of the last place. A free value of Config is
taken where it lies within the bound, and the value nearest the function otherwise. The functions are formed in fixed point
with 160 fractional bits. notes/assumptions/8.md.
-/

namespace Sys2Proof.Machine

/-- Fractional bits of the fixed-point numbers. -/
def fxBits : Nat := 160
def fxOne : Int := 2 ^ 160

/-- Product and quotient of fixed-point numbers. -/
def fxMul (a b : Int) : Int := a * b / fxOne
def fxDiv (a b : Int) : Int := a * fxOne / b

/-- ±m·2^e in fixed point, its magnitude limited to 2^512. -/
def fxOf (neg : Bool) (m : Nat) (e : Int) : Int :=
  let s := e + 160
  sgn neg (if 0 ≤ s then m * 2 ^ (min s.toNat 700) else m / 2 ^ (-s).toNat)

/-- A fixed-point number as a value times 2^k. -/
def fxFp (x k : Int) : Fp := .fin (decide (x < 0)) x.natAbs (k - 160)

/-- Σ z^(2i+1)/(2i+1): the inverse hyperbolic tangent, `n` terms from i. -/
def fxAtanhF (z2 : Int) : Nat → (i : Nat) → (p : Int) → Int
  | 0, _, _ => 0
  | n + 1, i, p => p / (2 * (i : Int) + 1) + fxAtanhF z2 n (i + 1) (fxMul p z2)

def fxAtanh (z : Int) : Int := fxAtanhF (fxMul z z) 120 0 z

/-- Σ (−1)^i z^(2i+1)/(2i+1): the inverse tangent of small z. -/
def fxAtan (z : Int) : Int := fxAtanhF (-(fxMul z z)) 120 0 z

def fxLn2 : Int := 2 * fxAtanh (fxDiv fxOne (3 * fxOne))
def fxPi : Int := 16 * fxAtan (fxDiv fxOne (5 * fxOne)) - 4 * fxAtan (fxDiv fxOne (239 * fxOne))

/-- Σ r^i/i!, `n` terms from i. -/
def fxExpF (r : Int) : Nat → (i : Nat) → (p : Int) → Int
  | 0, _, _ => 0
  | n + 1, i, p => p + fxExpF r n (i + 1) (fxMul p r / ((i : Int) + 1))

/-- e^x of a fixed-point number, as a value. -/
def fxExp (x : Int) : Fp :=
  if x > 400 * fxOne then .fin false 1 512
  else if x < -400 * fxOne then .fin false 1 (-512)
  else
    let k := (x + fxLn2 / 2) / fxLn2
    fxFp (fxExpF (x - k * fxLn2) 60 0 fxOne) k

/-- ln of a positive value. -/
def fpLn (m : Nat) (e : Int) : Fp :=
  let l := Nat.log2 m
  let f := fxOf false m (-(l : Int))
  fxFp (2 * fxAtanh (fxDiv (f - fxOne) (f + fxOne)) + ((l : Int) + e) * fxLn2) 0

/-- e^x of a finite value. -/
def fpExp (neg : Bool) (m : Nat) (e : Int) : Fp := fxExp (fxOf neg m e)

def fpOne : Fp := .fin false 1 0

/-- 1/(1 + e^−x). -/
def fpSigmoid (neg : Bool) (m : Nat) (e : Int) : Fp :=
  let t := fxExp (fxOf true m e)
  (if neg then t else fpOne).div (fpOne.add t)

/-- tanh x; the series below |x| = 2^−12, where its next term is under 2^−72 of the value. -/
def fpTanh (neg : Bool) (m : Nat) (e : Int) : Fp :=
  if m = 0 then .fin neg 0 0
  else if ((Nat.log2 m : Nat) : Int) + e < -12 then
    let x : Fp := .fin neg m e
    let x2 := x.mul x
    let b := (x2.mul (.fin false 2 0)).div (.fin false 15 0)
    x.mul (fpOne.add (x2.mul (b.add ((Fp.fin true 1 0).div (.fin false 3 0)))))
  else
    let t := fxExp (2 * fxOf true m e)
    let v := (fpOne.add t.neg).div (fpOne.add t)
    if neg then v.neg else v

/-- x·sigmoid(x). -/
def fpSilu (neg : Bool) (m : Nat) (e : Int) : Fp := (Fp.fin neg m e).mul (fpSigmoid neg m e)

/-- √(2/π) in fixed point. -/
def fxRoot2Pi : Int := (isqrt ((2 * fxOne * fxOne * fxOne / fxPi).toNat) : Nat)

/-- The tanh form of GELU: ½·x·(1 + tanh(√(2/π)·(x + 0.044715·x³))) = x·sigmoid(2·√(2/π)·(x + 0.044715·x³)). -/
def fpGelu (neg : Bool) (m : Nat) (e : Int) : Fp :=
  let x : Fp := .fin neg m e
  let c := (Fp.fin false 44715 0).div (.fin false 1000000 0)
  let u := (x.add (c.mul (x.mul (x.mul x)))).mul (fxFp (2 * fxRoot2Pi) 0)
  match u with
  | .fin n m' e' => x.mul (fpSigmoid n m' e')
  | _ => x

/-- cos of π·x for 0 ≤ x ≤ 1 in fixed point. -/
def fxCosF (y2 : Int) : Nat → (i : Nat) → (p : Int) → Int
  | 0, _, _ => 0
  | n + 1, i, p => p + fxCosF y2 n (i + 2) (-(fxMul p y2) / (((i : Int) + 1) * ((i : Int) + 2)))

def fpCosPi (m : Nat) (e : Int) : Fp :=
  let x := fxOf false m e
  let y := if 2 * x > fxOne then fxOne - x else x
  let t := fxMul y fxPi
  let v := fxCosF (fxMul t t) 60 0 fxOne
  if 2 * x = fxOne then .fin false 0 0 else fxFp (if 2 * x > fxOne then -v else v) 0

/-- |c − v| ≤ n units in the last place of FP32 at v. -/
def withinUlp (n : Nat) (c : Word32) (v : Fp) : Bool :=
  match val32 c, v with
  | .fin _ _ _, .fin _ m e =>
    match (val32 c).add v.neg with
    | .fin _ dm de => !(magGt dm de n (fp32F.gridExp m e))
    | _ => false
  | _, _ => false

/-- The free candidate where it lies within the bound of the function's value v, else v rounded to nearest. -/
def boundedFree (n : Nat) (cand : Word32) (v : Fp) : Word32 := if withinUlp n cand v then cand else toFp32 v

/-- Special values of R791: the result for infinite, zero, negative and NaN inputs, if the table states one. -/
def vopSpecial (func : Nat) (x : Fp) : Option Word32 :=
  match x with
  | .nan => some nan32
  | .inf n =>
    some (if func = 0x10 then (if n then zero32 false else inf32 false)
      else if func = 0x11 ∨ func = 0x13 then (if n then nan32 else if func = 0x11 then inf32 false else zero32 false)
      else if func = 0x12 then zero32 n
      else if func = 0x14 then toFp32 (.fin n 1 0)
      else if func = 0x15 then (if n then zero32 false else toFp32 fpOne)
      else (if n then zero32 true else inf32 false))
  | .fin n m _ =>
    if m = 0 then
      some (if func = 0x10 then toFp32 fpOne
        else if func = 0x11 then inf32 true
        else if func = 0x12 ∨ func = 0x13 then inf32 n
        else if func = 0x15 then toFp32 (.fin false 1 (-1))
        else zero32 n)
    else if n && (func = 0x11 || func = 0x13) then some nan32
    else none

/-- The bound of R280 in units of the last place. -/
def vopUlps (func : Nat) : Nat := if func = 0x12 then 1 else if func ≤ 0x13 then 2 else 4

/-- The function's value on a non-zero finite input. -/
def vopExact (func : Nat) (n : Bool) (m : Nat) (e : Int) : Fp :=
  if func = 0x10 then fpExp n m e
  else if func = 0x11 then fpLn m e
  else if func = 0x12 then fpOne.div (.fin n m e)
  else if func = 0x13 then (fpOne.div (.fin n m e)).sqrt
  else if func = 0x14 then fpTanh n m e
  else if func = 0x15 then fpSigmoid n m e
  else if func = 0x16 then fpGelu n m e
  else fpSilu n m e

/-- VOP functions 0x10 to 0x17 (R280, R791). -/
def vopTransc (func : Nat) (a : Word32) : Word32 :=
  match vopSpecial func (val32 a) with
  | some w => w
  | none =>
    match val32 a with
    | .fin n m e => boundedFree (vopUlps func) (Config.vopValue func a) (vopExact func n m e)
    | _ => nan32

end Sys2Proof.Machine
end

