-- ==== Sys2Proof/Machine/VectorMath.lean ====
section
/-!
DEFINITION. The vector unit (R225 to R228, R260 to R262, R278 to R287): operand reads, VOP, VRED, VQUANT, VTSTORE and VRAND
as functions of one core.
-/

namespace Sys2Proof.Machine

/-- What the lanes of an operation round with (R171, R173, R176, R262). -/
structure LaneRnd where
  mode : Nat
  bits : Nat
  key : DrawKey
  deriving DecidableEq, Repr

/-- The rounding of a lane: its e-th in the operation, in row `row`, the `slot`-th of that ACLK (R177, R178). -/
def LaneRnd.at (r : LaneRnd) (lane e row slot : Nat) : Rnd :=
  if r.mode = 0 then .rne else if r.mode = 1 then .rtz else .sr r.bits (r.key.rho r.bits lane e row slot)

/-- A word with every NaN read as the canonical NaN (R155). -/
def canon32 (w : Word32) : Word32 := if isNan32 w then nan32 else w

/-! ### Operand reads -/

/-- round(s + e) of an FP32 pair, s itself when it is not finite; the words read and the sum are flushed (R182, R226, R227). -/
def pairSum (modes : Nat) (a b : Word32) : Word32 × Flushes :=
  let s := flush32 modes a
  let e := flush32 modes b
  let v := flush32 modes (if isFin32 s.1 then add32 s.1 e.1 else canon32 s.1)
  (v.1, orFlush s.2 (orFlush e.2 v.2))

/-- One value of an accumulator entry in a read format (R226), flushed under R227. -/
def readFmt (modes rfmt : Nat) (a b : Word32) : Word32 × Flushes :=
  if rfmt = 1 then (int32 a.toInt, 0)
  else if rfmt = 2 then pairSum modes a b
  else flush32 modes (canon32 (if rfmt = 4 then b else a))

/-- A BF16 code as FP32, under the BF16 subnormal mode (R181, R182). -/
def readBf16 (modes c : Nat) : Word32 × Flushes :=
  let r := readElem modes fBF16 c
  (toFp32 r.1, r.2)

/-- The descaling factor of a DSC field (R261). -/
def descale (c : CoreSt) (dsc : Nat) (w : Word32) : Word32 :=
  if dsc = 0 then w
  else
    let t (i : Nat) : Int := (Tab.get ScaleEntry.zero c.scales i).t
    toFp32 ((val32 w).scale (t (dsc - 1) + t dsc))

/-- Row m of the A operand (R226, R227, R261). A subnormal is flushed by the class that it is read in (R772): a BF16 source by its own. -/
def readRow (modes : Nat) (c : CoreSt) (f : SrcF) (m : Nat) : List Word32 × Flushes :=
  let vs : List (Word32 × Flushes) :=
    if f.acc then
      let r := field f.addr 0 12 + m * f.w
      (upFrom 0 128).map (fun j => readFmt modes f.rfmt (c.accGet r j) (if f.w = 2 then c.accGet (r + 1) j else 0))
    else if f.rfmt = 1 then
      (upFrom 0 128).map (fun j => readBf16 modes (leNat (c.actBytesAt (64 * f.addr + 256 * m + 2 * j) 2)))
    else
      (upFrom 0 128).map (fun j => flush32 modes (canon32 (BitVec.ofNat 32
        (leNat (c.actBytesAt (64 * f.addr + 512 * m + 4 * j) 4)))))
  let ds := vs.map (fun p =>
    let d := descale c f.dsc p.1
    let d := if !f.acc && f.rfmt = 1 then (d, 0) else flush32 modes d
    (d.1, orFlush p.2 d.2))
  (ds.map (fun p => p.1), ds.foldl (fun a p => orFlush a p.2) 0)

/-- What reading the accumulator rows of the A operand meets (R244, R245). -/
def srcScan (c : CoreSt) (f : SrcF) (m : Nat) : Nat × Option (Nat × Nat) :=
  if f.acc then c.accScan (field f.addr 0 12) (m * f.w) f.w 128 else (0, none)

/-- All rows of the A operand. -/
def readRows (modes : Nat) (c : CoreSt) (f : SrcF) (m : Nat) : List (List Word32) × Flushes :=
  let rs := (upFrom 0 m).map (readRow modes c f)
  (rs.map (fun p => p.1), rs.foldl (fun a p => orFlush a p.2) 0)

/-- An FP32 row of the activation store (B operand). -/
def readB (modes : Nat) (c : CoreSt) (a : Nat) : List Word32 × Flushes :=
  let rs := (upFrom 0 128).map (fun j => flush32 modes (canon32 (BitVec.ofNat 32 (leNat (c.actBytesAt (a + 4 * j) 4)))))
  (rs.map (fun p => p.1), rs.foldl (fun a p => orFlush a p.2) 0)

/-- Bytes written to the activation store. -/
def CoreSt.writeAct (c : CoreSt) (a : Nat) (l : List Byte) : CoreSt :=
  CoreSt.renewSram { c with act := Memory.writeN c.act a l } memAct a l.length

/-- FP32 words as bytes. -/
def wordBytes (l : List Word32) : List Byte := (l.map (fun w => leBytes w.toNat 4)).flatten

/-! ### VOP -/

/-- The FP32 result of a VOP function (R280) on A and B; `keep` is the mask bit. -/
def vopValue (func : Nat) (a b : Word32) (keep : Bool) : Word32 :=
  if func = 0 then a
  else if func = 1 then add32 a b
  else if func = 2 then sub32 a b
  else if func = 3 then mul32 a b
  else if func = 4 then max32 a b
  else if func = 5 then min32 a b
  else if func = 6 then canon32 (abs32 a)
  else if func = 7 then canon32 (neg32 a)
  else if func = 8 then (if keep then a else zero32 false)
  else if func = 9 then max32 a (zero32 false)
  else vopTransc func a

/-- The B values and mask bits of row m (R279). -/
def vopB (modes : Nat) (c : CoreSt) (f : VopF) (m : Nat) : List Word32 × Flushes :=
  if f.bmode = 1 then readB modes c (f.b + 512 * m) else if f.bmode = 2 then readB modes c f.b else ([], 0)

def maskBit (c : CoreSt) (f : VopF) (m j : Nat) : Bool :=
  f.bmode = 3 && bit (c.actByte (f.b + 16 * m + j / 8)).toNat (j % 8)

/-- Row m of a VOP: the bytes written, with the flushes and conversion counts. -/
def vopRow (modes : Nat) (r : LaneRnd) (c : CoreSt) (f : VopF) (m : Nat) : List Byte × Flushes × ConvCount :=
  let a := readRow modes c f.src m
  let b := vopB modes c f m
  let vs := (upFrom 0 128).map (fun j =>
    flush32 modes (vopValue f.func (a.1.getD j 0) (b.1.getD j 0) (maskBit c f m j)))
  let fl := vs.foldl (fun x p => orFlush x p.2) (orFlush a.2 b.2)
  if f.bf16 then
    let cs := (vs.zip (upFrom 0 128)).map (fun p => convPlain modes fBF16 0 (r.at p.2 m m 0) (val32 p.1.1))
    ((cs.map (fun p => leBytes p.1 2)).flatten, fl, cs.foldl (fun x p => x.add p.2) .zero)
  else (wordBytes (vs.map (fun p => p.1)), fl, .zero)

/-- VOP over its rows in ascending order: row m is read, then written at D + m·size, before row m + 1 is read. -/
def vopRows (modes : Nat) (r : LaneRnd) (f : VopF) : List Nat → CoreSt → CoreSt
  | [], c => c
  | m :: l, c =>
    let x := vopRow modes r c f m
    vopRows modes r f l (((c.writeAct (f.d + m * (if f.bf16 then 256 else 512)) x.1).addFlush x.2.1).addConv x.2.2)

/-! ### VRED -/

/-- The first element's value for a reduction (R281). -/
def redStart (func : Nat) (x : Word32) : Word32 :=
  if func = 2 then canon32 (abs32 x) else if func = 3 then mul32 x x else x

/-- One further element (R281). -/
def redStep (func : Nat) (a x : Word32) : Word32 :=
  if func = 0 then add32 a x else if func = 1 then max32 a x else if func = 2 then max32 a (abs32 x)
  else add32 a (mul32 x x)

/-- A reduction along its axis; every sum and square is flushed under R182. -/
def reduce (modes func : Nat) : List Word32 → Word32 × Flushes
  | [] => (zero32 false, 0)
  | x :: l => l.foldl (fun a y =>
      let q := flush32 modes (if func = 3 then mul32 y y else y)
      let s := flush32 modes (if func = 3 then add32 a.1 q.1 else redStep func a.1 y)
      (s.1, orFlush a.2 (orFlush q.2 s.2))) (flush32 modes (redStart func x))

/-- VRED (R281): M values, or one row of 128 values. -/
def vredBytes (modes : Nat) (c : CoreSt) (f : VredF) : List Byte × Flushes :=
  let a := readRows modes c f.src f.m
  let rs : List (Word32 × Flushes) :=
    if f.axis then (upFrom 0 128).map (fun j => reduce modes f.func (a.1.map (fun r => r.getD j 0)))
    else a.1.map (reduce modes f.func)
  (wordBytes (rs.map (fun p => p.1)), rs.foldl (fun x p => orFlush x p.2) a.2)

/-! ### VQUANT -/

/-- Larger of two FP32 magnitudes among finite words. -/
def maxAbs (a b : Word32) : Word32 := if isFin32 b && numLt a (abs32 b) then abs32 b else a

/-- Tensor scale of an entry (R192): t, for plain 8- and 4-bit forms. -/
def isScaled (form : Nat) : Bool := form = 1 || form = 2 || form = 6 || form = 9

/-- The largest finite input magnitude joins the entry's current-step amax (R192). -/
def CoreSt.noteAmax (c : CoreSt) (form tent : Nat) (l : List Word32) : CoreSt :=
  { c with scales := Tab.upd ScaleEntry.zero c.scales tent (fun s => { s with form := form, cur := l.foldl maxAbs s.cur }) }

/-- Conversion of a run of values as blocks or plain codes: bytes and counts. `rnd i` and `pen i` give the rounding of
element i and that of the pennant of block i. -/
def convRun (modes form : Nat) (t : Int) (rnd pen : Nat → Rnd) (l : List Word32) : List Byte × ConvCount :=
  if isBlockForm form then
    let bs := ((chunks 32 l).zip (upFrom 0 (ceilDiv l.length 32))).map (fun p =>
      convBlock modes form (fun i => rnd (32 * p.2 + i)) (pen p.2) (p.1.map val32))
    ((bs.map (Block.bytes form)).flatten, bs.foldl (fun a b => a.add b.cnt) .zero)
  else
    let cs := (l.zip (upFrom 0 l.length)).map (fun p => convPlain modes form t (rnd p.2) (val32 p.1))
    (packCodes (elemBits form) l.length (cs.map (fun p => p.1)), cs.foldl (fun a p => a.add p.2) .zero)

/-- Exponent that a conversion applies: the entry's t for plain 8- and 4-bit forms. -/
def tensorExp (c : CoreSt) (form tent : Nat) : Int :=
  if isScaled form then (Tab.get ScaleEntry.zero c.scales tent).t else 0

/-- The order of a lane's roundings in rows with a pennant after each block's element 0 (R180). -/
def rowOrd (form j m : Nat) : Nat := if form = 8 ∧ j % 32 = 0 then 2 * m else m

/-- Row m of a VQUANT with BLKAXIS 0 (R283). -/
def vquantRow (modes : Nat) (r : LaneRnd) (c : CoreSt) (f : VquantF) (m : Nat) : List Byte × Flushes × ConvCount × List Word32 :=
  let a := readRow modes c f.src m
  let x := convRun modes f.form (tensorExp c f.form f.tent) (fun j => r.at j (rowOrd f.form j m) m 0)
    (fun b => r.at (32 * b) (2 * m + 1) m 1) a.1
  (x.1, a.2, x.2, a.1)

def vquantRows (modes : Nat) (r : LaneRnd) (f : VquantF) : List Nat → CoreSt → CoreSt
  | [], c => c
  | m :: l, c =>
    let x := vquantRow modes r c f m
    let c := ((c.writeAct (f.d + m * f.pitch) x.1).addFlush x.2.1).addConv x.2.2.1
    vquantRows modes r f l (if isScaled f.form then c.noteAmax f.form f.tent x.2.2.2 else c)

/-- The order of a lane's roundings down a column of a weight tile image (R180, R284). -/
def colOrd (form m : Nat) : Nat := if form = 8 then m + ceilDiv m 32 else m

/-- Zero bytes that close a column of the image: zero codes, scale 0x7F and no pennant (R265, R284). -/
def zeroColumn (form : Nat) : List Byte :=
  if isBlockForm form then
    ((List.replicate (kT form / 32) (⟨List.replicate 32 0, 127, none, .zero⟩ : Block)).map (Block.bytes form)).flatten
  else zeros (columnBytes form)

/-- Column j of the weight tile image of a VQUANT with BLKAXIS 1 (R284). -/
def vquantCol (modes : Nat) (r : LaneRnd) (t : Int) (form j : Nat) (l : List Word32) : List Byte × ConvCount :=
  let x := convRun modes form t (fun m => r.at j (colOrd form m) m 0) (fun b => r.at j (33 * b + 1) (32 * b) 1) l
  (x.1 ++ (zeroColumn form).drop x.1.length, x.2)

def vquantImage (modes : Nat) (r : LaneRnd) (c : CoreSt) (f : VquantF) : CoreSt :=
  let a := readRows modes c f.src f.m
  let cols := (upFrom 0 128).map (fun j =>
    vquantCol modes r (tensorExp c f.form f.tent) f.form j (a.1.map (fun row => row.getD j 0)))
  let c1 := ((c.writeAct f.d ((cols.map (fun p => p.1)).flatten)).addFlush a.2).addConv
    (cols.foldl (fun x p => x.add p.2) .zero)
  if isScaled f.form then c1.noteAmax f.form f.tent a.1.flatten else c1

/-! ### VTSTORE and VRAND -/

/-- Destination row i of a VTSTORE: runs of bytes at offsets (R286): whole rows for BF16 and FP32, element bytes and scale
bytes for MXFP8. -/
def vtstoreRow (modes : Nat) (r : LaneRnd) (f : VtstoreF) (i : Nat) (l : List Word32) : List (Nat × List Byte) × ConvCount :=
  if f.form = 11 then ([(0, wordBytes l)], .zero)
  else if f.form = 0 then
    let x := convRun modes 0 0 (fun m => r.at i m m 0) (fun _ => .rne) l
    ([(0, x.1)], x.2)
  else
    let bs := ((chunks 32 l).zip (upFrom 0 (ceilDiv l.length 32))).map (fun p =>
      (p.2, p.1.length, convBlock modes f.form (fun k => r.at i (32 * p.2 + k) (32 * p.2 + k) 0) .rne (p.1.map val32)))
    ((bs.map (fun b => [(33 * b.1, (Block.bytes f.form b.2.2).take b.2.1),
        (33 * b.1 + 32, [BitVec.ofNat 8 b.2.2.scale])])).flatten,
      bs.foldl (fun a b => a.add b.2.2.cnt) .zero)

def writeRuns (a : Nat) : List (Nat × List Byte) → CoreSt → CoreSt
  | [], c => c
  | (o, b) :: l, c => writeRuns a l (c.writeAct (a + o) b)

def vtstoreRows (modes : Nat) (r : LaneRnd) (f : VtstoreF) (rows : List (List Word32)) : List Nat → CoreSt → CoreSt
  | [], c => c
  | i :: l, c =>
    let x := vtstoreRow modes r f i (rows.map (fun row => row.getD i 0))
    vtstoreRows modes r f rows l ((writeRuns (f.d + i * (4 * f.dpitch)) x.1 c).addConv x.2)

/-- Mask row m of a VRAND: lane j sets bit j when its 16-bit field is below P (R287). -/
def vrandRow (r : LaneRnd) (p m : Nat) : List Byte :=
  (upFrom 0 16).map (fun b => BitVec.ofNat 8 ((upFrom 0 8).foldl (fun a i =>
    if r.key.rho 16 (8 * b + i) m m 0 < p then a + 2 ^ i else a) 0))

def vrandRows (r : LaneRnd) (f : VrandF) : List Nat → CoreSt → CoreSt
  | [], c => c
  | m :: l, c => vrandRows r f l (c.writeAct (f.d + 16 * m) (vrandRow r f.p m))

end Sys2Proof.Machine
end

