-- ==== Sys2Proof/Machine/CoreOps.lean ====
section
/-!
DEFINITION. What the engine queues share: the issue of an instruction with its waits and traps (R74, R86,
R252, R253, R254, R297), pennant raises (R87, R90, R95), retirement (R75) and traps (R104, R105).
-/

namespace Sys2Proof.Machine

/-! ### Traps -/

/-- Number of a queue in the order of R81; 5 stands for EXTERNAL (R105). -/
def QName.code : QName → Nat
  | .fetch => 0
  | .array => 1
  | .vector => 2
  | .dispatch => 3
  | .plotter => 4

/-- CORE_TRAP: logical core (0xFFFF for none), queue, cause, PC (R105). -/
def State.trapEvent (s : State) (n q cause pc : Nat) : State :=
  s.event "CORE_TRAP" clsPROGRAM srcCore n [(s.logicalOf n).getD 0xFFFF, q, cause, pc]

/-- A queue's STATE becomes TRAPPED, and its CORE_TRAP is logged (R105). -/
def State.trapQueue (s : State) (n : Nat) (x : QName × Nat) : State :=
  let c := s.core n
  let Q := c.queue x.1
  (s.setCore n (c.setQueue x.1 { Q with st := .trapped })).trapEvent n (QName.code x.1) x.2 Q.pc

/-- The queues of a core with an instruction in front that traps, in the order of R254, with their causes. -/
def State.trapping (s : State) (n : Nat) : List (QName × Nat) :=
  [QName.fetch, .array, .vector, .dispatch, .plotter].filterMap (fun p => match s.stand n p with | .trap k => some (p, k) | _ => none)

/-- Queues trap in one ACLK: each logs its own CORE_TRAP, every queue of the core stops issuing, and job control is to stop the job
(R104, R105, R254). -/
def State.trapAll (s : State) (n : Nat) (l : List (QName × Nat)) : State :=
  ((l.foldl (fun t x => t.trapQueue n x) s).updCore n (fun c => { c with stopped := true })).askStop stPROGRAM_TRAP

/-- A queue traps, and with it every other queue of the core whose instruction in front traps in this ACLK (R254). -/
def State.trap (s : State) (n : Nat) (q : QName) (cause : Nat) : State :=
  let l := s.trapping n
  s.trapAll n (l.filter (fun x => QName.code x.1 < QName.code q) ++ (q, cause) :: l.filter (fun x => QName.code q < QName.code x.1))

/-- A trap whose raise comes from outside the core: queue EXTERNAL, PC 0, no queue TRAPPED for it (R105). -/
def State.trapExternal (s : State) (n cause : Nat) : State := (s.trapEvent n 5 cause 0).trapAll n (s.trapping n)

/-! ### Pennants -/

/-- A raise of a pennant counter (R85, R90); `q` is the queue whose operation raises, none from outside. -/
def State.raise (s : State) (n i inc : Nat) (q : Option QName) : State :=
  let x := q.getD .dispatch
  let v := (s.core n).pennantOf x i + inc
  let s := s.updCore n (fun c => c.setPennantOf x i (min v 65535))
  if v ≤ 65535 then s
  else
    match q with
    | some x => s.trap n x cPENNANT_SATURATED
    | none => s.trapExternal n cPENNANT_SATURATED

/-- A remote raise goes out on VC0 to the physical core that the logical map gives (R91, R95); without a route it is discarded
(R386). -/
def State.sendRaise (s : State) (n target i inc : Nat) : State :=
  let s := (s.count n evREMOTE_RAISES 0 1 1).tableRead (.legend n target)
  let d := s.phys target
  let ps := s.packets n 0 n d [] [[]]
  (s.numbered n 0 1).routed n d 1 (fun t =>
    let rs : List RaiseMsg := ps.map (fun p => { src := n, dst := d, idx := i, inc := inc, pkt := p, place := .flying })
    { t with flight := { t.flight with raises := t.flight.raises ++ rs } })

/-! ### Retirement (R75, R297) -/

/-- The raise that an operation carries takes effect as it retires (R87, R299). -/
def State.retireRaise (s : State) (n : Nat) (q : QName) (o : Op) : State :=
  match o.remote with
  | some t => s.sendRaise n t o.raiseIdx o.raiseInc
  | none => if o.raiseInc = 0 then s else s.raise n o.raiseIdx o.raiseInc (some q)

/-- Control instructions at the head of a queue retire as soon as every earlier operation has (R297). -/
def State.drainControl (s : State) (n : Nat) (q : QName) : Nat → State
  | 0 => s
  | f + 1 =>
    match ((s.core n).queue q).ops with
    | o :: rest =>
      if o.control then
        let s := s.updCore n (fun c => c.setQueue q { c.queue q with ops := rest })
        State.drainControl (s.retireRaise n q o) n q f
      else s
    | [] => s

/-- The oldest operation of a queue retires, when its engine has finished it (R75). -/
def State.retireOp (s : State) (n : Nat) (q : QName) : State :=
  match ((s.core n).queue q).ops with
  | o :: rest =>
    if o.done then
      let s := s.updCore n (fun c => c.setQueue q { c.queue q with ops := rest })
      (s.retireRaise n q o).drainControl n q rest.length
    else s
  | [] => s

/-- Marks the operation of a queue with a key finished. -/
def State.finishOp (s : State) (n : Nat) (q : QName) (key : Nat) : State :=
  s.updCore n (fun c => c.setQueue q ((c.queue q).finish (fun _ => true) key))

/-! ### Issue -/

def State.setQState (s : State) (n : Nat) (q : QName) (st : QState) (i : Nat) : State :=
  s.updCore n (fun c => c.setQueue q { c.queue q with st := st, waitIndex := i })

/-- An instruction has issued: its wait is consumed, the program counter moves on, and it counts in OP_SEQ when it draws (R86,
R253, R262). -/
def State.issued (s : State) (n : Nat) (q : QName) (w : InstrWord) (draws : Bool) : State :=
  let x := waitOf w
  let s := s.updCore n (fun c =>
    let c := if x.2.2 && x.2.1 != 0 then c.setPennantOf q x.1 (c.pennantOf q x.1 - x.2.1) else c
    let Q := c.queue q
    { c.setQueue q { Q with pc := Q.pc + 1, st := .run, opSeq := if draws then (Q.opSeq + 1) % 2 ^ 31 else Q.opSeq }
      with issueSeq := c.issueSeq + 1 })
  s.count n evISSUE (2 ^ QName.code q) 1 1

/-- The operation of an instruction enters its queue's list; `done` when its engine has finished it. -/
def State.enqueueOp (s : State) (n : Nat) (q : QName) (w : InstrWord) (key : Nat) (isDone : Bool) : State :=
  let r := raiseOf w
  s.updCore n (fun c => c.setQueue q { c.queue q with ops := (c.queue q).ops ++
    [{ opcode := opcodeOf w, raiseIdx := r.1, raiseInc := r.2.1, seq := key, done := isDone, key := key,
       control := isControl (opcodeOf w), remote := r.2.2 }] })

/-- The instruction in front at a core's queue, as a row of the table meets it. -/
inductive Front where
  /-- the queue does not issue: not released, stopped, halted or trapped. -/
  | still
  /-- another row's instruction, or none of the table's, traps or waits. -/
  | other (s : State)
  /-- this row's instruction issues, with the ordinal it takes in its core. -/
  | go (w : InstrWord) (key : Nat)

/-- The instruction in front of queue `q` of core `n` belongs to the row of opcode `op`, or to none of the table's. -/
def State.rowOf (s : State) (n : Nat) (q : QName) (op : Nat) : Bool :=
  let c := s.core n
  let o := opcodeOf (c.fetch q)
  (c.queue q).pc ≥ (c.queue q).qlen || o = op || !opcodeListed o

/-- Everything that precedes the effect of an instruction of opcode `op` at queue `q` of core `n` (R74, R79, R86, R95, R108, R252). -/
def State.front (s : State) (n : Nat) (q : QName) (op : Nat) : Front :=
  if !s.rowOf n q op then .still
  else
    match s.stand n q with
    | .still => .still
    | .wait st i => .other (s.setQState n q st i)
    | .trap k => .other (s.trap n q k)
    | .go => .go ((s.core n).fetch q) (s.core n).issueSeq

/-- Issue of a row's instruction: core and queue exist, the checks of `front`, what it reads of the core's memories (R511), then the effect on
the state after issue. -/
def issue (s : State) (n : Nat) (q : QName) (op : Nat) (draws : InstrWord → Bool) (eff : State → InstrWord → Nat → State) : Res :=
  withCore n
    (match s.front n q op with
    | .still => .next s
    | .other t => done t
    | .go w key =>
      let x := s.sramRead n q w
      if x.2 then done (eff (x.1.issued n q w (draws w)) w key) else done x.1)

/-- No operand that draws random bits. -/
def never (_ : InstrWord) : Bool := false

/-! ### Uncorrectable accumulator reads (R245) -/

/-- ACC_UNCORRECTABLE with row and column pair, a class B fault of the core (R245). -/
def State.accBad (s : State) (n row pair : Nat) : State :=
  (s.event "ACC_UNCORRECTABLE" clsB srcCore n [row, pair]).askB (.core n)

/-- An operation that reads accumulator rows: the corrections counted, then its effect, or the fault of R245 that leaves it
unfinished. -/
def State.withAccRead (s : State) (n : Nat) (scan : Nat × Option (Nat × Nat)) (ok : State → State) : State :=
  let s := s.updCore n (fun c => c.addCorrected scan.1)
  match scan.2 with
  | some (r, p) => s.accBad n r p
  | none => ok s

/-! ### Draws (R176, R178) -/

/-- The draw key of an operation of a core's Vector or Dispatch queue (R176): the step's seed and number in KEYED mode; in FREE mode
the free count at its first ACLK, which is a free value (notes/assumptions/8.md). -/
def State.drawKey (s : State) (n : Nat) (opSeq source : Nat) : DrawKey :=
  let r := s.running.getD .free
  let l := (s.logicalOf n).getD 0
  if r.genMode = 1 then
    { seed := r.seed, hi := Config.freeNat ((s.core n).freeBase + opSeq), lo := 0, module := s.moduleId, logical := l, source := source, free := true }
  else
    { seed := r.seed, hi := r.step, lo := opSeq, module := s.moduleId, logical := l, source := source, free := false }

/-- Words that `lanes` lanes draw, each for so many roundings in so many rows (R177, R178, R756). -/
def State.drew (s : State) (n : Nat) (r : LaneRnd) (lanes roundings rows : Nat) : State :=
  if r.mode != 2 || lanes = 0 then s
  else s.count n evGEN_WORDS 0 lanes (if r.key.free then rows else ceilDiv roundings (64 / r.bits))

end Sys2Proof.Machine
end

