-- ==== Sys2Proof/Machine/Widen.lean ====
section
/-!
DEFINITION. Widening of gathered tiles on arrival (R352).
-/

namespace Sys2Proof.Machine

/-- One element of a column in another form, and whether the result is inexact; SUBNORMAL_MODES is a core's and flushes nothing here
(R182, R352; DEDUCED: notes/assumptions/36.md). -/
def widenElem (op : Nat) (v : Vec) (k : Nat) : Nat × Bool :=
  if op = fBF16 then
    let x := (v.val 0 k).1
    let c := (convPlain 0 fBF16 0 .rne x).1
    (c, match x, (readElem 0 fBF16 c).1 with
      | .fin n m e, .fin n' m' e' => (addExact n m e (!n') m' e').1 != 0
      | .fin _ _ _, _ => true
      | _, _ => false)
  else ((convPlain 0 (if op = 3 then 1 else op) 0 .rne (v.elem 0 k).1).1, false)

/-- Blocks b0 … of a column in the widened form. -/
def widenBlocks (op : Nat) (v : Vec) (b0 n : Nat) : List Byte × Nat :=
  let es := (upFrom (32 * b0) (32 * n)).map (widenElem op v)
  let bad := (es.filter (fun x => x.2)).length
  if op = fBF16 then (packCodes 16 (32 * n) (es.map (fun x => x.1)), bad)
  else
    (((chunks 32 (es.map (fun x => x.1))).zip (upFrom b0 n)).flatMap (fun p =>
      Block.bytes op { codes := p.1, scale := v.scales.getD p.2 127, pen := none, cnt := .zero }), bad)

/-- A tile of columns of form `w` in form `op`, and its inexact elements. Where the wider form has a smaller K_T, the image of the lower
half of K comes first. -/
def widenTile (w op : Nat) (data : List Byte) : List Byte × Nat :=
  if w = op then (data, 0)
  else
    let vs := (chunks (columnBytes w) data).map (Vec.ofBytes w (kT w))
    let nb := kT op / 32
    let parts := (upFrom 0 (kT w / kT op)).map (fun h => vs.map (fun v => widenBlocks op v (nb * h) nb))
    ((parts.map (fun p => (p.map (fun x => x.1)).flatten)).flatten,
      ((parts.flatten).map (fun x => x.2)).foldl (· + ·) 0)

/-- The pairs of R352. -/
def widens (wire op : Nat) : Bool :=
  wire = op || (wire = 0xA && (op = 7 || op = 8 || op = 3)) || (wire = 7 && op = 3) || (wire = 8 && op = 3) || (wire = 3 && op = 0)

end Sys2Proof.Machine
end

