-- ==== Sys2Proof/Machine/HbmOps.lean ====
section
/-!
DEFINITION. Reads of the stacks and what waits for them, mirror fetches of uncorrectable lines (R311 to R315, R561, R794), the bad-line
map (R317) and the scrub (R316).
-/

namespace Sys2Proof.Machine

/-! ### Mirror sources (R561, R794) -/

/-- A layer's part that a data byte of a region lies in: layer, part, item (R795). -/
def State.itemAt (s : State) (k a : Nat) : Option (Nat × Nat × Nat) :=
  (s.planLayers.flatMap (fun l => l.placements.filterMap (fun p =>
    let x := s.placeAddr p p.first
    if x.1 = k && x.2 ≤ a && p.stride != 0 && a < x.2 + 64 * p.stride * p.count then
      some (l.layer, p.part, p.first + (a - x.2) / (64 * p.stride)) else none))).head?

/-- Bytes of a part that starts on a 64-byte boundary (R473). -/
def pad64 (n : Nat) : Nat := 64 * ceilDiv n 64

/-- The layer record whose owner state holds a data byte, with the state's first byte and its length (R473). -/
def State.ownerAt (s : State) (k a : Nat) : Option (SchedLayer × Nat × Nat) :=
  ((schedLayers s.schedule).filterMap (fun r =>
    match s.regions[r.stateRegion]? with
    | some g =>
      let b := g.start + 64 * r.stateOffset
      let len := 64 + 2 * pad64 (4 * r.rows * r.cols) + 2 * r.rows * r.cols
      if g.stack = k && b ≤ a && a < b + len then some (r, b, len) else none
    | none => none)).head?

/-- Tiles that gathers have written into a region of KEEP or GATHER kind and that a group touches (R351, R354). -/
def State.rowsAt (s : State) (k kind a : Nat) : List KeepRow :=
  (if kind = 5 then (s.stack k).keep else (s.stack k).gathered).filter (fun x => x.addr < a + 512 && a < x.addr + x.len)

/-- The gather list entry that a tile of a layer arrives by (R351). -/
def State.entryFor (s : State) (k layer tile : Nat) (sel : GatherEntry → Bool) : Option (GatherEntry × Nat) :=
  ((s.gatherList k).zip (upFrom 0 4096)).find? (fun p =>
    sel p.1 && p.1.layer = layer && p.1.tileFirst ≤ tile && tile < p.1.tileFirst + p.1.tileCount)

/-- The request for the gathered tiles that a line's group touches: those of the line's layer and step. -/
def State.gatheredReq (s : State) (k kind line : Nat) : Option (GatherMsg × Option Nat) :=
  let l := s.rowsAt k kind (512 * (line / 8))
  match l.find? (fun x => x.addr ≤ 64 * line && 64 * line < x.addr + x.len) with
  | none => none
  | some x =>
    let same := l.filter (fun y => y.layer = x.layer && y.step = x.step)
    let first := same.foldl (fun m y => min m y.tile) x.tile
    let last := same.foldl (fun m y => max m y.tile) x.tile
    let aux := if kind = 5 then (match s.planLayer x.layer with | some l => s.backHeld k l | none => 3)
      else (match s.entryFor k x.layer x.tile (fun e => e.region = x.region) with | some e => e.1.wire | none => 0)
    some ({ kind := if kind = 5 then 1 else 0, aux := aux, tag := 0, layer := x.layer, step := x.step - 1, first := first,
            count := last + 1 - first }, some x.layer)

/-- The request for the items of a layer's own copy that a line's group touches: those of the line's layer and part (R561). -/
def State.copyReq (s : State) (k line : Nat) : Option (GatherMsg × Option Nat) :=
  match s.itemAt k (64 * line) with
  | none => none
  | some x =>
    let same := ((upFrom (8 * (line / 8)) 8).filterMap (fun l => s.itemAt k (64 * l))).filter (fun y => y.1 = x.1 && y.2.1 = x.2.1)
    let first := same.foldl (fun m y => min m y.2.2) x.2.2
    let last := same.foldl (fun m y => max m y.2.2) x.2.2
    let aux := if x.2.1 = 0 then s.copyFormOf k x.1
      else if x.2.1 = 1 then (match s.planLayer x.1 with | some l => s.backHeld k l | none => 3) else 0
    some ({ kind := if x.2.1 = 2 then 3 else x.2.1, aux := aux, tag := 0, layer := x.1,
            step := ((s.heldNext x.1 k x.2.1).getD 0) - 1, first := first, count := last + 1 - first }, some x.1)

/-- The request for the owner state that a line's group touches (R560, R561). -/
def State.ownerReq (s : State) (k line : Nat) : Option (GatherMsg × Option Nat) :=
  (s.ownerAt k (64 * line)).map (fun x =>
    let a := 512 * (line / 8)
    let first := (max a x.2.1 - x.2.1) / 64
    let last := (min (a + 511) (x.2.1 + x.2.2 - 1) - x.2.1) / 64
    (⟨2, 0, 0, x.1.layer, 0, first, last + 1 - first⟩, some x.1.layer))

/-- The request for the data that a line's group holds (R561), and the layer it belongs to. -/
def State.mirrorReq (s : State) (k line : Nat) : Option (GatherMsg × Option Nat) :=
  match s.regionAt k (64 * line) with
  | none => none
  | some r =>
    if r.kind = 2 then s.ownerReq k line
    else if r.kind = 8 then some (⟨4, 0, 0, 0, 0, 512 * (line / 8) - r.start, 512⟩, none)
    else if r.kind = 5 ∨ r.kind = 6 then s.gatheredReq k r.kind line
    else if r.kind = 1 then s.copyReq k line
    else none

/-- The requests for what the other lines of a line's group hold, where that is of another layer, part or step (R561), each with its line. -/
def State.otherReqs (s : State) (k line : Nat) : List (Nat × GatherMsg) :=
  match s.mirrorReq k line with
  | none => []
  | some own => (upFrom (8 * (line / 8)) 8).foldl (fun a l =>
      match s.mirrorReq k l with
      | some q => if q.1 = own.1 || a.any (fun y => y.2 = q.1) then a else a ++ [(l, q.1)]
      | none => a) []

/-- Mirror sources of a line's group in the order of R794. -/
def State.mirrorSources (s : State) (k line : Nat) : List Nat :=
  match s.regionAt k (64 * line), s.mirrorReq k line with
  | some r, some q =>
    let lay := q.2.bind s.planLayer
    let l := match lay with
      | some p =>
        if r.kind = 2 then (if s.roleOf p.layer = 2 then [p.owner] else [p.mirror])
        else (match s.job.plan.bind (fun x => Tab.find x.holders p.layer) with
          | some h => h
          | none => if s.halyard.takenOver.contains p.layer then [p.mirror] else [p.owner, p.mirror])
      | none => (s.jobPeers.mergeSort (fun a b => a ≤ b))
    l.filter s.reachable
  | _, _ => []

/-! ### Reads -/

def State.fetchOf (s : State) (k line : Nat) : Option FetchSt := (s.stack k).fetches.find? (fun f => f.line = line)

def State.setFetch (s : State) (k : Nat) (f : FetchSt) : State :=
  s.updStack k (fun x => { x with fetches := x.fetches.filter (fun g => g.line != f.line) ++ [f] })

def State.dropFetch (s : State) (k line : Nat) : State :=
  s.updStack k (fun x => { x with fetches := x.fetches.filter (fun g => g.line != line) })

/-- A stack after a read: lines that the outer code has corrected are counted by the gazetteer too (R753). -/
def State.afterRead (s : State) (k : Nat) (x : StackSt) : State :=
  let n := x.counts.corrected - (s.stack k).counts.corrected
  let s := s.setStack k x
  if n = 0 then s else s.count (blkStack k) evOUTER_CORRECTED 0 1 n

/-! ### Reads that wait (R311, R312, R315) -/

/-- The step records as they lie in the firmware area (R417, R420). -/
def State.recordBytes (s : State) (slot : Nat) : List Byte :=
  let r := s.record slot
  r.head ++ scalesBytes r.scales

/-- Stack and address of the step records (notes/assumptions/15.md). -/
def recordStack : Nat := Config.recordStack % numStacks
def recordBase (slot : Nat) : Nat := planSpace + 64 * (Config.recordAddress slot % 3145729)

/-- Bytes put over a read that starts at address a. -/
def overlay (a : Nat) (d : List Byte) (base : Nat) (b : List Byte) : List Byte :=
  (d.zip (upFrom a d.length)).map (fun p => if base ≤ p.2 && p.2 < base + b.length then b.getD (p.2 - base) 0 else p.1)

/-- The answer to a Window D read whose data has come: the step records stand in the firmware area. -/
def State.answerRead (s : State) (w : LineWait) : State :=
  let d := w.data
  s.send (.windowData (if w.stack != recordStack || w.addr + d.length ≤ planSpace then d
    else overlay w.addr (overlay w.addr d (recordBase 0) (s.recordBytes 0)) (recordBase 1) (s.recordBytes 1)))

/-- Writes to a core's activation store or stream buffer. -/
def CoreSt.writeMem (c : CoreSt) (sb : Bool) (a : Nat) (l : List Byte) : CoreSt :=
  if sb then CoreSt.renewSram { c with sbuf := Memory.writeN c.sbuf a l } memSbuf a l.length else c.writeAct a l

/-- The data of a DLOAD comes back from its stack's station on VC1 and is written locally (R71, R292); without a route it is discarded
(R386). -/
def State.loaded (s : State) (n : Nat) (w : LoadWait) : State :=
  let l := packetData w.wait.data
  let k := targetStation w.wait.stack
  s.fromStation k n l.length (fun here _ t =>
    ((t.carried (stationSource k) 1 here n l).updCore n (fun c => c.writeMem w.lmem w.laddr w.wait.data)).finishOp n .dispatch w.key)

/-- A line that a read waits for is here. -/
def LineWait.got (w : LineWait) (line : Nat) (b : List Byte) : LineWait :=
  { w with data := patchLine w.addr line b w.data, need := w.need.filter (fun l => l != line) }

/-- A line is here for every DLOAD that waits for it; one that has all its data is answered (R71, R312). -/
def State.gotLoads (s : State) (k line : Nat) (b : List Byte) : State :=
  s.cores.foldl (fun t p => (p.2.loads.filter (fun w => w.wait.stack = k && w.wait.need.contains line)).foldl (fun u w =>
    let v := w.wait.got line b
    if v.need.isEmpty then (u.updCore p.1 (fun c => { c with loads := c.loads.erase w })).loaded p.1 { w with wait := v }
    else u.updCore p.1 (fun c => { c with loads := c.loads.map (fun x => if x = w then { x with wait := v } else x) })) t) s

/-- A line is here for the host's reads: a Window D read that has all its data is answered, and a DMA read goes to the host. -/
def State.gotHost (s : State) (k line : Nat) (b : List Byte) : State :=
  let step (w : LineWait) : LineWait := if w.stack = k && w.need.contains line then w.got line b else w
  let rs := s.host.reads.map step
  let cs := s.host.inflight.map (fun c =>
    match c.wait with
    | some w => (let v := step w
      if v.need.isEmpty then { c with wait := none, outcome := some (.ok, c.length) } else { c with wait := some v })
    | none => c)
  let out := s.host.inflight.filterMap (fun c => (c.wait.map step).bind (fun v =>
    if v.need.isEmpty then some (c.hostAddr, v.data) else none))
  let s := { s with host := { s.host with reads := rs.filter (fun w => !w.need.isEmpty), inflight := cs } }
  let s := out.foldl (fun t x => t.send (.hostWrite x.1 x.2)) s
  (rs.filter (fun w => w.need.isEmpty)).foldl State.answerRead s

/-- A line is here for the reads of stream units, gathers and the adder that wait for it. -/
def State.gotReads (s : State) (k line : Nat) (b : List Byte) : State :=
  s.updStack k (fun x => { x with reads := x.reads.map (fun p => if p.2.need.contains line then (p.1, p.2.got line b) else p) })

/-- Everything that waits for a line goes on with its data (R312 to R314). -/
def State.giveLine (s : State) (k line : Nat) (b : List Byte) : State := ((s.gotReads k line b).gotLoads k line b).gotHost k line b

/-- A line can be read: what waits for it goes on (R312, R313). -/
def State.resumeLine (s : State) (k line : Nat) : State :=
  let r := (s.stack k).readRange (64 * line) 64
  if r.lost.isEmpty then (s.afterRead k r.after).giveLine k line r.data else s

/-- The host has no data for a line: 0xFF in a Window D read, DATA_ERROR for a DMA_FROM_HBM (R315). -/
def State.failHost (s : State) (k line : Nat) : State :=
  let waits (c : HostCmd) : Bool := match c.wait with | some w => w.stack = k && w.need.contains line | none => false
  let s := { s with host := { s.host with inflight := s.host.inflight.map (fun c =>
    if waits c then { c with wait := none, outcome := some (.dataError, 0) } else c) } }
  s.gotHost k line (List.replicate 64 0xFF)

/-! ### Mirror fetches -/

/-- Step 5 of R311 for each consumer of a line (R315). What was to be merged into the line is lost with it. -/
def State.noData (s : State) (k line : Nat) (cs : List Consumer) : State :=
  let s := s.updStack k (fun x => { x with counts := { x.counts with mirrorFailed := satAdd32 x.counts.mirrorFailed 1 },
                                           merges := x.merges.filter (fun m => m.line != line)
                                           reads := x.reads.filter (fun p => !p.2.need.contains line) })
  let s := if cs.all (fun c => decide (c = .scrub)) then s else s.event "HBM_UNCORRECTABLE" clsB srcStack k [line]
  cs.foldl (fun t c =>
    match c with
    | .dload n => if (t.core n).loads.any (fun w => w.wait.stack = k && w.wait.need.contains line) then t.askB (.core n) else t
    | .drain => t.endCheckpoint
    | .host => t.failHost k line
    | .scrub => t.event "SCRUB_UNCORRECTABLE" clsINFO srcStack k [line]
    | .firmware => t
    | _ => if t.job.wantB.contains (.stackData k) then t else t.askB (.stackData k)) s

/-- A line of a fetch has been written meanwhile: the fetch ends, and its readers take what was written (R314). -/
def State.overtaken (s : State) (k : Nat) (f : FetchSt) : Option State :=
  if f.overwritten.contains f.line && f.good.isNone then
    some ((s.dropFetch k f.line).giveLine k f.line ((s.stack k).lineData f.line)) else none

/-- The next mirror source is asked, or step 5 follows when none is left (R794). -/
def State.askSource (s : State) (k : Nat) (f : FetchSt) : State :=
  match s.overtaken k f with
  | some t => t
  | none =>
    match f.sources.filter s.reachable, s.mirrorReq k f.line with
    | m :: rest, some q =>
      let s := s.setFetch k { f with sources := rest, tag := m }
      let o : OutGather := { g := q.1, holder := m, rest := rest, use := GatherUse.mirror k f.line }
      let s := { s with net := { s.net with gathers := s.net.gathers ++ [o] } }
      s.message m none none (.gatherReq q.1)
    | _, _ => (s.dropFetch k f.line).noData k f.line f.consumers

/-- A request for other lines of a group goes to a module, with the modules to ask after it. -/
def State.askPart (s : State) (k line : Nat) (g : GatherMsg) : List Nat → State
  | [] => s
  | m :: rest =>
    let o : OutGather := { g := g, holder := m, rest := rest, use := GatherUse.mirror k line }
    ({ s with net := { s.net with gathers := s.net.gathers ++ [o] } }).message m none none (.gatherReq g)

/-- The other lines of a fetch's group are asked of their own sources. -/
def State.askParts (s : State) (k line : Nat) : State :=
  (s.otherReqs k line).foldl (fun t x =>
    match t.fetchOf k line, t.mirrorSources k x.1 with
    | some f, m :: rest => (t.setFetch k { f with parts := f.parts ++ [x.2] }).askPart k line x.2 (m :: rest)
    | _, _ => t) s

/-- A consumer waits for an uncorrectable line: it joins the fetch in progress (R313), or one begins (R311). -/
def State.wantLine (s : State) (k line : Nat) (c : Consumer) : State :=
  match s.fetchOf k line with
  | some f => if f.consumers.contains c then s else s.setFetch k { f with consumers := f.consumers ++ [c] }
  | none => (s.askSource k { line := line, consumers := [c], sources := s.mirrorSources k line, tag := 0, start := s.micros,
                             overwritten := [], good := none, parts := [], items := [], came := false }).askParts k line

/-- A consumer waits for lines. -/
def State.wantLines (s : State) (k : Nat) (l : List Nat) (c : Consumer) : State := l.foldl (fun t x => t.wantLine k x c) s

/-- Qualifiers of a consumer's requests: their class under R338; those of the other consumers have none. -/
def Consumer.classMask : Consumer → Nat
  | .stream _ => 2
  | .dload _ => 4
  | .adder => 8
  | .gather => 16
  | .drain => 32
  | _ => 0

/-- A consumer's request reads or writes the lines of n bytes from a (R756). -/
def State.linesAt (s : State) (k a n : Nat) (who : Consumer) : State :=
  if n = 0 ∨ who.classMask = 0 then s else s.count (blkStack k) evDATA_LINES who.classMask 1 ((a + n - 1) / 64 - a / 64 + 1)

/-- A read with its counts. -/
def State.readStart (s : State) (k a n : Nat) : State × Read :=
  let r := (s.stack k).readRange a n
  (s.afterRead k r.after, r)

/-- The read of a range by a consumer that waits for lines. -/
def State.heldRead (s : State) (k a n : Nat) (c : Consumer) : Option (Consumer × LineWait) :=
  (s.stack k).reads.find? (fun p => p.1 = c && p.2.addr = a && p.2.data.length = n)

/-- A checked read: the data when every line can be read, else fetches for the lines that cannot. A read that has waited takes what its
lines held when each came (R322). -/
def State.readHbm (s : State) (k a n : Nat) (c : Consumer) : State × Option (List Byte) :=
  match s.heldRead k a n c with
  | some p =>
    if p.2.need.isEmpty then (s.updStack k (fun x => { x with reads := x.reads.erase p }), some p.2.data) else (s, none)
  | none =>
    let r := (s.linesAt k a n c).readStart k a n
    if r.2.lost.isEmpty then (r.1, some r.2.data)
    else
      let w : LineWait := { stack := k, addr := a, data := r.2.data, need := r.2.lost }
      let t := if c.holds then r.1.updStack k (fun x => { x with reads := x.reads ++ [(c, w)] }) else r.1
      (t.wantLines k r.2.lost c, none)

/-- Lines that a write has met and could not read are fetched (R306, R311). -/
def State.askMerges (s : State) (k : Nat) : State := (s.stack k).merges.foldl (fun t m => t.wantLine k m.line m.who) s

/-- The same of every stack, after a command that writes to several. -/
def State.askAllMerges (s : State) : State := s.hbm.foldl (fun t p => t.askMerges p.1) s

/-- A write by a consumer, with the fetches that it needs. -/
def State.writeHbm (s : State) (k a : Nat) (l : List Byte) (who : Consumer := .plotter) : State :=
  ((s.linesAt k a l.length who).writeStack k a l who).askMerges k

/-- What a reply holds of a group, as (address, bytes), and the inexact elements of widened tiles (R352, R561). -/
def State.replyItems (s : State) (k a : Nat) (g : GatherMsg) (data : List Byte) : List (Nat × List Byte) × Nat :=
  let part := if g.kind = 3 then 2 else g.kind
  let items := (match s.planLayer g.layer with | some l => s.itemsOf l part g.first g.count data | none => []).zip (upFrom g.first g.count)
  match s.regionAt k a with
  | none => ([], 0)
  | some r =>
    if g.kind = 2 then
      (match s.schedLayer g.layer with
       | some y => (match s.regions[y.stateRegion]? with
         | some x => ([(x.start + 64 * (y.stateOffset + g.first), data)], 0)
         | none => ([], 0))
       | none => ([], 0))
    else if g.kind = 4 then ([(r.start + g.first, data)], 0)
    else if r.kind = 5 ∨ r.kind = 6 then
      let l := items.filterMap (fun p => ((s.rowsAt k r.kind a).find? (fun x => x.layer = g.layer && x.tile = p.2)).map (fun x =>
        let e := if r.kind = 6 then s.entryFor k g.layer p.2 (fun e => e.region = x.region) else none
        (x.addr, match e with | some e => widenTile e.1.wire e.1.opform p.1 | none => (p.1, 0))))
      (l.map (fun x => (x.1, x.2.1)), (l.map (fun x => x.2.2)).foldl (· + ·) 0)
    else
      (items.filterMap (fun p => ((s.planLayer g.layer).bind (fun l => s.copyPlace l part p.2)).bind (fun pl =>
        let x := s.placeAddr pl p.2
        if x.1 = k then some (x.2, p.1) else none)), 0)

/-- Bytes of a group with those of a reply in their places. -/
def putItem (a : Nat) (acc : List Byte) (x : Nat × List Byte) : List Byte :=
  (acc.zip (upFrom a acc.length)).map (fun p => if x.1 ≤ p.2 && p.2 < x.1 + x.2.length then x.2.getD (p.2 - x.1) 0 else p.1)

/-- Good data of a group from the replies, what has been written meanwhile kept and what waits to be merged put in (R306, R314, R561). -/
def State.groupFrom (s : State) (k group : Nat) (f : FetchSt) : List Byte :=
  let a := 512 * group
  let old := s.readStack k a 512
  let d := f.items.foldl (putItem a) old
  let d := (d.zip (upFrom a d.length)).map (fun p => if f.overwritten.contains (p.2 / 64) then old.getD (p.2 - a) 0 else p.1)
  (s.stack k).merged group f.covers d

/-- Every request of a fetch has been answered: the good data of its group stands, and the repair begins (R311 step 3). -/
def State.endFetch (s : State) (k line : Nat) : State :=
  match s.fetchOf k line with
  | none => s
  | some f =>
    if !f.came || !f.parts.isEmpty || f.good.isSome then s
    else
      let good := s.groupFrom k (line / 8) f
      let s := s.updStack k (fun y => { y with
        mem := Memory.writeN y.mem (512 * (line / 8)) good
        merges := y.merges.filter (fun m => !(m.line / 8 = line / 8 && f.covers m.line)) })
      (s.setFetch k { f with good := some good, consumers := [] }).resumeLine k line

/-- The request of a fetch that asks for its own line. -/
def State.asksFor (s : State) (k line : Nat) (g : GatherMsg) : Bool :=
  match s.mirrorReq k line with
  | some q => q.1.kind = g.kind && q.1.layer = g.layer && q.1.first = g.first
  | none => true

/-- What a reply gives joins its fetch. -/
def State.keepItems (s : State) (k line : Nat) (f : FetchSt) (g : GatherMsg) (data : List Byte) (own : Bool) : State :=
  let x := s.replyItems k (512 * (line / 8)) g data
  let s := s.updStack k (fun y => { y with counts := { y.counts with
    mirrorFetched := if own then satAdd32 y.counts.mirrorFetched 1 else y.counts.mirrorFetched
    widenInexact := satAdd32 y.counts.widenInexact x.2 } })
  s.setFetch k { f with items := f.items ++ x.1, came := f.came || own }

/-- The data of the fetched line goes to those that wait for it, without the repair (R311 step 2). -/
def State.giveCame (s : State) (k line : Nat) : State :=
  match s.fetchOf k line with
  | none => s
  | some f => (s.setFetch k { f with consumers := [] }).giveLine k line (slice (s.groupFrom k (line / 8) f) (64 * (line % 8)) 64)

/-- A request for other lines of a group has got no data: the next of its sources is asked, or those lines are not repaired. -/
def State.nextPart (s : State) (k line : Nat) (g : GatherMsg) (rest : List Nat) : State :=
  match s.fetchOf k line, rest.filter s.reachable with
  | some _, m :: l => s.askPart k line g (m :: l)
  | some f, [] => (s.setFetch k { f with parts := f.parts.filter (fun q => !(q.kind = g.kind && q.layer = g.layer && q.first = g.first)) }).endFetch k line
  | none, _ => s

/-- A mirror source has answered for a line: its data goes to the consumers at once and the repair begins once the rest of the group has
been answered for (R311 steps 2 and 3), or the next source is asked (R794). A line that has been written meanwhile keeps what was written
(R314). -/
def State.mirrorData (s : State) (k line : Nat) (g : GatherMsg) (data : List Byte) (rest : List Nat) : State :=
  match s.fetchOf k line with
  | none => s
  | some f =>
    if f.good.isSome then s
    else
      match s.overtaken k f with
      | some t => t
      | none =>
        let empty : Bool := g.count = 0 || data.isEmpty
        if s.asksFor k line g then
          (if empty then s.askSource k f else ((s.keepItems k line f g data true).giveCame k line).endFetch k line)
        else if empty then s.nextPart k line g rest
        else (s.keepItems k line f g data false).nextPart k line g []

/-- The read back of a group that has been written from its mirror: every line of it that the mirror has given can be read and holds
the mirror data (R311 step 4). -/
def StackSt.verifies (x : StackSt) (group : Nat) (good : List Byte) (sel : Nat → Bool) : Bool :=
  ((upFrom 0 8).filter (fun i => sel (8 * group + i))).all (fun i =>
    let data := (slice good (64 * i) 64).map (fun b => b.toNat)
    match decodeWord (rsApply (rsWord data) (Tab.get [] x.stuck (8 * group + i))) with
    | some d => d.1 = slice good (64 * i) 64
    | none => false)

/-- Steps 3 and 4 of R311: the group is written back, read again and verified, or enters the bad-line map with the good data (R317). -/
def State.verifyLine (s : State) (k line : Nat) (ok : Bool) : State :=
  match s.fetchOf k line with
  | none => s
  | some f =>
    match f.good with
    | none => s
    | some good =>
      let x := s.stack k
      let g := line / 8
      let s := s.dropFetch k line
      let lines := (upFrom (8 * g) 8).filter (fun l => f.covers l && !f.overwritten.contains l)
      let put (y : StackSt) : StackSt :=
        lines.foldl (fun y l => { y.wrote l with mem := Memory.writeN y.mem (64 * l) (slice good (64 * (l % 8)) 64) }) y
      let s := s.updStack k (fun y => { y with counts := ((put y).innerReports (fun l => l / 8 = g)).counts })
      if ok && x.verifies g good f.covers then s.updStack k put
      else if x.badLines.contains g then s.updStack k put
      else if x.badLines.length ≥ 4096 then
        ((s.updStack k (fun y => { y with beyond := true })).event "BAD_LINE_MAP_FULL" clsC srcStack k [line]).askC (.stack k)
      else s.updStack k (fun y => { put y with badLines := y.badLines ++ [g] })

/-! ### HBM events -/

/-- MIRROR_TIMEOUT (R311, R794): the time of step 2 has passed without data; step 5 follows. -/
def execMirrorTimeout (stack line : Nat) (s : State) : Res :=
  withStack stack
    (match s.fetchOf stack line with
    | none => .next s
    | some f =>
      if f.good.isSome then .next s
      else
        let s := { s with net := { s.net with gathers := s.net.gathers.filter (fun o => o.use != GatherUse.mirror stack line) } }
        match s.overtaken stack f with
        | some t => done t
        | none => if f.came then done ((s.setFetch stack { f with parts := [] }).endFetch stack line)
          else done (((s.until (f.start + s.job.mirrorTimeout)).dropFetch stack line).noData stack line f.consumers))

/-- HBM_WRITEBACK_VERIFY (R311 steps 3 and 4, R317): `ok` tells whether the cells have taken the write otherwise. -/
def execHbmWritebackVerify (stack line : Nat) (ok : Bool) (s : State) : Res :=
  withStack stack (done (s.verifyLine stack line ok))

/-- PATROL_SCRUB (R316): every group of the data space is read; lines that the outer code corrects are written back, lines that cannot be
read are fetched from their mirror, or logged when the region has none. -/
def execPatrolScrub (stack : Nat) (s : State) : Res :=
  withStack stack
    (if s.job.scrubPeriod = 0 || s.power.powerState > 1 then .next s
     else
       let r := (s.stack stack).scan (fun _ => true)
       let s := s.afterRead stack (r.fixed.foldl (fun y p => { y.wrote p.1 with mem := Memory.writeN y.mem (64 * p.1) p.2 }) r.after)
       done (r.lost.foldl (fun t l => if (t.mirrorSources stack l).isEmpty
         then t.event "SCRUB_UNCORRECTABLE" clsINFO srcStack stack [l] else t.wantLine stack l .scrub) s))

end Sys2Proof.Machine
end

