-- ==== Sys2Proof/Machine/UpdateMath.lean ====
section
/-!
DEFINITION. The arithmetic of a layer update: curves (R487 to R489), the matrix path (R490 to R496), the element path (R497) and the
stream copies (R323, R324, R498). Matrices are lists of rows. Every FP32 operation rounds to nearest even under the subnormal mode of
its class (R182).
-/

namespace Sys2Proof.Machine

/-! ### FP32 under the subnormal mode -/

/-- An FP32 value of an update with the classes flushed on the way to it (R182, R184). -/
structure Val where
  w : Word32
  fl : Flushes
  deriving DecidableEq, Repr

def Val.raw (w : Word32) : Val := { w := w, fl := 0 }

/-- An operation on flushed operands, its result flushed. -/
def uOp1 (md : Nat) (f : Word32 → Word32) (a : Val) : Val :=
  let x := flush32 md a.w
  let z := flush32 md (f x.1)
  { w := z.1, fl := orFlush a.fl (orFlush x.2 z.2) }

def uOp2 (md : Nat) (f : Word32 → Word32 → Word32) (a b : Val) : Val :=
  let x := flush32 md a.w
  let y := flush32 md b.w
  let z := flush32 md (f x.1 y.1)
  { w := z.1, fl := orFlush (orFlush a.fl b.fl) (orFlush (orFlush x.2 y.2) z.2) }

def uAdd (md : Nat) : Val → Val → Val := uOp2 md add32
def uSub (md : Nat) : Val → Val → Val := uOp2 md sub32
def uMul (md : Nat) : Val → Val → Val := uOp2 md mul32
def uDiv (md : Nat) : Val → Val → Val := uOp2 md div32
def uSqrt (md : Nat) : Val → Val := uOp1 md sqrt32
def one32 : Val := .raw 0x3F800000#32
def two32 : Val := .raw 0x40000000#32
def sixteen32 : Val := .raw 0x41800000#32
def uInt (i : Int) : Val := .raw (int32 i)

/-- The classes flushed in a row. -/
def rowFlags (l : List Val) : Flushes := l.foldl (fun a v => orFlush a v.fl) 0

/-- A BF16 code as FP32, a subnormal of a FLUSH class read as zero (R182). -/
def bfVal (md c : Nat) : Val :=
  let x := readElem md fBF16 c
  { w := toFp32 x.1, fl := x.2 }

/-- The BF16 code nearest a value (R490, R494, R497), with what it flushes. -/
def bfCode (md : Nat) (a : Val) : Nat × Flushes :=
  let x := convPlain md fBF16 0 .rne (val32 a.w)
  (x.1, orFlush a.fl x.2.fl)

/-- A value rounded to BF16. -/
def bfRound (md : Nat) (a : Val) : Val :=
  let c := bfCode md a
  let v := bfVal md c.1
  { v with fl := orFlush c.2 v.fl }

/-! ### Curves (R487, R488) -/

/-- A value of the schedule table as FP32. -/
def schedF (b : List Byte) (o : Nat) : Val := .raw (BitVec.ofNat 32 (leAt b o 4))

/-- τ of R488. -/
def curveTau (md s start len : Nat) : Val :=
  if s < start then .raw (zero32 false)
  else if len = 0 then one32
  else
    let t := uDiv md (uInt ((s : Int) - start)) (uInt len)
    if numLe one32.w t.w then { one32 with fl := t.fl } else t

/-- cos πτ within the bound of R280. -/
def cosPi32 (tau : Word32) : Word32 :=
  match val32 tau with
  | .fin _ m e => boundedFree 4 (Config.cosPi tau) (fpCosPi m e)
  | _ => nan32

/-- The value of a segment at step s; none for a reserved TYPE. `o` is the offset of the segment record. -/
def segValue (md : Nat) (b : List Byte) (o s : Nat) : Option Val :=
  let start := leAt b o 4
  let len := leAt b (o + 4) 4
  let ty := leAt b (o + 8) 1
  let v0 := schedF b (o + 12)
  let v1 := schedF b (o + 16)
  let tau := curveTau md s start len
  if ty = 0 then some v0
  else if ty = 1 then some (uAdd md v0 (uMul md (uSub md v1 v0) tau))
  else if ty = 2 then some (uAdd md v1 (uDiv md (uMul md (uSub md v0 v1) (uAdd md one32 (uOp1 md cosPi32 tau))) two32))
  else if ty = 3 then
    some (uMul md v0 (uOp1 md (vopTransc 0x10) (uMul md tau (uOp1 md (vopTransc 0x11) (uDiv md v1 v0)))))
  else if ty = 4 then
    some (uDiv md v0 (uSqrt md (uAdd md one32 (uDiv md (uInt ((s - start : Nat) : Int)) (schedF b (o + 20))))))
  else none

/-- Curve `k` (0 η, 1 β, 2 λ, 3 α) of a group record at step s (R488). -/
def curveValue (md : Nat) (b : List Byte) (group k s : Nat) : Option Val :=
  let g := leAt b 0x10 4 + 32 * group
  let first := leAt b (g + 4 * k) 2
  let segs := (upFrom first (leAt b (g + 4 * k + 2) 1)).map (fun i => leAt b 0x18 4 + 24 * i)
  match segs with
  | [] => none
  | o :: _ => segValue md b (((segs.filter (fun x => leAt b x 4 ≤ s)).getLast?).getD o) s

/-- η, β, λ and α of an update, and β of the steps that it has missed (R481). -/
structure Curves where
  eta : Val
  beta : Val
  lambda : Val
  alpha : Val
  missed : List Val
  deriving DecidableEq, Repr

/-- A finite value at or above 0. -/
def finNonneg (a : Val) : Bool := isFin32 a.w && numLe 0#32 a.w

/-- β lies in its range (R489). -/
def betaOk (a : Val) : Bool := finNonneg a && !numLe one32.w a.w

/-- The layer record has a reserved code (R486). -/
def recordBad (b : List Byte) (r : SchedLayer) : Bool :=
  field r.mode 5 3 != 0 || field r.mode 1 2 = 3 || (r.nsSet != 0xFF && r.nsSet ≥ leAt b 0x0C 1) || r.group ≥ leAt b 6 2 || r.sheet > 55

/-- Steps that an update of step s misses after STEP_TAG `tag` (R481). -/
def missedSteps (tag s : Nat) : List Nat := upFrom (tag + 1) (s - tag - 1)

/-- The curves at step s after STEP_TAG `tag`, when check 1 of R482 finds no fault in them or in the layer record (R481, R486, R489). -/
def curvesOf (md : Nat) (b : List Byte) (r : SchedLayer) (tag s : Nat) : Option Curves :=
  let missed := (missedSteps tag s).map (curveValue md b r.group 1)
  if recordBad b r || !missed.all (fun x => match x with | some v => betaOk v | none => false) then none
  else
    match curveValue md b r.group 0 s, curveValue md b r.group 1 s, curveValue md b r.group 2 s, curveValue md b r.group 3 s with
    | some e, some be, some l, some a =>
      if finNonneg e && betaOk be && finNonneg l && finNonneg a then some ⟨e, be, l, a, missed.filterMap id⟩ else none
    | _, _, _, _ => none

/-- The classes that evaluating the curves flushes. -/
def curveFlags (md : Nat) (b : List Byte) (r : SchedLayer) (tag s : Nat) : Flushes :=
  if recordBad b r then 0
  else rowFlags (((upFrom 0 4).map (fun k => curveValue md b r.group k s) ++ (missedSteps tag s).map (curveValue md b r.group 1)).filterMap id)

/-! ### Matrices -/

abbrev Mat := List (List Val)

def matFlags (x : Mat) : Flushes := x.foldl (fun a r => orFlush a (rowFlags r)) 0

def matT (n : Nat) (x : Mat) : Mat := (upFrom 0 n).map (fun j => x.map (fun r => r.getD j (.raw 0)))

/-- One entry of a product on the arrays: BF16 operands, groups of 16 in ascending order, FP32 accumulation, COMP = 0 (R123 to R130,
R494). -/
def dotBf (md : Nat) (a b : List (Nat × Flushes)) : Val :=
  let rd (c : Nat × Flushes) : Fp × Flushes := let x := readElem md fBF16 c.1; (x.1, orFlush c.2 x.2)
  let x := dotGroups md 16 (a.map rd) (b.map rd)
  { w := x.1, fl := x.2 }

/-- X·Y, operands rounded to BF16; `n` columns of Y. -/
def matMul (md n : Nat) (x y : Mat) : Mat :=
  let cols := (matT n y).map (fun c => c.map (bfCode md))
  (x.map (fun r => r.map (bfCode md))).map (fun r => cols.map (fun c => dotBf md r c))

def matMap2 (f : Val → Val → Val) (x y : Mat) : Mat := List.zipWith (List.zipWith f) x y

def matBf (md : Nat) (x : Mat) : Mat := x.map (fun r => r.map (bfRound md))

/-- Coefficients a, b, c of an iteration (R489): the layer's set or the built-in one. -/
def nsCoef (b : List Byte) (r : SchedLayer) (i : Nat) : Val × Val × Val :=
  if r.nsSet = 0xFF then (.raw 0x40500000#32, .raw 0xC0900000#32, .raw 0x40000000#32)
  else
    let o := leAt b 0x1C 4 + 64 * r.nsSet + 12 * i
    (schedF b o, schedF b (o + 4), schedF b (o + 8))

/-- Newton–Schulz (R494): the iterations from number i on. -/
def nsLoop (md : Nat) (b : List Byte) (r : SchedLayer) : Nat → Nat → Mat → Mat
  | 0, _, x => x
  | f + 1, i, x =>
    let m := r.rows
    let n := r.cols
    let c := nsCoef b r i
    let tall : Bool := n ≤ m
    let xt := matT n x
    let a := if tall then matMul md n xt x else matMul md m x xt
    let a2 := matMul md (min m n) a a
    let p := matMap2 (fun u v => uAdd md (uMul md c.2.1 u) (uMul md c.2.2 v)) a a2
    let xp := if tall then matMul md n x p else matMul md n p x
    nsLoop md b r f (i + 1) (matBf md (matMap2 (fun u v => uAdd md (uMul md c.1 u) v) x xp))

def newtonSchulz (md : Nat) (b : List Byte) (r : SchedLayer) (x : Mat) : Mat := nsLoop md b r 5 0 (matBf md x)

/-- Σ of R495 in ascending k subtracted from v. -/
def subDot (md : Nat) (v : Val) (a b : List Val) : Val :=
  (a.zip b).foldl (fun acc p => uSub md acc (uMul md p.1 p.2)) v

/-- Cholesky of S + δI (R495, R496): the rows of L so far (each a list of its entries), one row at a time over ascending columns; none at a
pivot at or below PIVOT_MIN or non-finite. The entries are those of the column order, which uses the same operands. -/
def cholRow (md : Nat) (srow : List Val) : List (List Val) → Nat → List Val → List Val
  | [], _, acc => acc
  | l :: t, j, acc =>
    let v := uDiv md (subDot md (srow.getD j (.raw 0)) acc (l.take j)) (l.getD j (.raw 0))
    cholRow md srow t (j + 1) (acc ++ [v])

/-- The factor, or none, with the classes flushed on the way. -/
def cholesky (md : Nat) (delta pmin : Val) : List (List Val) → Nat → Mat → Option Mat × Flushes
  | [], _, rows => (some rows, matFlags rows)
  | srow :: t, i, rows =>
    let acc := cholRow md srow rows 0 []
    let p := subDot md (uAdd md (srow.getD i (.raw 0)) delta) acc acc
    if !isFin32 p.w || numLe p.w pmin.w then (none, orFlush p.fl (orFlush (rowFlags acc) (matFlags rows)))
    else cholesky md delta pmin t (i + 1) (rows ++ [acc ++ [uSqrt md p]])

/-- Forward substitution with L (R495). -/
def solveLower (md : Nat) (l : Mat) (x : List Val) : List Val :=
  ((l.zip x).foldl (fun (a : List Val) p => a ++ [uDiv md (subDot md p.2 a (p.1.take a.length)) (p.1.getD a.length (.raw 0))]) [])

/-- Factorisations with δ, 16·δ, …; at most `fuel`; counts the retries (R496). -/
def gramTry (md : Nat) (s : Mat) (pmin : Val) : Nat → Val → Nat → Flushes → Option Mat × Nat × Flushes
  | 0, _, n, fl => (none, n, fl)
  | f + 1, d, n, fl =>
    match cholesky md d pmin s 0 [] with
    | (some l, g) => (some l, n, orFlush fl g)
    | (none, g) => if f = 0 then (none, n, orFlush fl g) else gramTry md s pmin f (uMul md d sixteen32) (n + 1) (orFlush fl g)

/-- U of R493, with the retries made, whether Gram mode fell back, and the classes that its factorisations have flushed. -/
def orthonormal (md : Nat) (b : List Byte) (r : SchedLayer) (x : Mat) : Mat × Nat × Bool × Flushes :=
  if field r.mode 1 2 = 1 || min r.rows r.cols > 2048 then (newtonSchulz md b r x, 0, false, 0)
  else
    let tall : Bool := r.cols ≤ r.rows
    let xt := matT r.cols x
    let s := if tall then matMul md r.cols xt x else matMul md r.rows x xt
    let g := leAt b 0x10 4 + 32 * r.group
    match gramTry md s (schedF b (g + 0x14)) 5 (schedF b (g + 0x10)) 0 0 with
    | (some l, n, fl) => ((if tall then x.map (solveLower md l) else matT r.rows (xt.map (solveLower md l))), n, false, fl)
    | (none, n, fl) => (newtonSchulz md b r x, n, true, fl)

/-! ### Update rules -/

/-- What an update computes: new master weights, new momentum codes, P′, flags and counts, and the classes that it has flushed. -/
structure Computed where
  weights : List (List Word32)
  momentum : List (List Nat)
  prodBeta : Word32
  zero : Bool
  fallback : Bool
  retries : Nat
  flushed : Flushes
  deriving DecidableEq, Repr

/-- Results of an update: weights W′, momentum M′ and P′ (R490, R497). -/
def Computed.make (md : Nat) (w m1 : Mat) (p : Val) (zero fallback : Bool) (retries : Nat) (fl : Flushes) : Computed :=
  let ms := m1.map (fun row => row.map (bfCode md))
  { weights := w.map (fun row => row.map (fun v => v.w)), momentum := ms.map (fun row => row.map (fun c => c.1)), prodBeta := p.w,
    zero := zero, fallback := fallback, retries := retries,
    flushed := orFlush (orFlush (matFlags w) p.fl) ((ms.flatten).foldl (fun a c => orFlush a c.2) fl) }

/-- Σ y² of R490 step 3: within each tile of M × N in element order, tiles in ascending number. -/
def sumSquares (md m n : Nat) (r : SchedLayer) (y : Mat) : Val :=
  let nc := ceilDiv r.cols n
  let ts := (upFrom 0 (ceilDiv r.rows m * nc)).map (fun t =>
    let l := ((part y (m * (t / nc)) m).map (fun row => part row (n * (t % nc)) n)).flatten
    let x := reduce md 3 (l.map (fun v => v.w))
    ({ w := x.1, fl := orFlush (rowFlags l) x.2 } : Val))
  match ts with
  | [] => .raw (zero32 false)
  | a :: l => l.foldl (uAdd md) a
where
  /-- Part of a list. -/
  part {α : Type} (l : List α) (o k : Nat) : List α := (l.drop o).take k

/-- The matrix path (R490, R491). `tm` and `tn` are the layer's tile size. -/
def matrixPath (md : Nat) (b : List Byte) (r : SchedLayer) (c : Curves) (tm tn : Nat) (w mom g : Mat) (pb : Val) : Computed :=
  let m1 := matMap2 (fun x y => uAdd md (uMul md c.beta x) y) mom g
  let y := matMap2 (fun x z => uAdd md (uMul md c.beta x) z) m1 g
  let nu := uSqrt md (sumSquares md (max 1 tm) (max 1 tn) r y)
  let zero : Bool := match val32 nu.w with | .fin _ m _ => m = 0 | _ => false
  let u : Mat × Nat × Bool × Flushes :=
    if zero then (y.map (fun row => row.map (fun _ => { w := 0#32, fl := nu.fl })), 0, false, 0)
    else
      let q := uOp1 md (vopTransc 0x12) nu
      orthonormal md b r (y.map (fun row => row.map (fun v => uMul md v q)))
  let d := uSub md one32 (uMul md c.eta c.lambda)
  let ratio := uDiv md (uInt r.rows) (uInt r.cols)
  let k := uMul md (uMul md c.eta c.alpha) (uSqrt md (if numLe one32.w ratio.w then ratio else one32))
  Computed.make md (matMap2 (fun x e => uSub md (uMul md d x) (uMul md k e)) w u.1) m1 pb zero u.2.2.1 u.2.1
    (orFlush u.2.2.2 (matFlags y))

/-- The element path (R497); `p` is P′. -/
def elementPath (md : Nat) (c : Curves) (w mom g : Mat) (p : Val) : Computed :=
  let ob := uSub md one32 c.beta
  let den := uSub md one32 p
  let m1 := matMap2 (fun x y => uAdd md (uMul md c.beta x) (uMul md ob y)) mom g
  let d := uSub md one32 (uMul md c.eta c.lambda)
  Computed.make md (matMap2 (fun x y => uSub md (uMul md d x) (uMul md c.eta (uDiv md y den))) w m1) m1 p false false 0 0

/-- PROD_BETA times β(t) for each t from the old tag to s (R481, R497). -/
def gapBeta (md : Nat) (pb : Val) (c : Curves) : Val := (c.missed ++ [c.beta]).foldl (uMul md) pb

/-- g of R461 for one word: the conversion and the division round, TOKENS is the integer. -/
def gradElem (md : Nat) (word eb : Int) (tokens : Nat) : Val :=
  let w := flush32 md (toFp32 ((val32 (int32 word)).scale (eb - 22)))
  let q := flush32 md (toFp32 ((val32 w.1).div (.fin false tokens 0)))
  { w := q.1, fl := orFlush w.2 q.2 }

/-! ### Stream copies (R323, R324, R498) -/

def rneLanes : LaneRnd := { mode := 0, bits := 12, key := ⟨0, 0, 0, 0, 0, 0, false⟩ }

/-- The element at (i, j), 0 beyond the matrix. -/
def matAt (w : List (List Word32)) (i j : Nat) : Word32 := (w.getD i []).getD j 0

/-- A tile of a copy: its bytes, what its conversion counts (R170, R184), and the values converted. -/
structure CopyTile where
  data : List Byte
  cnt : ConvCount
  src : List Word32
  deriving DecidableEq, Repr

/-- Runs of master weights, read under the subnormal mode and converted one by one (R182). -/
def copyTile (md : Nat) (conv : Nat → List Word32 → List Byte × ConvCount) (runs : List (List Word32)) : CopyTile :=
  let ins := runs.map (fun l => l.map (flush32 md))
  let outs := (ins.zip (upFrom 0 ins.length)).map (fun p => conv p.2 (p.1.map (fun x => x.1)))
  { data := outs.flatMap (fun x => x.1), src := runs.flatten,
    cnt := outs.foldl (fun a x => a.add x.2) ⟨0, 0, (ins.flatten).foldl (fun a x => orFlush a x.2) 0⟩ }

/-- Weight tile images of the forward copy in form `f`: up to K_T weight rows × 128 columns each, along the columns first, as a VQUANT with
BLKAXIS 1 and RNE forms them; places beyond the matrix are closed as R284 closes an image (R265, R498). Each takes its tensor scale. -/
def forwardCopy (md f m n : Nat) (w : List (List Word32)) : List (Int → CopyTile) :=
  let k := kT f
  (upFrom 0 (ceilDiv m k)).flatMap (fun i => (upFrom 0 (ceilDiv n 128)).map (fun j t =>
    copyTile md (fun c l => vquantCol md rneLanes t f c l) ((upFrom 0 128).map (fun c =>
      if 128 * j + c < n then (upFrom 0 (min k (m - k * i))).map (fun r => matAt w (k * i + r) (128 * j + c)) else []))))

/-- Tiles of the backward copy in form `g` (R324): up to 128 weight rows of 128 columns. -/
def backwardCopy (md g m n : Nat) (w : List (List Word32)) : List (Int → CopyTile) :=
  (upFrom 0 (ceilDiv m 128)).flatMap (fun i => (upFrom 0 (ceilDiv n 128)).map (fun j _ =>
    copyTile md (fun _ l => convRun md g 0 (fun _ => .rne) (fun _ => .rne) l) ((upFrom 0 (min 128 (m - 128 * i))).map (fun r =>
      (upFrom 0 128).map (fun c => matAt w (128 * i + r) (128 * j + c))))))

end Sys2Proof.Machine
end

