-- ==== Sys2Proof/Machine/PlotterOps.lean ====
section
/-!
DEFINITION. Owner state in stack memory (R473, R475), journals (R476), promotion (R204, R205, R208), checkpoint copies (R532), the copies
and codes that an update sends down (R463, R484, R498), mirror refreshes (R499, R500) and takeovers (R501, R502).
-/

namespace Sys2Proof.Machine

/-! ### Owner state (R473) -/

def State.ownerPlace (s : State) (r : SchedLayer) : Option OwnerPlace :=
  match s.regions[r.stateRegion]?, s.regions[r.journalRegion]? with
  | some a, some j =>
    let h := a.start + 64 * r.stateOffset
    let f := pad64 (4 * r.rows * r.cols)
    some { stack := a.stack, hdr := h, bufA := h + 64, bufB := h + 64 + f, mom := h + 64 + 2 * f, jstack := j.stack,
           journal := j.start + 64 * r.journalOffset, rows := r.rows, cols := r.cols }
  | _, _ => none

/-- The place of a layer that the schedule table describes. -/
def State.placeOfLayer (s : State) (layer : Nat) : Option OwnerPlace := (s.schedLayer layer).bind s.ownerPlace

/-- The layer state header. -/
structure StateHdr where
  tag : Nat
  active : Nat
  journal : Nat
  flags : Nat
  rung : Nat
  prodBeta : Word32
  fallbacks : Nat
  deriving DecidableEq, Repr

def stateHdrOf (l : List Byte) : StateHdr :=
  { tag := leAt l 0 4, active := leAt l 4 1, journal := leAt l 5 1, flags := leAt l 6 1, rung := leAt l 7 1,
    prodBeta := BitVec.ofNat 32 (leAt l 8 4), fallbacks := leAt l 12 4 }

def StateHdr.bytes (h : StateHdr) : List Byte :=
  leBytes h.tag 4 ++ leBytes h.active 1 ++ leBytes h.journal 1 ++ leBytes h.flags 1 ++ leBytes h.rung 1
    ++ leBytes h.prodBeta.toNat 4 ++ leBytes h.fallbacks 4 ++ zeros 48

def State.stateHdr (s : State) (p : OwnerPlace) : StateHdr := stateHdrOf (s.readStack p.stack p.hdr 64)

/-- The header is written as one unit (R475). -/
def State.putHdr (s : State) (p : OwnerPlace) (h : StateHdr) : State := s.writeStack p.stack p.hdr h.bytes

/-- The buffer that holds the master weights, and the other one. -/
def OwnerPlace.buf (p : OwnerPlace) (active : Nat) : Nat := if active % 2 = 0 then p.bufA else p.bufB

/-- STEP_TAG of a layer that this module holds. -/
def State.stepTag (s : State) (layer : Nat) : Option Nat := (s.placeOfLayer layer).map (fun p => (s.stateHdr p).tag)

/-- FP32 words row by row. -/
def matOf (cols : Nat) (l : List Byte) : List (List Word32) := chunks (max 1 cols) ((chunks 4 l).map (fun b => BitVec.ofNat 32 (leNat b)))

def State.masters (s : State) (p : OwnerPlace) (active : Nat) : List (List Word32) :=
  matOf p.cols (s.delivered p.stack (p.buf active) (4 * p.rows * p.cols))

/-- Rows of FP32 words as bytes. -/
def matBytes (w : List (List Word32)) : List Byte := (w.map wordBytes).flatten

/-- The journal is copied into the momentum (step 5 of R474). -/
def State.copyJournal (s : State) (p : OwnerPlace) : State :=
  s.writeStack p.stack p.mom (s.delivered p.jstack p.journal (2 * p.rows * p.cols))

/-- Steps 5 and 6 of R474. -/
def State.closeJournal (s : State) (p : OwnerPlace) : State :=
  let s := s.copyJournal p
  s.putHdr p { s.stateHdr p with journal := 0 }

/-- Layers whose state this module owns or mirrors (R507). -/
def State.heldLayers (s : State) : List Nat := (s.plotter.role.filter (fun x => x.2 != 0)).map (fun x => x.1)

/-- Layers that this module updates. -/
def State.ownedLayers (s : State) : List Nat :=
  (s.plotter.role.filter (fun x => x.2 = 1 || x.2 = 3)).map (fun x => x.1)


/-- Where the state of the layers lies that this module owns or mirrors. -/
def State.heldPlaces (s : State) : List OwnerPlace := s.heldLayers.filterMap s.placeOfLayer

/-! ### Counts and events -/

def State.layCount (s : State) (layer : Nat) (f : LayerCounts → LayerCounts) : State :=
  { s with plotter := { s.plotter with counts := Tab.upd .zero s.plotter.counts layer f } }

/-- An event of a sheet's Plotter. -/
def State.plotEvent (s : State) (name : String) (r : SchedLayer) (info : List Nat) : State :=
  s.event name clsINFO srcPlotter r.sheet (r.layer :: info)

/-- The cores of a sheet that lend the Plotter their queues (R470). -/
def State.plotCores (s : State) (sheet : Nat) : List Nat :=
  (sheetCores sheet).filter (fun n => s.coreStateOf n = .mapped && (s.core n).window != 0)

/-! ### Promotion (R204, R205, R208) -/

/-- How far a form stands on the ladder. -/
def rungLevel (f : Nat) : Nat := if f = 0xA then 0 else if f = 7 ∨ f = 8 ∨ f = 9 then 1 else if f = 0 then 3 else 2

/-- A layer takes a rung that a message or a header tells of; its rung never falls (R208), and what it rises by counts as promotions
(R210). -/
def State.raiseRung (s : State) (layer f : Nat) : State :=
  match s.planLayer layer with
  | some l =>
    let d := rungLevel f - rungLevel (s.rungOf l)
    if rungLevel f < rungLevel (s.rungOf l) then s
    else
      let s := { s with plotter := { s.plotter with rung := Tab.set s.plotter.rung layer f } }
      if d = 0 then s else s.layCount layer (fun c => { c with promotions := satAdd16 c.promotions d })
  | none => s

/-- The largest alarm count received for a layer and step (R203). -/
def PlotterSt.alarmOf (p : PlotterSt) (layer step : Nat) : Nat :=
  (p.alarms.filter (fun a => a.1 = layer && a.2.1 = step)).foldl (fun m a => max m a.2.2) 0

/-- The promotion decision at the start of an update (R203, R204). -/
def State.promote (s : State) (l : PlanLayer) (r : SchedLayer) (step : Nat) : State :=
  let n := s.plotter.alarmOf l.layer step
  let p := s.plotter
  let s := { s with plotter := { p with alarms := p.alarms.filter (fun a => !(a.1 = l.layer && a.2.1 ≤ step)),
                                        lastAlarms := Tab.set p.lastAlarms l.layer n } }
  if n ≤ l.tri.limit.getD s.fmt.triLimit || s.fmt.promoteEnable != 1 || !l.promote then s
  else
    match nextRung (s.rungOf l) with
    | none => s.plotEvent "PROMOTE_CEILING" r [step]
    | some f =>
      if rungLevel f > rungLevel l.rungCap then s
      else
        let s := { s with plotter := { s.plotter with rung := Tab.set s.plotter.rung l.layer f } }
        (s.layCount l.layer (fun c => { c with promotions := satAdd16 c.promotions 1 })).plotEvent "FORMAT_PROMOTED" r [step, f]

/-! ### Codes of a layer (R427, R428) -/

/-- The code record that a held write brings for a tile. -/
def State.heldCodes (s : State) (l : PlanLayer) (h : HeldWrite) (tile : Nat) : List Byte :=
  (s.itemsOf l 2 h.first h.count h.data).getD (tile - h.first) []

/-- The writes to a layer's code records that a stack holds back (R340, R428). -/
def State.heldFor (s : State) (k layer tile : Nat) : List HeldWrite :=
  (s.stack k).held.filter (fun h => h.layer = layer && h.part = 2 && h.first ≤ tile && tile < h.first + h.count)

/-- The codes of a tile for a step as the module has them: those of the update of step − 1, held back or written (R340, R427, R428). -/
def State.codesOf (s : State) (l : PlanLayer) (tile step n : Nat) : List Nat :=
  match l.placed 2 tile with
  | none => List.replicate n 0
  | some p =>
    let k := (s.placeAddr p tile).1
    let b := match (s.heldFor k l.layer tile).find? (fun h => h.step + 1 = step) with
      | some h => s.heldCodes l h tile
      | none => s.delivered k (s.copyAddr p tile (step + 1)) n
    (upFrom 0 n).map (fun i => (b.getD i 0).toNat)

/-! ### Checkpoint copies (R532) -/

/-- Checked reads of ranges for a consumer, one after the other: what each gives, none where a line waits for its mirror data. -/
def State.readEach (s : State) (l : List (Nat × Nat × Nat)) (who : Consumer) : State × List (Option (List Byte)) :=
  l.foldl (fun a x => let r := a.1.readHbm x.1 x.2.1 x.2.2 who
    (r.1, a.2 ++ [r.2])) (s, [])

/-- The same without the data: whether every line could be read. -/
def State.readAll (s : State) (l : List (Nat × Nat × Nat)) (who : Consumer := .plotter) : State × Bool :=
  let r := s.readEach l who
  (r.1, r.2.all (fun x => x.isSome))

/-- Header, active master weights and momentum. -/
def OwnerPlace.reads (p : OwnerPlace) (active : Nat) : List (Nat × Nat × Nat) :=
  [(p.stack, p.hdr, 64), (p.stack, p.buf active, 4 * p.rows * p.cols), (p.stack, p.mom, 2 * p.rows * p.cols)]

/-- A header that tells of a journal has it copied, once every line of the journal can be read (R311, R476); false while one cannot. -/
def State.copyFound (s : State) (p : OwnerPlace) : State × Bool :=
  if (s.stateHdr p).journal != 1 then (s, true)
  else
    let x := s.readAll [(p.jstack, p.journal, 2 * p.rows * p.cols)]
    if x.2 then (x.1.closeJournal p, true) else x

/-- Firmware copies every journal that it finds at the given places (R476). -/
def State.recoverJournals (s : State) (l : List OwnerPlace) : State := (l.foldl (fun t p => (t.copyFound p).1) s).askAllMerges

/-- A layer's code records: placement and number. -/
def PlanLayer.records (l : PlanLayer) : List (Placement × Nat) :=
  (l.placements.filter (fun x => x.part = 2)).flatMap (fun x => (upFrom x.first x.count).map (fun n => (x, n)))

/-- Where a code record lies, both slots (R427). -/
def State.recordRange (s : State) (x : Placement × Nat) : Nat × Nat × Nat :=
  let a := s.placeAddr x.1 x.2
  (a.1, a.2, 64 * x.1.stride)

/-- Both slots of a code record, with the codes that the controller still holds back (R340). -/
def State.codeRecord (s : State) (l : PlanLayer) (x : Placement × Nat) : List Byte :=
  let a := s.recordRange x
  (s.heldFor a.1 l.layer x.2).foldl (fun b h =>
    let d := s.heldCodes l h x.2
    let o := (h.step + 1) % 2 * (a.2.2 / 2)
    b.take o ++ d ++ b.drop (o + d.length)) (s.delivered a.1 a.2.1 a.2.2)

/-- What a checkpoint reads of a layer (R532). -/
def State.layerRanges (s : State) (l : PlanLayer) (p : OwnerPlace) : List (Nat × Nat × Nat) :=
  p.reads (s.stateHdr p).active ++ l.records.map s.recordRange

/-- The state that a checkpoint keeps of a layer: header, active master weights, momentum, and both slots of its code records
(R537). -/
def State.layerImage (s : State) (l : PlanLayer) (p : OwnerPlace) : List Byte :=
  (p.reads (s.stateHdr p).active).flatMap (fun x => s.delivered x.1 x.2.1 x.2.2) ++ l.records.flatMap (s.codeRecord l)

/-- Where a layer's checkpoint copy lies in its STAGING area (R532): behind the journal. DESIGN CHOICE: notes/assumptions/19.md. -/
def OwnerPlace.staging (p : OwnerPlace) : Nat := p.journal + pad64 (2 * p.rows * p.cols)

/-- A layer's state is still to be copied: a checkpoint is armed or closed, not yet draining, and the layer's STEP_TAG is its step. -/
def State.copyDue (s : State) (layer : Nat) : Bool :=
  let k := s.job.ckpt
  k.st != 0 && k.drainStep = 0 && s.stepTag layer = some k.step && !k.copied.any (fun c => c.layer = layer)

/-- The Plotter copies a layer's state into staging where that is due; false while a line of it waits for its mirror data. -/
def State.checkpointCopy (s : State) (layer : Nat) : State × Bool :=
  match s.planLayer layer, s.placeOfLayer layer with
  | some l, some p =>
    if s.copyDue layer then
      let x := s.readAll (s.layerRanges l p)
      if !x.2 then x
      else
        let d := x.1.layerImage l p
        let t := (s.layerRanges l p).foldl (fun t r => t.linesAt r.1 r.2.1 r.2.2 .drain) x.1
        let t := (t.linesAt p.jstack p.staging d.length .drain).writeStack p.jstack p.staging d
        let k := t.job.ckpt
        ({ t with job := { t.job with ckpt := { k with copied := k.copied ++ [⟨layer, p.jstack, p.staging, d.length⟩] } } }, true)
    else (s, true)
  | _, _ => (s, true)

/-- Every layer that is still to be copied. -/
def State.copyAllDue (s : State) : State := s.ownedLayers.foldl (fun t l => (t.checkpointCopy l).1) s

/-! ### Downhaul of an update (R463, R484, R498) -/

/-- One DOWNHAUL per item of a part. -/
def State.sendItems (s : State) (layer part step : Nat) : List (List Byte) → Nat → State
  | [], _ => s
  | d :: t, n =>
    State.sendItems (s.originDown { layer := layer, part := part, step := step, first := n, count := 1, data := d }) layer part step t (n + 1)

/-- The sums of an update. -/
def State.handOf (s : State) (layer step : Nat) : List HandSum := s.plotter.hand.filter (fun x => x.layer = layer && x.step = step)

/-- The code records for the next step: those of the tile sums; a missing tile keeps the codes it had. -/
def State.nextCodes (s : State) (l : PlanLayer) (step : Nat) : List (List Byte) :=
  let hs := s.handOf l.layer step
  let m := match hs with | h :: _ => h.m | [] => 0
  let n := match hs with | h :: _ => s.tilesOf l.layer h.m h.n | [] => 0
  (upFrom 0 n).map (fun t =>
    match hs.find? (fun x => x.tile = t) with
    | some x => x.val.codes.map (fun c => BitVec.ofNat 8 c)
    | none => (s.codesOf l t step (ceilDiv m 8)).map (fun c => BitVec.ofNat 8 c))

/-- The cores that convert a layer's copies: those of its sheet that lend the Plotter their queues, or, where none does, its mapped cores
(R470, R498; notes/assumptions/8.md). -/
def State.copyCores (s : State) (layer : Nat) : List Nat :=
  match s.schedLayer layer with
  | none => []
  | some r =>
    let l := s.plotCores r.sheet
    if l.isEmpty then (sheetCores r.sheet).filter (fun n => s.coreStateOf n = .mapped) else l

/-- One tile of a copy in form `f` is converted on a core, under the core's tensor scale for a plain form; the core counts and flags what the
conversion meets (R170, R184, R192, R498). Which core converts it is a free value (notes/assumptions/8.md). -/
def State.convertTile (s : State) (l : PlanLayer) (f : Nat) (conv : Int → CopyTile) : State × List Byte :=
  let cores := s.copyCores l.layer
  let x := s.fresh
  match cores[x.1 % cores.length]? with
  | none => (x.2, (conv ((x.1 % 255 : Nat) - 127 : Int)).data)
  | some n =>
    let t := conv (Tab.get ScaleEntry.zero (s.core n).scales l.tent).t
    (x.2.updCore n (fun c => if isScaled f then (c.addConv t.cnt).noteAmax f l.tent t.src else c.addConv t.cnt), t.data)

def State.convertTiles (s : State) (l : PlanLayer) (f : Nat) : List (Int → CopyTile) → State × List (List Byte)
  | [] => (s, [])
  | conv :: t =>
    let x := s.convertTile l f conv
    let y := State.convertTiles x.1 l f t
    (y.1, x.2 :: y.2)

/-- Copies of the committed master weights and the codes for step + 1 go down (step 7 of R474). -/
def State.regenerate (s : State) (l : PlanLayer) (p : OwnerPlace) (step : Nat) : State :=
  let w := s.masters p (s.stateHdr p).active
  let md := s.fmt.subnormal
  let codes := s.nextCodes l step
  let x := s.convertTiles l (s.rungOf l) (forwardCopy md (s.rungOf l) p.rows p.cols w)
  let y := x.1.convertTiles l (s.backForm l) (backwardCopy md (s.backForm l) p.rows p.cols w)
  ((y.1.sendItems l.layer 0 step x.2 0).sendItems l.layer 1 step y.2 0).sendItems l.layer 2 step codes 0

/-! ### Mirror refresh (R499, R500) -/

/-- A part of the owner state goes to the mirror owner, in messages within the bound of R554 (R557). -/
def State.sendState (s : State) (dst layer step a : Nat) (p : OwnerPlace) (n : Nat) : State :=
  let l := chunks (2 ^ 28) (s.delivered p.stack a n)
  let s := match s.peer dst with | some q => s.ferryOut q.localGroup p.stack n | none => s
  (l.zip (upFrom 0 l.length)).foldl (fun t x =>
    t.message dst none none (.down { layer := layer, part := 3, step := step, first := (a - p.hdr) / 64 + 2 ^ 22 * x.2,
                                     count := ceilDiv x.1.length 64, data := x.1 })) s

/-- The update of a layer that ends now is one after which its state goes to the mirror owner (R499). -/
def State.refreshDue (s : State) (layer : Nat) : Bool :=
  s.roleOf layer = 1 && (Tab.get 0 s.plotter.mirrorGap layer + 1) % (max 1 s.plotter.mirrorInterval) = 0

/-- An update of a layer is counted, and its state sent to the mirror owner every MIRROR_INTERVAL updates (R499). -/
def State.countUpdate (s : State) (l : PlanLayer) (p : OwnerPlace) : State :=
  let n := Tab.get 0 s.plotter.mirrorGap l.layer + 1
  let due := s.refreshDue l.layer
  let s := { s with plotter := { s.plotter with mirrorGap := Tab.set s.plotter.mirrorGap l.layer n } }
  if due then
    let h := s.stateHdr p
    let k := p.rows * p.cols
    ((s.sendState l.mirror l.layer h.tag p.hdr p 64).sendState l.mirror l.layer h.tag (p.buf h.active) p (4 * k)).sendState l.mirror
      l.layer h.tag p.mom p (2 * k)
  else s

/-- Unit u of the owner state received for a layer and step. -/
def PlotterSt.unitOf (p : PlotterSt) (layer step u : Nat) : Option (List Byte) :=
  (p.refresh.find? (fun x => x.1 = layer && x.2.1 = step && x.2.2.1 ≤ u && u < x.2.2.1 + ceilDiv x.2.2.2.length 64)).map (fun x =>
    let b := slice x.2.2.2 (64 * (u - x.2.2.1)) 64
    b ++ zeros (64 - b.length))

/-- Units a … a + n − 1, when all of them have been received. -/
def PlotterSt.unitsOf (p : PlotterSt) (layer step a n : Nat) : Option (List Byte) :=
  let l := (upFrom a n).map (p.unitOf layer step)
  if l.all (fun x => x.isSome) then some ((l.map (fun x => x.getD [])).flatten) else none

/-- A piece of owner state reaches the mirror owner; once whole, it is committed through the mirror's own journal, unless it is no newer
than the state held (R500). -/
def State.mirrorState (s : State) (d : DownMsg) : State :=
  match s.placeOfLayer d.layer with
  | none => s
  | some p =>
    if s.roleOf d.layer != 2 then s
    else
      let s := { s with plotter := { s.plotter with refresh := s.plotter.refresh ++ [(d.layer, d.step, d.first, d.data)] } }
      let k := p.rows * p.cols
      let f := pad64 (4 * k) / 64
      match s.plotter.unitOf d.layer d.step 0 with
      | none => s
      | some hb =>
        let h := stateHdrOf hb
        match s.plotter.unitsOf d.layer d.step (1 + f * (h.active % 2)) (ceilDiv (4 * k) 64),
              s.plotter.unitsOf d.layer d.step (1 + 2 * f) (ceilDiv (2 * k) 64) with
        | some w, some m =>
          let s := { s with plotter := { s.plotter with
            refresh := s.plotter.refresh.filter (fun x => !(x.1 = d.layer && x.2.1 ≤ d.step)) } }
          let old := s.stateHdr p
          if h.tag ≤ old.tag then s
          else
            let a := 1 - old.active % 2
            let s := (s.writeStack p.stack (p.buf a) (w.take (4 * k))).writeStack p.jstack p.journal (m.take (2 * k))
            let s := s.putHdr p { h with active := a, journal := 1 }
            (s.raiseRung d.layer h.rung).closeJournal p
        | _, _ => s

/-! ### Takeover (R501, R502) -/

/-- What a TAKEOVER for a layer changes at any module (R502). -/
def State.noteTakeover (s : State) (layer : Nat) : State :=
  { s with halyard := { s.halyard with takenOver := if s.halyard.takenOver.contains layer then s.halyard.takenOver
                                                    else s.halyard.takenOver ++ [layer] } }

def State.setRole (s : State) (layer role : Nat) : State :=
  { s with plotter := { s.plotter with role := Tab.set s.plotter.role layer role } }

/-- A layer's updates and sums are given up. -/
def State.dropLayer (s : State) (layer : Nat) : State :=
  let p := s.plotter
  { s with plotter := { p with hand := p.hand.filter (fun x => x.layer != layer), firstSum := p.firstSum.filter (fun x => x.1 != layer),
                               ready := p.ready.filter (fun x => x.layer != layer),
                               running := p.running.filter (fun x => x.2.layer != layer || 2 ≤ x.2.stage) },
           halyard := { s.halyard with sums := s.halyard.sums.filter (fun o => o.layer != layer) } }

/-- The mirror owner of a lost owner takes over its layers (R501). -/
def State.promoteMirror (s : State) (lost : Nat) : State :=
  if s.job.plan.isNone then s
  else
    (s.planLayers.filter (fun l => l.owner = lost && s.roleOf l.layer = 2)).foldl (fun t l =>
      let tag := (t.stepTag l.layer).getD 0
      let t := ((t.setRole l.layer 3).noteTakeover l.layer).controlAll subTAKEOVER l.layer tag 0
      match t.schedLayer l.layer with
      | some r => t.plotEvent "MIRROR_PROMOTED" r [tag]
      | none => t) s

/-- A TAKEOVER message (R502). -/
def State.takeoverFor (s : State) (layer : Nat) : State :=
  let s1 := s.noteTakeover layer
  if s.roleOf layer = 1 then
    let s2 := (s1.setRole layer 4).dropLayer layer
    match s.schedLayer layer with
    | some r => s2.plotEvent "OWNERSHIP_LOST" r []
    | none => s2
  else s1

end Sys2Proof.Machine
end

