-- ==== Sys2Proof/Machine/Transfer.lean ====
section
/-!
DEFINITION. Dispatch transfers: DSEND (R288 to R291), DSTORE and DLOAD (R292, R293, R321, R795), DRECV (R295, R296, R563), and the
arrival of DSEND data (R93, R291).
-/

namespace Sys2Proof.Machine

/-! ### DSEND -/

/-- The receivers of a DSEND as logical cores: one core, the selected cores of a cluster, or the mapped cores of a sheet, as they
were placed at plan load (R288, R406). -/
def State.sendTargets (s : State) (f : DsendF) : List Nat :=
  if f.dkind = 0 then [f.dest]
  else
    let n := s.placeOf f.dest
    let cs := if f.dkind = 1 then ((upFrom 0 6).filter (fun k => bit f.mask k)).map (fun k => coreOfCluster (clusterOf n) k)
      else sheetCores (sheetOf n)
    cs.filterMap s.logicalAtLoad

/-- The packets of a DSEND to one receiver leave (R359, R381), but for those without a route (R386). -/
def State.sendPackets (s : State) (n d : Nat) (f : DsendF) (key : Nat) (l : List (List Byte)) : State :=
  let ps := s.packets n f.vc n d [] l
  ((ps.zip l).zip (upFrom 0 l.length)).foldl (fun t x => t.routed n d 1 (fun u =>
    { u with flight := { u.flight with sends := u.flight.sends ++
      [{ src := n, dst := d, vc := f.vc, dmem := f.dmem, daddr := f.daddr + packetBytes * x.2, data := x.1.2,
         pen := if x.1.1.last then f.pen else none, key := key, pkt := x.1.1, place := .flying }] } })) (s.numbered n f.vc l.length)

/-- The data of a DSEND leaves for every receiver (R93, R290). -/
def State.sendData (s : State) (n : Nat) (w : InstrWord) (key : Nat) : State :=
  let f := dsendF w
  let data := packetData (Memory.readN (s.core n).act f.src f.len)
  (s.sendTargets f).foldl (fun t l => (t.tableRead (.legend n l)).sendPackets n (t.phys l) f key data) s

/-- The VC4 credits of an operation's way are withheld: the table of the port toward which a DEXIT's contributions flow is full, or a
DSEND's way leads over a router of a port group with a full port (R111; DEDUCED: notes/assumptions/34.md). -/
def State.vc4Full (s : State) (n : Nat) (w : InstrWord) : Bool :=
  if opcodeOf w = 0x43 then
    (match s.entryOf n (dexitF w).htab with
     | some e => (match s.chainEntry e.chain with | some c => s.portFull (8 * c.group + c.port) | none => false)
     | none => false)
  else
    (upFrom 0 4).any (fun g => (upFrom (8 * g) 8).any s.portFull && (s.sendTargets (dsendF w)).any (fun l =>
      (s.wayFrom n (s.phys l)).any (fun r => (attachments (targetStation (44 + g))).contains r)))

/-- The packets of the DSENDs between two cores on a channel, oldest first (R381). -/
def FlightSt.sendsOf (f : FlightSt) (src dst vc : Nat) : List SendMsg := f.sends.filter (fun m => m.src = src && m.dst = dst && m.vc = vc)

/-- A packet is written, and with a send's last one its destination pennant is raised (R93). -/
def State.writeSend (s : State) (m : SendMsg) : State :=
  let s := s.updCore m.dst (fun c => c.writeMem m.dmem m.daddr m.data)
  match m.pen with
  | some p => s.raise m.dst p 1 none
  | none => s

/-- DSEND_ARRIVAL (R93, R291, R381): the nth packet between two cores on a channel arrives; what is in order is written, and a send's last
byte raises its destination pennant. Toward or from a fenced core it is discarded (R96). -/
def execDsendArrival (src : Nat) (msg : Arrived) (vc : Nat) (s : State) : Res :=
  withCore src (withCore msg.dst
    (let dst := msg.dst
     let x := arrive SendMsg.place (fun p (m : SendMsg) => { m with place := p }) (fun m => m.src = src && m.dst = dst && m.vc = vc)
       (fun m => m.dst = dst && m.vc = vc) msg.nth s.flight.sends
     let t := ({ s with flight := { s.flight with sends := x.1 } }.reorderWait dst x.2.2).landed (x.2.1.map SendMsg.pkt)
     if s.coreStateOf src = .fenced || s.coreStateOf dst = .fenced then done t
     else done (x.2.1.foldl State.writeSend t)))

/-! ### DSTORE and DLOAD -/

/-- DSTORE (R71, R292, R293, R321): the data go to the stack's station on VC1; without a route they are discarded, and the write is
never acknowledged (R386). -/
def execDstore (core : Nat) (q : QName) (s : State) : Res :=
  issue s core q 0x41 never (fun t w k =>
    let f := dmoveF w
    let t := t.enqueueOp core q w k false
    match t.moveRange core f with
    | some (st, a) =>
      let data := Memory.readN (t.core core).act f.laddr f.len
      let l := packetData data
      t.toTarget core st 1 l.length (fun d _ u =>
        (((u.carried core 1 core d l).linesAt st a data.length (.dload core)).writeHbm st a data).finishOp core q k)
    | none => t)

/-- DLOAD (R71, R292, R321, R795); it waits for a line that cannot be read (R312). -/
def execDload (core : Nat) (q : QName) (s : State) : Res :=
  issue s core q 0x42 never (fun t w k =>
    let f := dmoveF w
    let t := t.enqueueOp core q w k false
    match t.moveRange core f with
    | none => t
    | some (st, a) =>
      t.toTarget core st 1 1 (fun d _ u =>
        let r := ((u.carried core 1 core d [[]]).linesAt st a f.len (.dload core)).readStart st a f.len
        let lw : LoadWait := { wait := { stack := st, addr := a, data := r.2.data, need := r.2.lost }, lmem := f.lmem, laddr := f.laddr, key := k }
        if r.2.lost.isEmpty then r.1.loaded core lw
        else (r.1.updCore core (fun c => { c with loads := c.loads ++ [lw] })).wantLines st r.2.lost (.dload core)))

/-! ### DRECV -/

/-- The request for the tagged message of a DRECV goes to its source (R563). -/
def State.askTagged (s : State) (n : Nat) (w : InstrWord) : State :=
  match s.recvEntry n (drecvF w).tag with
  | none => s
  | some e =>
    let g : GatherMsg := { kind := 5, aux := e.ready, tag := (drecvF w).tag, layer := e.region, step := s.stepCurrent, first := e.offset,
                           count := e.len }
    let o : OutGather := { g := g, holder := e.source, rest := [], use := GatherUse.recv n (drecvF w).tag }
    let s := s.updCore n (fun c => { c with recvAsked := true })
    ({ s with net := { s.net with gathers := s.net.gathers ++ [o] } }).message e.source none none (.gatherReq g)

/-- The next instruction of the Dispatch queue of a core is a DRECV whose source has not been asked yet (R563). -/
def State.recvNext (s : State) (n : Nat) : Bool :=
  let c := s.core n
  !c.recvAsked && !c.stopped && (c.dq.st != .idle && c.dq.st != .halted && c.dq.st != .trapped) && c.dq.pc < c.dq.qlen
    && opcodeOf (c.fetch .dispatch) = 0x44

/-- A tagged message is written for a DRECV; a length other than LEN traps after at most LEN units have been written (R71, R296). -/
def State.takeTagged (s : State) (n : Nat) (r : RecvWait) (data : List Byte) : State :=
  let s := s.updCore n (fun c => { (c.writeMem r.dmem r.daddr (data.take r.len)) with recvs := c.recvs.erase r })
  if data.length = r.len then s.finishOp n .dispatch r.key else s.trap n .dispatch cRECV_LENGTH

/-- A tagged message reaches the core: the oldest DRECV of its tag takes it, or it waits for one to issue (R563). -/
def State.deliverTagged (s : State) (n tag : Nat) (data : List Byte) : State :=
  match (s.core n).recvs.find? (fun r => r.tag = tag) with
  | none => s.updCore n (fun c => { c with recvHeld := c.recvHeld ++ [(tag, data)] })
  | some r => s.takeTagged n r data

/-- A tagged message that a port group has received goes from its station to the core on VC4 (R361, R563); without a route it is discarded
(R386). -/
def State.tagArrives (s : State) (g n tag : Nat) (data : List Byte) : State :=
  let l := packetData data
  s.fromStation (groupStation g) n l.length (fun here _ t => (t.carried (stationSource (groupStation g)) 4 here n l).deliverTagged n tag data)

/-- A DRECV has issued: what has come for it already is written. -/
def State.startDrecv (s : State) (n : Nat) (q : QName) (w : InstrWord) (key : Nat) : State :=
  let f := drecvF w
  let r : RecvWait := { tag := f.tag, dmem := f.dmem, daddr := f.daddr, len := f.len, key := key }
  let s := (s.enqueueOp n q w key false).updCore n (fun c => { c with recvs := c.recvs ++ [r], recvAsked := false })
  match (s.core n).recvHeld.find? (fun x => x.1 = f.tag) with
  | none => s
  | some x => (s.updCore n (fun c => { c with recvHeld := c.recvHeld.erase x })).takeTagged n r x.2

/-- DRECV (R295, R563): as soon as it stands in front, the source is asked for the tagged message; issued, the operation waits for it. -/
def execDrecv (core : Nat) (q : QName) (s : State) : Res :=
  let s := if core < numCores && q = .dispatch && s.recvNext core then s.askTagged core ((s.core core).fetch .dispatch) else s
  issue s core q 0x44 never (fun t w k => t.startDrecv core q w k)

end Sys2Proof.Machine
end

