-- ==== Sys2Proof/Machine/NetOps.lean ====
section
/-!
DEFINITION. What a message does at this module (R463 to R466, R499, R502, R523, R527, R557 to R563), the holder's answers to gathers, what
replies are for (R311, R352 to R355, R466), and the loss of a peer (R501, R574 to R576).
-/

namespace Sys2Proof.Machine

/-! ### Downhauls (R463, R464, R499, R557) -/

/-- The form that a forward copy has been promoted to shows in the size of its images (R205, R206). -/
def State.noteForm (s : State) (l : PlanLayer) (d : DownMsg) : State :=
  match s.formOf l (if d.part = 0 && d.count != 0 then d.data.length / d.count else 0) with
  | some f => s.raiseRung l.layer f
  | none => s

/-- What a port group has received of a layer's part goes to the stacks that hold it. -/
def State.ferryCopy (s : State) (g : Nat) (l : PlanLayer) (part first count bytes : Nat) : State :=
  (s.writeStacks l part first count).foldl (fun t k => t.ferryIn g k bytes) s

/-- What stacks send to a module goes to the stations of its port group. -/
def State.ferryTo (s : State) (dst : Nat) (l : List (Nat × Nat × Nat)) : State :=
  match s.peer dst with
  | some p => l.foldl (fun t x => t.ferryOut p.localGroup x.1 x.2.2) s
  | none => s

/-- A discarded DOWNHAUL (R464). -/
def State.downDiscard (s : State) (iface : Nat) : State :=
  s.halCount (groupOfIface iface) (fun c => { c with downDiscarded := satAdd32 c.downDiscarded 1 })

/-- Units of owner state that a PART 3 message brings again: all of them when the state is no newer than the mirror owner's own (R464, R500,
R557). -/
def State.oldUnits (s : State) (d : DownMsg) : List Nat :=
  match s.placeOfLayer d.layer with
  | none => []
  | some p =>
    if s.roleOf d.layer != 2 then []
    else (upFrom d.first (ceilDiv d.data.length 64)).filter (fun u =>
      decide (d.step ≤ (s.stateHdr p).tag) || (s.plotter.unitOf d.layer d.step u).isSome)

/-- A PART 3 message from the layer's owner. -/
def State.stateArrives (s : State) (iface : Nat) (d : DownMsg) : State :=
  let old := s.oldUnits d
  if old.isEmpty then s.mirrorState d
  else if old.length = ceilDiv d.data.length 64 then s.downDiscard iface
  else (s.downDiscard iface).mirrorState d

/-- A DOWNHAUL message from a module. -/
def State.downArrives (s : State) (src iface : Nat) (d : DownMsg) : State :=
  match s.planLayer d.layer with
  | none => s
  | some l =>
    if d.part = 3 then
      (if src = l.owner && !s.halyard.takenOver.contains d.layer then s.stateArrives iface d
       else s.netCount iface (fun c => { c with rxMalformed := satAdd32 c.rxMalformed 1 }))
    else if d.part > 3 then s
    else
      let fresh := if s.copyHeld l d.part d.step then [] else s.downFresh l d
      let s := if fresh = [d] then s else s.downDiscard iface
      fresh.foldl (fun t x =>
        ((t.ferryCopy (groupOfIface iface) l x.part x.first x.count x.data.length).noteForm l x).originDown x) s

/-! ### Answers to gathers (R559, R560, R563) -/

/-- The step of an item's copy on the stack that holds it, plus 1. -/
def State.itemStep (s : State) (l : PlanLayer) (part n : Nat) : Option Nat :=
  (s.copyPlace l part n).bind (fun p => s.heldNext l.layer (s.placeAddr p n).1 part)

/-- The form in which this module holds a part of a layer's copy (R559, R561); 0 for code records. -/
def State.heldForm (s : State) (l : PlanLayer) (part : Nat) : Nat :=
  if part = 0 then (match (s.copyPlaces l).find? (fun p => p.part = 0) with
    | some p => s.copyFormOf (s.placeAddr p p.first).1 l.layer
    | none => s.rungOf l)
  else if part = 1 then (match (s.copyPlaces l).find? (fun p => p.part = 1) with
    | some p => s.backHeld (s.placeAddr p p.first).1 l
    | none => s.backForm l) else 0

/-- Ranges of items of a part, as they stand in memory. -/
def State.itemRanges (s : State) (l : PlanLayer) (part first count : Nat) : Option (List (Nat × Nat × Nat)) :=
  let rs := (upFrom first count).map (fun n => (s.copyPlace l part n).map (fun p =>
    let a := s.placeAddr p n
    (a.1, a.2, if part = 0 then 128 * columnBytes (s.heldForm l 0) else if part = 1 then (s.backBytes l (s.heldForm l 1) n).getD (64 * p.stride) else 64 * p.stride)))
  if rs.all (fun x => x.isSome) then some (rs.filterMap (fun x => x)) else none

/-- Data of ranges through the outer code for a gather; none while a line waits for its mirror. -/
def State.readRanges (s : State) (l : List (Nat × Nat × Nat)) : State × Option (List Byte) :=
  l.foldl (fun a x =>
    let r := a.1.readHbm x.1 x.2.1 x.2.2 .gather
    (r.1, match a.2, r.2 with | some u, some v => some (u ++ v) | _, _ => none)) (s, some [])

/-- What a request can be answered from: the ranges, forward tiles in the form they are held in, or COUNT 0 with the step held. -/
inductive Answer where
  | none (step : Nat)
  | bytes (step : Nat) (l : List Byte)
  | ranges (step : Nat) (l : List (Nat × Nat × Nat))
  | tiles (step form : Nat) (l : List (Nat × Nat × Nat))
  deriving DecidableEq, Repr

def State.answerTo (s : State) (g : GatherMsg) : Answer :=
  if g.kind = 4 then .bytes g.step (slice s.schedule g.first g.count)
  else if g.kind = 2 then
    match s.placeOfLayer g.layer with
    | some p => if s.roleOf g.layer = 0 then .none 0
      else .ranges (s.stateHdr p).tag [(p.stack, p.hdr + 64 * g.first, 64 * g.count)]
    | none => .none 0
  else
    match s.planLayer g.layer with
    | none => .none 0
    | some l =>
      let part := if g.kind = 3 then 2 else g.kind
      match s.itemRanges l part g.first g.count with
      | none => .none 0
      | some rs =>
        let held := (upFrom g.first g.count).foldl (fun a n => min a ((s.itemStep l part n).getD 0)) (2 ^ 33)
        if g.kind = 0 && held = g.step + 1 then .tiles (held - 1) (s.heldForm l 0) rs
        else if g.kind = 3 || held = g.step + 1 then .ranges (held - 1) rs else .none (held - 1)

/-- Tiles of a form in the WIRE form that AUX asks for, where R352 widens to it; otherwise as they are held (R352, R559; DESIGN CHOICE:
notes/assumptions/24.md). -/
def inWire (form wire : Nat) (data : List Byte) : List Byte :=
  if form != wire && widens form wire then (chunks (128 * columnBytes form) data).flatMap (fun t => (widenTile form wire t).1) else data

/-- The source has passed a step (R563). -/
def State.passed (s : State) (step : Nat) : Bool :=
  decide (s.stepCurrent > step) || (s.job.rec0.st = .complete && s.job.rec0.step ≥ step)
    || (s.job.rec1.st = .complete && s.job.rec1.step ≥ step)

/-- The items of a reply in runs of `n`, each with its place among them. -/
def replyRuns (n : Nat) (items : List (List Byte)) : List (Nat × List (List Byte)) :=
  (upFrom 0 (ceilDiv items.length n)).map (fun i => (n * i, (items.drop (n * i)).take n))

/-- The reply to a request: one message, or several when the data are longer than one may be (R554). -/
def State.reply (s : State) (dst : Nat) (g : GatherMsg) (step : Nat) (data : Option (List Byte)) : State :=
  let d := data.getD []
  if d.length + 20 ≤ 65535 * 8192 then
    s.message dst none none (.gatherData { g with step := step, count := if data.isSome then g.count else 0 } d)
  else
    let items := match s.planLayer g.layer with
      | some l => if g.kind = 1 then s.itemsOf l 1 g.first g.count d else chunks (max 1 (d.length / max 1 g.count)) d
      | none => chunks (max 1 (d.length / max 1 g.count)) d
    let size := items.foldl (fun a x => max a x.length) 1
    (replyRuns (max 1 ((65535 * 8192 - 20) / size)) items).foldl (fun t r =>
      t.message dst none none (.gatherData { g with step := step, first := g.first + r.1, count := r.2.length } r.2.flatten)) s

/-- A request is held (R563). -/
def State.holdGather (s : State) (h : HeldGather) : State :=
  if s.net.held.contains h then s else { s with net := { s.net with held := s.net.held ++ [h] } }

def State.unholdGather (s : State) (h : HeldGather) : State := { s with net := { s.net with held := s.net.held.erase h } }

/-- A GATHER_REQ is answered, or held: a tagged one until its READY counter covers 1, another until its lines can be read. -/
def State.gatherAsked (s : State) (src : Nat) (g : GatherMsg) : State :=
  if g.kind = 5 then
    (if s.passed g.step then s.reply src g g.step none
     else match s.regions[g.layer]? with
      | some r => s.holdGather { src := src, stack := r.stack, g := g }
      | none => s.reply src g g.step none)
  else if g.kind > 5 then s
  else
    let h : HeldGather := { src := src, stack := 0, g := g }
    match s.answerTo g with
    | .none st => (s.unholdGather h).reply src g st none
    | .bytes st l => (s.unholdGather h).reply src g st (some l)
    | .ranges st l =>
      let r := s.readRanges l
      match r.2 with
      | some d => ((r.1.unholdGather h).ferryTo src l).reply src g st (some d)
      | none => r.1.holdGather h
    | .tiles st form l =>
      let r := s.readRanges l
      match r.2 with
      | some d => ((r.1.unholdGather h).ferryTo src l).reply src g st (some (inWire form g.aux d))
      | none => r.1.holdGather h

/-- Untagged requests that waited for lines are tried again. -/
def State.resumeGathers (s : State) : State :=
  (s.net.held.filter (fun h => h.g.kind != 5)).foldl (fun t h => t.gatherAsked h.src h.g) s

/-- A held tagged request whose READY counter covers 1 is answered, and 1 consumed (R563). -/
def State.tagReady (s : State) (h : HeldGather) : State :=
  match s.regions[h.g.layer]? with
  | none => (s.unholdGather h).reply h.src h.g h.g.step none
  | some r =>
    let d := s.readHbm r.stack (r.start + 64 * h.g.first) (64 * h.g.count) .gather
    match d.2 with
    | none => d.1
    | some l => (((d.1.counterTake r.stack h.g.aux 1).unholdGather h).ferryTo h.src [(r.stack, r.start, l.length)]).reply h.src h.g h.g.step (some l)

/-! ### Replies (R311, R353, R354, R466, R563) -/

/-- A range of a stack lies in a region of it. -/
def Region.covers (r : Region) (k a len : Nat) : Bool := r.stack = k && r.start ≤ a && a + len ≤ r.start + r.bytes

/-- Place of a forward tile of a gather entry: where the layer's placement in the entry's GATHER region puts it, else in sequence (R351,
R795). -/
def State.gatherPlace (s : State) (reg lay n i size : Nat) : Option Nat :=
  match (s.planLayer lay).bind (fun l => l.placements.find? (fun p =>
      p.part = 0 && p.region = reg && p.first ≤ n && n < p.first + p.count)) with
  | some p => some (s.placeAddr p n).2
  | none => (s.regions[reg]?).map (fun r => r.start + i * pad64 size)

/-- Place of a backward tile in a KEEP region of the stack, with the region's index (R354, R795). -/
def State.keepPlace (s : State) (k lay n : Nat) : Option (Nat × Nat) :=
  ((s.planLayer lay).bind (fun l => l.placements.find? (fun p =>
      p.part = 1 && p.first ≤ n && n < p.first + p.count
        && (match s.regions[p.region]? with | some r => r.stack = k && r.kind = 5 | none => false)))).map (fun p => (p.region, (s.placeAddr p n).2))

/-- Rows of a table without those that a range of addresses meets. -/
def clearRows (l : List KeepRow) (a len : Nat) : List KeepRow := l.filter (fun r => r.addr + r.len ≤ a || a + len ≤ r.addr)

/-- A forward tile of a gather entry arrives: it is widened, written and counted (R351, R352). -/
def State.gatherTile (s : State) (k : Nat) (e : GatherEntry) (g : GatherMsg) (x : List Byte × Nat) : State :=
  let w := widenTile e.wire e.opform x.1
  match s.gatherPlace e.region g.layer x.2 (x.2 - e.tileFirst) w.1.length with
  | none => s
  | some a =>
    let s := s.writeHbm k a w.1 .gather
    let s := s.updStack k (fun y => { y with
      counts := { y.counts with widenInexact := satAdd32 y.counts.widenInexact w.2 }
      gathered := clearRows y.gathered a w.1.length ++
        [{ region := e.region, layer := g.layer, tile := x.2, step := g.step + 1, addr := a, len := w.1.length }] })
    s.counterRaise k e.arrive 1

/-- A backward tile arrives: it is kept when the KEEP region has room, so that it meets no other tile of its step (R354); one that has been
gathered again takes its place, for a descriptor is about to read it (R355). -/
def State.keepTile (s : State) (k : Nat) (again : Bool) (g : GatherMsg) (x : List Byte × Nat) : State :=
  match s.keepPlace k g.layer x.2 with
  | none => s
  | some (reg, a) =>
    let n := x.1.length
    let room : Bool := (match s.regions[reg]? with | some r => r.covers k a n | none => false)
      && (again || !(s.stack k).keep.any (fun r => r.step = g.step + 1 && r.addr < a + n && a < r.addr + r.len && !(r.layer = g.layer && r.tile = x.2)))
    if !room then s
    else
      (s.writeHbm k a x.1 .gather).updStack k (fun y => { y with keep := clearRows y.keep a n ++
        [{ region := reg, layer := g.layer, tile := x.2, step := g.step + 1, addr := a, len := n }] })

/-- The next of the holders left is asked; with none, a copy waits for its next timeout, and a gather entry or kept tile follows step 5
of R311 (R353). -/
def State.nextHolder (s : State) (o : OutGather) : State :=
  match o.rest.filter s.reachable with
  | m :: rest => s.askGather m o.g rest o.use
  | [] =>
    match o.use with
    | .entry k i _ => s.noHolder k i
    | _ => s

/-- The tiles of a gather entry arrive; forward tiles in another form than its WIRE form are no answer (notes/assumptions/24.md). -/
def State.entryData (s : State) (k i : Nat) (again : Bool) (o : OutGather) (g : GatherMsg) (data : List Byte) : State :=
  match (s.gatherList k)[i]?, s.planLayer g.layer with
  | some e, l =>
    let tiles := match l with
      | some l => s.itemsOf l g.kind g.first g.count data
      | none => chunks (if g.count = 0 then 1 else data.length / g.count) data
    if g.kind = 0 && data.length != g.count * (128 * columnBytes e.wire) then s.nextHolder o
    else (tiles.zip (upFrom g.first g.count)).foldl (fun t x => if g.kind = 0 then t.gatherTile k e g x else t.keepTile k again g x) s
  | none, _ => s

/-- A copy asked for under R466 is written as a downhaul is, and not sent on. A code record arrives with both its slots. -/
def State.copyData (s : State) (group lay : Nat) (g : GatherMsg) (data : List Byte) : State :=
  match s.planLayer lay with
  | none => s
  | some l =>
    let part := if g.kind = 3 then 2 else g.kind
    let d : DownMsg := { layer := lay, part := part, step := g.step, first := g.first, count := g.count, data := data }
    let data := if part = 2 then
        ((s.itemsOf l part g.first g.count data).map (fun d => slice d ((g.step + 1) % 2 * (d.length / 2)) (d.length / 2))).flatten
      else data
    ((s.ferryCopy group l part g.first g.count data.length).noteForm l d).copyWriteAll { layer := lay, step := g.step, part := part, first := g.first, count := g.count, data := data }

def State.dropOut (s : State) (o : OutGather) : State := { s with net := { s.net with gathers := s.net.gathers.erase o } }

/-- A GATHER_DATA message: its request is the outstanding one that it answers. -/
def State.gatherAnswered (s : State) (src group : Nat) (g : GatherMsg) (data : List Byte) : State :=
  match s.net.gathers.find? (fun o => o.holder = src && o.g.kind = g.kind && o.g.tag = g.tag && o.g.layer = g.layer
      && o.g.first = g.first && o.g.aux = g.aux && (g.count = 0 || g.kind ≥ 2 || o.g.step = g.step)) with
  | none => s
  | some o =>
    let s := s.dropOut o
    match o.use with
    | .mirror k line => ((s.ferryIn group k data.length).mirrorData k line g data o.rest).resumeGathers
    | .recv core tag => s.tagArrives group core tag data
    | .copy lay => if g.count = 0 then s.nextHolder o else s.copyData group lay g data
    | .entry k i again => if g.count = 0 then s.nextHolder { o with rest := o.rest ++ [o.holder] } else (s.ferryIn group k data.length).entryData k i again o g data

/-! ### Peer loss (R574 to R576) -/

/-- Gathers that wait for a lost module: mirror fetches and entries go to the next source (R353, R794). -/
def State.failOver (s : State) (m : Nat) : State :=
  (s.net.gathers.filter (fun o => o.holder = m)).foldl (fun t o =>
    match o.use with
    | .mirror k line => (match t.fetchOf k line with
      | some f => if t.asksFor k line o.g then (if f.came then t.dropOut o else (t.dropOut o).askSource k f)
        else (t.dropOut o).nextPart k line o.g o.rest
      | none => t.dropOut o)
    | .recv _ _ => t
    | _ => (t.dropOut o).nextHolder o) s

/-- The interface of each unacknowledged message to a peer: that of its oldest frame, or the group's first where none was up (R575; DESIGN
CHOICE: notes/assumptions/32.md). -/
def PeerSt.lostOn (p : PeerSt) : List Nat :=
  ((p.tx.map (fun f => f.msgId)).eraseDups).filterMap (fun m => (p.tx.find? (fun f => f.msgId = m)).map (fun f =>
    if f.iface < 64 then f.iface else 16 * p.localGroup))

/-- A peer is declared lost (R575, R501, R523). -/
def State.losePeer (s : State) (m : Nat) (cause : LossCause) : State :=
  match s.peer m with
  | none => s
  | some p =>
    if p.lost then s
    else
      let s := p.lostOn.foldl (fun t i => t.netCount i (fun c => { c with messagesToLost := satAdd32 c.messagesToLost 1 })) s
      let s := s.setPeer { p with lost := true, cause := some cause, tx := [], joined := none }
      let code := match cause with | .heartbeat => 0 | .leave => 1 | .noPort => 2
      let s := s.event "PEER_LOST" clsINFO srcModule 0 [m, code]
      ((s.promoteMirror m).failOver m).drainBacklog

/-- Every peer is lost when none of the module's own interfaces is up (R574). -/
def State.testPorts (s : State) : State :=
  if s.job.plan.isSome && (upFrom 0 4).all (fun g => (s.groupUp g).isEmpty) then
    (s.net.peers.filter (fun p => p.present && p.module != destModule)).foldl (fun t p => t.losePeer p.module .noPort) s
  else s

/-- The interface rate toward a peer in Gb/s: 1.6 Tb/s, or 800 Gb/s where its group's first up interface is half a port (R545, R569). -/
def State.ifaceRate (s : State) (g : Nat) : Nat :=
  match s.groupUp g with
  | i :: _ => if s.portMode (i / 2) = 1 then 800 else 1600
  | [] => 1600

/-- A peer's sending and receiving state at plan load and after a JOIN (R564, R566, R569); `gbps` is the interface rate. -/
def PeerSt.restart (p : PeerSt) (gbps now : Nat) : PeerSt :=
  { p with nextSeq := 0, nextMsg := 0, tx := [], ackBase := 0, sackMask := 0, rxCe := false, unacked := 0, rx := [], delivered := [], joined := none,
           srtt := 0, rttvar := 0, sampled := false, alpha := 0, rate := 65536 * gbps, windowMarked := false, windowAt := now }

/-- A first JOIN of a module: the sequences of both sides begin anew (R564). -/
def State.beginPeer (s : State) (m msgId : Nat) : State :=
  s.updPeer m (fun p => { p.restart (s.ifaceRate p.localGroup) s.micros with joined := some msgId })

/-- JOIN (R527): the sender is no longer lost, and heartbeats to it resume. -/
def State.joinFrom (s : State) (m : Nat) : State :=
  let t := s.micros
  (s.updPeer m (fun p => { p with lost := false, cause := none, contact := true, lastBeat := t })).drainBacklog

/-- A HEARTBEAT (R516, R574, R576). -/
def State.beatFrom (s : State) (m : Nat) (b : BeatMsg) : State :=
  let t := s.micros
  s.updPeer m (fun p =>
    let recent := p.readings.filter (fun x => t ≤ x.1 + 8000)
    if p.lost then p else { p with contact := true, lastBeat := t, readings := recent ++ [(t, b.reading)] })

/-! ### Delivery (R556 to R558, R571) -/

/-- An alarm count of a layer and step (R203): one that comes before the layer's update for the step starts. -/
def State.alarmFrom (s : State) (layer step value : Nat) : State :=
  let p := s.plotter
  let started : Bool := p.running.any (fun x => x.2.layer = layer && x.2.step = step)
    || decide ((s.stepTag layer).getD 0 ≥ step)
  if (s.roleOf layer != 1 && s.roleOf layer != 3) || started then s
  else { s with plotter := { p with alarms := p.alarms ++ [(layer, step, value % 65536)] } }

/-- A CONTROL message; other subtypes are reserved (R558). -/
def State.controlFrom (s : State) (src sub layer step value : Nat) : State :=
  if sub = subALARMS then s.alarmFrom layer step value
  else if sub = subTAKEOVER then s.takeoverFor layer
  else if sub = subLEAVE then s.losePeer src .leave
  else if sub = subJOIN then s.joinFrom src
  else s

/-- A whole message reaches the unit that handles it. -/
def State.deliver (s : State) (src iface : Nat) : Msg → State
  | .sum b => s.sumArrives (groupOfIface iface) b
  | .down d => (s.downArrives src iface d).askAllMerges
  | .gatherReq g => s.gatherAsked src g
  | .gatherData g data => (s.gatherAnswered src (groupOfIface iface) g data).askAllMerges
  | .checkpoint _ _ _ _ _ => s
  | .heartbeat b => s.beatFrom src b
  | .control sub layer step value => s.controlFrom src sub layer step value

end Sys2Proof.Machine
end

