-- ==== Sys2Proof/Machine/CkptOps.lean ====
section
/-!
DEFINITION. The checkpoint drain unit (R534 to R537): the commit record, the slot data and the steps of R535, each of which follows
the acknowledgement of the one before.
-/

namespace Sys2Proof.Machine

/-- The slot data of a checkpoint (R537): one record per layer in ascending layer ID, then the scale tables. -/
def State.slotData (s : State) : List Byte :=
  (s.job.ckpt.copied.mergeSort (fun a b => a.layer ≤ b.layer)).flatMap (fun c =>
    leBytes c.layer 2 ++ zeros 62 ++ s.delivered c.stack c.addr c.len) ++ s.job.ckpt.scales.getD []

/-- SEQUENCE of the valid commit records of slots 0 and 1 of the checkpoint's destination, 0 for none. A slot that this module has not
committed counts as invalid (DESIGN CHOICE: notes/assumptions/19.md). -/
def State.slotSeqs (s : State) : List Nat :=
  match s.job.slots.find? (fun x => x.dest = s.job.ckpt.dest && x.port = s.job.ckpt.port) with
  | some x => x.seqs
  | none => [0, 0]

/-- The commit record of a slot of the destination is made invalid, or carries SEQUENCE v. -/
def State.setSlot (s : State) (slot v : Nat) : State :=
  let k := s.job.ckpt
  let x : SlotPair := { dest := k.dest, port := k.port, seqs := s.slotSeqs.set slot v }
  { s with job := { s.job with slots := x :: s.job.slots.filter (fun y => !(y.dest = k.dest && y.port = k.port)) } }

/-- SEQUENCE of the slot being written: that of the other slot plus 1 (R537). -/
def State.sequence (s : State) : Nat := s.slotSeqs.getD (1 - s.job.ckpt.slot % 2) 0 + 1

/-- The slot whose commit record is invalid or carries the lower SEQUENCE (R535). -/
def State.pickSlot (s : State) : Nat := if s.slotSeqs.getD 0 0 ≤ s.slotSeqs.getD 1 0 then 0 else 1

/-- The commit record (R537); `whole` is false while the slot is being written. -/
def State.commitRecord (s : State) (whole : Bool) : List Byte :=
  let k := s.job.ckpt
  let d := s.slotData
  let job := match s.job.plan with | some p => p.hdr.jobId | none => 0
  (if whole then ascii "KWCK" else zeros 4) ++ leBytes 1 2 ++ leBytes s.moduleId 2 ++ leBytes job 8 ++ leBytes k.step 4
    ++ leBytes k.copied.length 4 ++ leBytes d.length 8 ++ leBytes s.sequence 8 ++ leBytes k.slot 1 ++ zeros 7 ++ sha256 d ++ zeros 48

/-- Longest data of one CHECKPOINT_DATA message of this model: within the bound of R554. DESIGN CHOICE: notes/assumptions/19.md. -/
def ckptChunk : Nat := 2 ^ 28

def State.ckptSend (s : State) (record : Nat) : List (List Byte) → Nat → State
  | [], _ => s
  | d :: t, o =>
    State.ckptSend (s.message destModule none none (.checkpoint s.job.ckpt.slot record s.job.ckpt.step o d)) record t (o + d.length)

/-- Steps 1 to 3 of R535 by number; step 2 reads staging through the stack controllers (R534). -/
def State.drainSend (s : State) (n : Nat) : State :=
  let go (t : State) : State := { t with job := { t.job with ckpt := { t.job.ckpt with drainStep := n } } }
  if n = 2 then
    let x := s.readAll (s.job.ckpt.copied.map (fun c => (c.stack, c.addr, c.len))) .drain
    if x.2 then ((go x.1).ferryTo destModule (s.job.ckpt.copied.map (fun c => (c.stack, c.addr, c.len)))).ckptSend 0 (chunks ckptChunk x.1.slotData) 0 else x.1
  else (go s).ckptSend 1 [s.commitRecord (n = 3)] 0

/-- The drain of a closed checkpoint begins once its layers and the scale tables have been copied (R533 to R535), and no routing reload pauses it (R540). -/
def State.startDrain (s : State) : State :=
  if s.job.ckpt.st != 2 || s.job.ckpt.drainStep != 0 || s.fabric.reload != .none then s
  else
    let s := s.copyAllDue
    let k := s.job.ckpt
    if k.scales.isNone || s.ownedLayers.any s.copyDue then s
    else
      let n := s.pickSlot
      ({ s with job := { s.job with ckpt := { k with slot := n, bytes := s.slotData.length } } }.setSlot n 0).drainSend 1

/-- Everything that has been sent to the destination is acknowledged, and nothing waits for a table entry (R111, R535, R570). -/
def State.destClear (s : State) : Bool :=
  (match s.peer destModule with | some p => p.tx.isEmpty | none => true) && !s.net.backlog.any (fun w => w.dst = destModule)

/-- Bytes of slot data that the destination has acknowledged (R543): of a message whose first fragment is still in the table, and of one
that waits for an entry, none past the 16 bytes of its header count. -/
def State.drained (s : State) : Nat :=
  let k := s.job.ckpt
  let sent := match s.peer destModule with
    | some p => (p.tx.map (fun f => f.payload.length - (if f.frag = 0 then 16 else 0))).foldl (· + ·) 0
    | none => 0
  let waits := ((s.net.backlog.filter (fun w => w.dst = destModule)).map (fun w => w.m.bytes.length - 16)).foldl (· + ·) 0
  if k.drainStep = 2 then k.bytes - sent - waits else k.drained

/-- The next step of R535 once everything sent has been acknowledged. -/
def State.advanceDrain (s : State) : State :=
  let k := s.job.ckpt
  if k.st != 2 || !s.destClear || s.fabric.reload != .none then s
  else if k.drainStep = 0 then s.startDrain
  else if k.drainStep = 1 then s.drainSend 2
  else if k.drainStep = 2 then { s with job := { s.job with ckpt := { k with drained := k.bytes } } }.drainSend 3
  else
    let n := s.sequence
    let s := s.setSlot k.slot n
    let s := { s with job := { s.job with ckpt := { CkptSt.idle with skipped := k.skipped, drained := k.drained, step := k.step, lastSeq := n } } }
    s.info "CHECKPOINT_COMMITTED" [k.step, k.slot, n]

/-- A checkpoint destination as a peer: 0x4000 in the module fields (R549), reached through the first group with an up interface. -/
def State.destPeer (s : State) (dest : List Byte) : PeerSt :=
  let g := ((upFrom 0 4).find? (fun g => !(s.groupUp g).isEmpty)).getD 0
  { module := destModule, present := true, active := false, localGroup := g, remoteGroup := 0, addr := dest, contact := false,
    lost := false, cause := none, lastBeat := 0, readings := [], nextSeq := 0, nextMsg := 0, tx := [], ackBase := 0, sackMask := 0,
    rxCe := false, unacked := 0, unackedAt := 0, rx := [], delivered := [], srtt := 0, rttvar := 0, sampled := false, alpha := 0,
    rate := 65536 * s.ifaceRate g, windowMarked := false, windowAt := s.micros, rotate := 0, beatTurn := 0,
    joined := none }

/-- The destination of an armed checkpoint joins the peers, in place of an earlier one. -/
def State.setDest (s : State) (dest : List Byte) : State :=
  { s with net := { s.net with peers := s.net.peers.filter (fun p => p.module != destModule) ++ [s.destPeer dest] } }

end Sys2Proof.Machine
end

