-- ==== Sys2Proof/Machine/Transport.lean ====
section
/-!
DEFINITION. The ports and the Peolo transport (chapter 13): PEOLO_FRAME, ACK, ACK_DELAY_EXPIRY, RTO_EXPIRY, PACING_WINDOW, HEARTBEAT_SEND,
HEARTBEAT, PEER_LOST, LEAVE, JOIN, GATHER_REQ, GATHER_REQ_READY, GATHER_DATA, PORT_LINK_UP, PORT_LINK_DOWN, NEIGHBOR_SOLICITATION and
CBL_PRES_N; and the arrivals and timers of the halyard units (chapter 10): HALYARD_SUM, HALYARD_DEADLINE, HALYARD_HOP_HOLD, DOWNHAUL.
-/

namespace Sys2Proof.Machine

/-! ### Sequence numbers (R564) -/

/-- a − b modulo 2³². -/
def seqDiff (a b : Nat) : Nat := (a + 2 ^ 32 - b % 2 ^ 32) % 2 ^ 32

/-- A SEQ that an acknowledgement covers (R553): below ACK, or marked in SACK. -/
def ackCovers (ack sack q : Nat) : Bool :=
  let d := seqDiff q ack
  decide (d ≥ 2 ^ 31) || (decide (1 ≤ d) && decide (d ≤ 32) && bit sack (d - 1))

/-- A frame has been received before (R565). -/
def PeerSt.hasSeq (p : PeerSt) (q : Nat) : Bool :=
  let d := seqDiff q p.ackBase
  decide (d ≥ 2 ^ 31) || (decide (1 ≤ d) && bit p.sackMask (d - 1))

/-- ACK after the SEQs received without a gap: bit k of `w` says that base + k has been received. -/
def ackRun (base w : Nat) : Nat → Nat × Nat
  | 0 => (base, w)
  | f + 1 => if w % 2 = 1 then ackRun ((base + 1) % 2 ^ 32) (w / 2) f else (base, w)

/-- A SEQ is received. -/
def PeerSt.takeSeq (p : PeerSt) (q : Nat) : PeerSt :=
  let w := (2 * p.sackMask) ||| 2 ^ seqDiff q p.ackBase
  let r := ackRun p.ackBase w (Nat.log2 w + 1)
  { p with ackBase := r.1, sackMask := r.2 / 2 }

/-! ### Acknowledgements (R565, R566, R568) -/

/-- An ACK frame leaves for a peer; it consumes no SEQ (R556). DESIGN CHOICE: its SEQ field is the next one, MSG_ID and FRAG 0,
FRAG_COUNT 1 (notes/assumptions/32.md). -/
def State.sendAck (s : State) (p : PeerSt) : State :=
  let i := s.pickIface p.localGroup none p.rotate
  let s := ((s.resolve i).setPeer (p.acked i)).netCount i (fun c => { c with sent := satAdd32 c.sent 1 })
  (s.frameBytes i 4 0).send (.ackFrame p.module p.ackBase (p.sackMask % 2 ^ 32) p.rxCe
    (s.wire i p 0 0 (s.peoloHeader p 0 p.nextSeq 0 0 1 0 0) []))

/-- A receipt is to be acknowledged; the sixteenth is at once. -/
def State.owesAck (s : State) (p : PeerSt) : State :=
  let p := { p with unacked := p.unacked + 1, unackedAt := if p.unacked = 0 then s.micros else p.unackedAt }
  if p.unacked ≥ 16 then s.sendAck p else s.setPeer p

/-- SRTT and RTTVAR after a sample, in µs. -/
def PeerSt.sample (p : PeerSt) (r : Nat) : PeerSt :=
  if p.sampled then
    let d := max p.srtt r - min p.srtt r
    { p with rttvar := (3 * p.rttvar + d) / 4, srtt := (7 * p.srtt + r) / 8 }
  else { p with sampled := true, srtt := r, rttvar := r / 2 }

/-- A frame cannot move to another interface: its table has no entry left, and holds none of the frame's message (R570). -/
def State.noEntry (s : State) (p : PeerSt) (f : TxFrame) (i : Nat) : Bool :=
  i != f.iface && s.tableFull i && !p.tx.any (fun x => x.iface = i && x.msgId = f.msgId)

/-- A frame is sent again: a new SEQ, the same MSG_ID and FRAG (R564); like any frame to the peer it acknowledges (R565). One that finds no
table entry on another interface stays, and is tried again after its next RTO. -/
def State.resend (s : State) (m : Nat) (f : TxFrame) (rto : Nat) : State :=
  match s.peer m with
  | none => s
  | some p =>
    let i := if s.iface f.iface = .up then f.iface else s.pickIface p.localGroup none p.rotate
    if s.noEntry p f i then s.setPeer { p with tx := p.tx.map (fun x => if x = f then { f with rto := rto, sent := s.micros } else x) }
    else
    let f' := { f with seq := p.nextSeq, olds := f.seq :: f.olds, iface := i, sends := f.sends + 1, rto := rto, sent := s.micros }
    let q := { p.acked i with nextSeq := (p.nextSeq + 1) % 2 ^ 32, tx := p.tx.map (fun x => if x = f then f' else x) }
    let s := ((s.resolve i).setPeer q).netCount i (fun c => { c with retransmissions := satAdd32 c.retransmissions 1, sent := satAdd32 c.sent 1 })
    ((s.frameBytes i 4 f.payload.length).count (blkPort (i / 2)) evRETRANSMISSIONS 0 1 1).send (.retransmit m f'.seq f.msgId f.frag (s.wireTx p f'))

/-- ACK, SACK and CE_ECHO of a frame from a peer (R566, R568, R569, R570). -/
def State.takeAck (s : State) (m ack sack : Nat) (ce : Bool) : State :=
  match s.peer m with
  | none => s
  | some p =>
    let cov (f : TxFrame) : Bool := (f.seq :: f.olds).any (ackCovers ack sack)
    let acked := p.tx.filter cov
    let now := s.micros
    let p := (acked.filter (fun f => f.sends = 1)).foldl (fun q f => q.sample (now - f.sent)) p
    let p := { p with tx := p.tx.filter (fun f => !cov f), windowMarked := p.windowMarked || ce }
    let s := s.setPeer p
    let higher (f : TxFrame) : Nat := ((upFrom 0 32).filter (fun k => bit sack k && decide (1 ≤ seqDiff (ack + 1 + k) f.seq)
      && decide (seqDiff (ack + 1 + k) f.seq < 2 ^ 31))).length
    ((p.tx.filter (fun f => higher f ≥ 3)).foldl (fun t f => t.resend m f f.rto) s).drainBacklog

/-! ### Receiving (R555, R571, R576) -/

/-- A frame that R555 discards. -/
def frameBad (p : Plan) (f : Frame) : Bool :=
  !f.checksumOk || f.version != 1 || f.type > 7 || f.src / 2 ^ 14 > 1 || f.dst != p.hdr.moduleId || f.job != p.hdr.jobId
    || f.payload.length > 8192 || (f.type = 0 && !f.payload.isEmpty)
    || (f.type != 0 && (f.frag ≥ f.fragCount || (f.frag + 1 < f.fragCount && f.payload.length != 8192)
                        || (f.fragCount > 1 && f.payload.isEmpty)))

/-- Bytes of incomplete messages in an interface's receive buffer. -/
def State.buffered (s : State) (i : Nat) : Nat :=
  (s.net.peers.flatMap (fun p => p.rx.filter (fun r => r.iface = i))).foldl (fun a r =>
    a + (r.frags.map (fun x => x.2.length)).foldl (· + ·) 0) 0

/-- A port holds messages during a routing reload (R390), but for sums (R513). -/
def State.holds (s : State) : Msg → Bool
  | .sum _ => false
  | _ => s.job.batch.stage = .reload

/-- The message whose fragments are all there. -/
def RxMsg.whole (r : RxMsg) : Option Msg :=
  if r.frags.length = r.count then Msg.ofBytes r.type ((r.frags.map (fun x => x.2)).flatten) else none

/-- Whole messages of a peer that a reload has held are delivered. -/
def State.deliverHeld (s : State) : State :=
  s.net.peers.foldl (fun t p =>
    p.rx.foldl (fun u r =>
      match r.whole with
      | some m => if u.holds m then u
        else (u.updPeer p.module (fun q => { q with rx := q.rx.filter (fun x => x.msgId != r.msgId),
                                                    delivered := r.msgId :: q.delivered })).deliver p.module r.iface m
      | none => u) t) s

/-- The frame of a JOIN (R558, R576). -/
def isJoin (f : Frame) : Bool := f.type = 7 && beAt f.payload 0 1 = subJOIN

/-- What a message that a reload holds does on its arrival: a heartbeat has come from its peer (R574; DEDUCED: notes/assumptions/28.md). -/
def PeerSt.noteHeld (p : PeerSt) (now : Nat) : Msg → PeerSt
  | .heartbeat _ => if p.lost then p else { p with contact := true, lastBeat := now }
  | _ => p

/-- A frame that carries a fragment is taken into its message (R565, R571), and the message delivered when whole. A sum that finds its
halyard unit at its bound, and a frame that finds no room, are not acknowledged (R455, R571). An acknowledgement owed covers the frame's CE mark (R568). -/
def State.takeFragment (s : State) (i : Nat) (f : Frame) (p : PeerSt) : State :=
  let p := { p with rxCe := p.rxCe || f.ceMarked }
  if p.hasSeq f.seq then s.owesAck p
  else if p.delivered.contains f.msgId then s.owesAck ((p.takeSeq f.seq))
  else
    let r := (p.rx.find? (fun x => x.msgId = f.msgId)).getD { msgId := f.msgId, iface := i, type := f.type, tag := f.tag, count := f.fragCount, frags := [] }
    let r := { r with frags := Tab.set r.frags f.frag f.payload }
    let room : Bool := s.buffered i + f.payload.length ≤ 8 * 2 ^ 20
    let refused : Bool := match r.whole with | some (.sum b) => !s.sumTaken (groupOfIface i) b | _ => false
    if !room then
      (s.netCount i (fun c => { c with rxNoBuffer := satAdd32 c.rxNoBuffer 1 })).count (blkPort (i / 2)) evRX_NO_BUFFER 0 1 1
    else if refused then s
    else
      let p := { p.takeSeq f.seq with rx := p.rx.filter (fun x => x.msgId != f.msgId) ++ [r] }
      match r.whole with
      | none => s.owesAck p
      | some m =>
        if s.holds m then s.owesAck (p.noteHeld s.micros m)
        else
          let s := s.owesAck { p with rx := p.rx.filter (fun x => x.msgId != f.msgId), delivered := f.msgId :: p.delivered }
          s.deliver p.module i m

/-- A frame on an interface: a Peolo frame (R555, R565 to R568, R571, R576), or one that is discarded and counted (R544, R548). -/
def State.frame (s : State) (i : Nat) (f : Frame) : State :=
  match f.kind, s.job.plan with
  | .flowControl, _ => s.netCount i (fun c => { c with rxFlowControl := satAdd32 c.rxFlowControl 1 })
  | .other, _ => s.netCount i (fun c => { c with rxOther := satAdd32 c.rxOther 1 })
  | .peolo, none => s
  | .peolo, some pl =>
    let s := s.netCount i (fun c => { c with received := satAdd32 c.received 1, ceReceived := satAdd32 c.ceReceived (if f.ceMarked then 1 else 0) })
    let s := if f.ceMarked then s.count (blkPort (i / 2)) evCE_MARKED 0 1 1 else s
    let s := s.frameBytes i 8 f.payload.length
    if frameBad pl f then s.netCount i (fun c => { c with rxMalformed := satAdd32 c.rxMalformed 1 })
    else
      match s.peer f.src with
      | none => s.netCount i (fun c => { c with rxFromLost := satAdd32 c.rxFromLost 1 })
      | some p =>
        if p.lost && !isJoin f then
          (if f.type = 6 then s else s.netCount i (fun c => { c with rxFromLost := satAdd32 c.rxFromLost 1 }))
        else if isJoin f && p.joined != some f.msgId then
          let s := s.beginPeer f.src f.msgId
          match s.peer f.src with
          | some q => s.takeFragment i f q
          | none => s
        else
          let s := if bit f.flags 0 then s.takeAck f.src f.ack f.sack (bit f.flags 1) else s
          if f.type = 0 then s
          else
            match s.peer f.src with
            | some q => s.takeFragment i f q
            | none => s

/-- PEOLO_FRAME; an acknowledgement can let the checkpoint drain go on (R535). -/
def execPeoloFrame (iface : Nat) (f : Frame) (s : State) : Res :=
  withIface iface (if s.iface iface != .up then .next s else done (s.frame iface f).advanceDrain)

/-- ACK (R565 to R568): a frame of TYPE 0. -/
def execAck (iface : Nat) (f : Frame) (s : State) : Res :=
  withIface iface (if s.iface iface != .up || f.kind != .peolo || f.type != 0 then .next s else done (s.frame iface f).advanceDrain)

/-- ACK_DELAY_EXPIRY (R565). -/
def execAckDelayExpiry (peer : Nat) (s : State) : Res :=
  match s.peer peer with
  | none => .next s
  | some p => if p.unacked = 0 || p.lost || s.job.plan.isNone then .next s else done ((s.until (p.unackedAt + 8)).sendAck p)

/-- RTO_EXPIRY (R566, R567, R569). -/
def execRtoExpiry (peer seq : Nat) (s : State) : Res :=
  match s.peer peer with
  | none => .next s
  | some p =>
    match p.tx.find? (fun f => f.seq = seq) with
    | none => .next s
    | some f =>
      let s := s.until (f.sent + f.rto)
      let s := s.updPeer peer (fun q => { q with windowMarked := true })
      let s := s.netCount f.iface (fun c => { c with rtoExpiries := satAdd32 c.rtoExpiries 1 })
      done (s.resend peer f (min 10000 (2 * f.rto)))

/-- α and R at the end of a 50 µs window (R569). -/
def PeerSt.window (p : PeerSt) (gbps : Nat) : PeerSt :=
  let f := if p.windowMarked then 2 ^ 32 else 0
  let a := (15 * p.alpha + f) / 16
  let r := if p.windowMarked then p.rate - p.rate * a / 2 ^ 33 else p.rate + 20 * 65536
  { p with alpha := a, rate := max 65536 (min (65536 * gbps) r), windowMarked := false }

/-- PACING_WINDOW (R569). -/
def execPacingWindow (peer : Nat) (s : State) : Res :=
  match s.peer peer with
  | none => .next s
  | some p =>
    if s.job.plan.isNone then .next s
    else
      let s := s.until (p.windowAt + 50)
      done (s.updPeer peer (fun q => { q.window (s.ifaceRate p.localGroup) with windowAt := s.micros }))

/-! ### Heartbeats and loss (R573 to R576) -/

/-- Up ports, bit p for port p (R556). -/
def State.portsUp (s : State) : Nat :=
  (upFrom 0 32).foldl (fun a p => if (s.portIfaces p).any (fun i => s.iface i = .up) then a + 2 ^ p else a) 0

def State.beatMsg (s : State) : BeatMsg :=
  let replaying : Bool := s.job.replayed || (match s.job.release with | .replay _ => true | _ => false)
  { reading := s.job.reading, current := s.stepCurrent, attempt := s.stepAttempt, role := s.job.role,
    flags := (if replaying then 1 else 0) + (if s.job.resync != 0 then 2 else 0), ports := s.portsUp, eventSeq := s.log.seq }

/-- HEARTBEAT_SEND (R573). -/
def execHeartbeatSend (s : State) : Res :=
  if !s.net.beatsOn || s.job.plan.isNone then .next s
  else
    let s := s.until (s.net.beatAt + 1000)
    let s := { s with net := { s.net with beatAt := s.micros } }
    done ((s.net.peers.filter (fun p => p.present && p.active && !p.lost)).foldl (fun t p =>
      match t.peer p.module with | some q => t.beat q (.heartbeat t.beatMsg) | none => t) s)

/-- HEARTBEAT (R516, R574, R576). -/
def execHeartbeat (src : Nat) (b : BeatMsg) (s : State) : Res :=
  if s.job.plan.isNone then .next s else done (s.beatFrom src b)

/-- PEER_LOST (R574): 8.0 ms without a heartbeat of an ACTIVE peer. -/
def execPeerLost (peer : Nat) (s : State) : Res :=
  match s.peer peer with
  | none => .next s
  | some p =>
    if !s.net.beatsOn || !p.present || !p.active || p.lost then .next s
    else done ((s.until (p.lastBeat + 8000)).losePeer peer .heartbeat)

/-- LEAVE (R523). -/
def execLeave (src : Nat) (s : State) : Res :=
  if s.job.plan.isNone || s.job.batch.stage = .reload then .next s else done (s.losePeer src .leave)

/-- JOIN (R527). -/
def execJoin (src : Nat) (s : State) : Res :=
  if s.job.plan.isNone || s.job.batch.stage = .reload then .next s else done ((s.beginPeer src 0).joinFrom src)

/-! ### Halyard arrivals and timers -/

/-- A message of a module can reach its unit: a plan is loaded, its sender is not lost, and no reload holds it. -/
def State.reaches (s : State) (src : Nat) (m : Msg) : Bool := s.job.plan.isSome && !s.isLost src && !s.holds m

/-- HALYARD_SUM (R448, R450, R453 to R455). -/
def execHalyardSum (src group : Nat) (m : SumMsg) (s : State) : Res :=
  withGroup group (if !s.reaches src (.sum m) || !s.sumTaken group m then .next s else done (s.sumArrives group m))

/-- An open sum of a tile and step that the timers of R449 forward; a promoted mirror has a moment of its own (R503). -/
def State.hopSum (s : State) (group layer tile step : Nat) (o : OpenSum) : Bool :=
  o.group = group && o.layer = layer && o.tile = tile && o.step = step && !(s.roleOf layer = 3 && o.round = 1)

/-- HALYARD_DEADLINE (R449): t_own + D + DEPTH·H. -/
def execHalyardDeadline (group layer tile step : Nat) (s : State) : Res :=
  withGroup group
    (match s.firstDue (s.hopSum group layer tile step) (fun o c =>
        if o.own.isSome then some (o.tOwn + s.halyard.deadline + c.depth * s.halyard.hop) else none) with
    | none => .next s
    | some (o, c, t) => done ((s.until t).forwardSum c o true (c.upstream - o.upCount)))

/-- HALYARD_HOP_HOLD (R449): t_up + H without the own partial. -/
def execHalyardHopHold (group layer tile step : Nat) (s : State) : Res :=
  withGroup group
    (match s.firstDue (s.hopSum group layer tile step) (fun o _ =>
        if o.own.isNone && o.up.isSome then some (o.tUp + s.halyard.hop) else none) with
    | none => .next s
    | some (o, c, t) => done ((s.until t).forwardSum c o false 0))

/-- DOWNHAUL (R463 to R465, R499, R500, R557). -/
def execDownhaul (src iface : Nat) (m : DownMsg) (s : State) : Res :=
  withIface iface (if !s.reaches src (.down m) then .next s else done ((s.downArrives src iface m).askAllMerges))

/-! ### Gathers (R352 to R355, R559 to R563) -/

/-- GATHER_REQ. -/
def execGatherReq (src : Nat) (g : GatherMsg) (s : State) : Res :=
  if !s.reaches src (.gatherReq g) then .next s else done (s.gatherAsked src g)

/-- GATHER_REQ_READY (R563): the READY counter of the oldest held request of a tag covers 1. -/
def execGatherReqReady (stack tag : Nat) (s : State) : Res :=
  withStack stack
    (match s.net.held.find? (fun h => h.stack = stack && h.g.kind = 5 && h.g.tag = tag) with
    | none => .next s
    | some h => if (s.stack stack).counter h.g.aux ≥ 1 then done (s.tagReady h) else .next s)

/-- GATHER_DATA. -/
def execGatherData (src : Nat) (g : GatherMsg) (data : List Byte) (s : State) : Res :=
  if !s.reaches src (.gatherData g data) then .next s else done ((s.gatherAnswered src (match s.peer src with | some p => p.localGroup | none => 0) g data).askAllMerges)

/-! ### Ports (R545 to R548, R574, R577, R783) -/

def State.setIface (s : State) (i : Nat) (x : IfState) : State :=
  { s with net := { s.net with ifaces := Tab.set s.net.ifaces i x, neighbors := s.net.neighbors.filter (fun n => n.1 != i) } }

/-- The lanes of a port may run: its mode, its cable, port domains that release step 8 has started, and power (R545, R577, R783). -/
def State.lanesOn (s : State) (p : Nat) : Bool :=
  s.portMode p < 2 && Tab.get false s.net.cable p && !s.net.portsBad.contains p && (s.reset_.ready || s.reset_.releaseStep = 9) && !s.reset_.datum
    && s.power.powerState ≤ 1 && s.power.railsUp.contains 5 && !s.power.busLow

/-- A port's interfaces begin to train. -/
def State.trainPort (s : State) (p : Nat) : State :=
  if s.lanesOn p then (s.portIfaces p).foldl (fun t i => if t.iface i = .up then t else t.setIface i .training) s else s

/-- Every interface enters electrical idle (R577). -/
def State.idlePorts (s : State) : State := { s with net := { s.net with ifaces := [], neighbors := [] } }.testPorts

/-- PORT_LINK_UP. -/
def execPortLinkUp (iface : Nat) (s : State) : Res :=
  withIface iface
    (if s.iface iface != .up && s.lanesOn (iface / 2) && (s.portIfaces (iface / 2)).contains iface then
      done ((s.setIface iface .up).event "PORT_UP" clsINFO srcPort (iface / 2) [iface]).drainBacklog
    else .next s)

/-- An interface goes down (R509, R510, R574). -/
def State.ifaceDown (s : State) (i : Nat) : State :=
  let s := (s.setIface i .down).event "PORT_DOWN" clsINFO srcPort (i / 2) [i]
  State.testPorts (if (s.groupUp (groupOfIface i)).isEmpty then s.askC (.portGroup (groupOfIface i)) else s).drainBacklog

/-- PORT_LINK_DOWN. -/
def execPortLinkDown (iface : Nat) (s : State) : Res :=
  withIface iface (if s.iface iface = .up then done (s.ifaceDown iface) else .next s)

/-- NEIGHBOR_SOLICITATION (R547). -/
def execNeighborSolicitation (iface : Nat) (target : List Byte) (s : State) : Res :=
  withIface iface
    (if s.iface iface = .up && (target = s.groupAddr (groupOfIface iface) || target = linkLocal iface) then
      done (s.send (.neighborAdvert iface target (macOf iface)))
    else .next s)

/-- CBL_PRES_N (R783): high holds the port's lanes in electrical idle, low lets them train. -/
def execCblPresN (port : Nat) (level : Bool) (s : State) : Res :=
  withPort port
    (let s := { s with net := { s.net with cable := Tab.set s.net.cable port (!level) } }
     if level then
       done ((s.portIfaces port).foldl (fun t i => if t.iface i = .up then t.ifaceDown i else t.setIface i .down) s)
     else done (s.trainPort port))

end Sys2Proof.Machine
end

