-- ==== Sys2Proof/Machine/PowerOps.lean ====
section
/-!
DEFINITION. Power: regulators and converters (R645 to R662), what a part that loses its power loses, feeds (R639 to R643), admitted
turn-on (R663 to R665) and thermal rules (R677 to R681).
-/

namespace Sys2Proof.Machine

/-! ### Regulators (R650, R651) -/

def regId (kind index : Nat) : Nat := 2 ^ 28 * kind + index

/-- Phases of a regulator, and the failed phases that it carries (R650). -/
def regPhases (kind : Nat) : Nat := if kind = 1 ∨ kind = 5 then 8 else if kind = 2 then 2 else if kind = 3 then 16 else 12
def regCarried (kind : Nat) : Nat := if kind = 2 then 1 else if kind = 3 then 4 else 2

/-- Nominal set point of a regulator and its set-point range, in mV (R650); none where a standard gives the levels. -/
def regNominal (kind : Nat) : Option (Nat × Nat × Nat) :=
  if kind = 1 then some (720, 550, 850) else if kind = 2 then some (700, 500, 850) else if kind = 3 then some (700, 550, 850)
  else if kind = 5 then some (750, 700, 900) else none

/-- The trim code of a regulator in the committed shadows, in mV; the last record of a regulator stands, and without one the trim is 0
(R652, R699; DESIGN CHOICE: notes/assumptions/13.md). -/
def State.trimOf (s : State) (r : Nat) : Int :=
  if s.reset_.committed then s.reset_.shadows.trims.foldl (fun a x => if x.1 = r then signed x.2 16 else a) 0 else 0

/-- The set point of a regulator in mV: nominal plus trim, clamped to its range (R652). -/
def State.setPoint (s : State) (r : Nat) : Option Nat :=
  (regNominal (regKind r)).map (fun x => (clampInt (x.2.1 : Int) (x.2.2 : Int) ((x.1 : Int) + s.trimOf r)).toNat)

/-- The partner core (cx xor 1, cy). -/
def partner (n : Nat) : Nat := if n % 2 = 0 then n + 1 else n - 1

/-- The sheet of a regulator or converter. -/
def regSheet (r : Nat) : Nat :=
  let i := regIndex r
  if regKind r = 0 then i / 4 else if regKind r = 1 ∨ regKind r = 2 then sheetOf i else if regKind r = 3 then i
  else if regKind r = 4 then stackSheet i else groupSheet (i / 8)

/-- Stage 1 supplies a sheet and its part in the state of the ladder is on (R667, R668, R695). -/
def State.sheetOn (s : State) (k : Nat) : Bool :=
  s.power.railsUp.contains 0 && !s.wafer.dark.contains k
    && (s.power.powerState ≤ 2 || (s.power.powerState = 3 && sheetClass k = 1))

/-- What a regulator's output is held at, in mV: an array rail behind a closed tie has the partner's set point (R658), and one whose
logic rail has failed, like every one in Retain, the retention voltage (R656, R667). -/
def State.railTarget (s : State) (r : Nat) : Option Nat :=
  let n := regIndex r
  if regKind r = 2 && s.power.ties.contains n then s.setPoint (2 ^ 28 * 2 + partner n)
  else if regKind r = 2 && (s.power.drains.contains n || s.power.powerState = 2) then some 550
  else s.setPoint r

/-- The release steps and the state of the ladder have a regulator or converter on (R667, R668, R695): in Retain all but logic and fabric, in
Stow the stack regulators and the converters of margin sheets. -/
def State.powered (s : State) (r : Nat) : Bool :=
  let k := regKind r
  let n := s.power.powerState
  s.power.railsUp.contains k && (k = 0 || !s.wafer.dark.contains (regSheet r))
    && (n ≤ 1 || (n = 2 && k != 1 && k != 3) || (n = 3 && (k = 4 || (k = 0 && sheetClass (regSheet r) = 1))))

/-- A regulator's output is on: through its own regulator, or through a closed tie (R658). -/
def State.railHeld (s : State) (r : Nat) : Bool :=
  s.powered r && (!s.power.regsOff.contains r || (regKind r = 2 && s.power.ties.contains (regIndex r)))

/-- An output is within ±3 % of a set point, and it is at or above 85 % of it, both in mV (R653). -/
def withinThree (mv sp : Nat) : Bool := 97 * sp ≤ 100 * mv && 100 * mv ≤ 103 * sp
def lowOutput (mv sp : Nat) : Bool := 100 * mv < 85 * sp

/-- A command that names a regulator or converter. -/
def withReg (r : Nat) (x : Res) : Res := if regExists r then x else .fault .noSuchPlace

def State.reg (s : State) (r : Nat) : RegSt := Tab.get .ok s.power.regs r
def State.updReg (s : State) (r : Nat) (f : RegSt → RegSt) : State :=
  { s with power := { s.power with regs := Tab.upd .ok s.power.regs r f } }

/-- Regulators turn off. -/
def State.regsTurnOff (s : State) (l : List Nat) : State :=
  { s with power := { s.power with regsOff := s.power.regsOff ++ l.filter (fun r => !s.power.regsOff.contains r) } }

/-- An event of a regulator. -/
def State.regEvent (s : State) (name : String) (r : Nat) (info : List Nat) : State := s.event name clsINFO srcReg r info

/-! ### What is lost with power -/

/-- A core whose rails have gone: memories and counts are lost. -/
def State.coreLost (s : State) (n : Nat) : State := s.setCore n { CoreSt.reset with stopped := true }

/-- A stack that has lost its contents; cells that are permanently bad stay so. -/
def StackSt.lost (x : StackSt) : StackSt := { StackSt.reset with stuck := x.stuck }

/-- Every stack loses its contents, and with them the event ring (R303, R542). -/
def State.hbmLost (s : State) : State :=
  { s with hbm := s.hbm.map (fun x => (x.1, x.2.lost)), log := s.log.empty }

/-- On-wafer memories and tables are lost (R667, R682). -/
def State.memoriesLost (s : State) : State :=
  { s with cores := [], flight := .reset, fabric := { s.fabric with routing := .empty, reload := .none },
           gaz := { s.gaz with blocks := [], stepBank := [], intBank := [], msgs := [] } }

/-- Every wafer rail goes off (R644, R679, R690); ports are in electrical idle. -/
def State.waferOff (s : State) : State :=
  let s := (s.memoriesLost.hbmLost).idlePorts
  { s with power := { s.power with railsUp := [], ties := [], drains := [], gov := [] } }

/-- A port loses its regulator (R510, R650). -/
def State.portLost (s : State) (p : Nat) : State :=
  let s := { s with net := { s.net with portsBad := s.net.portsBad.filter (fun q => q != p) ++ [p] } }
  ([2 * p, 2 * p + 1].filter (fun i => s.iface i = .up)).foldl (fun t i => t.ifaceDown i) s

/-- Every on-wafer regulator of a sheet turns off (R649, R678). -/
def State.sheetOff (s : State) (k : Nat) : State :=
  if s.wafer.dark.contains k then s
  else
    let cs := sheetCores k
    let ks := (upFrom 0 numStacks).filter (fun x => stackSheet x = k)
    let ps := (upFrom 0 32).filter (fun p => groupSheet (p / 8) = k)
    let s := cs.foldl (fun t n => t.coreLost n) s
    let s := ks.foldl (fun t x => t.updStack x (fun y => { y.lost with failed := true })) s
    let s := ps.foldl (fun t p => t.portLost p) s
    let s := { s with power := { s.power with ties := s.power.ties.filter (fun n => !cs.contains n),
                                              drains := s.power.drains.filter (fun n => !cs.contains n) } }
    s.regsTurnOff (cs.map (regId 1) ++ cs.map (regId 2) ++ [regId 3 k] ++ ks.map (regId 4) ++ ps.map (regId 5))

/-! ### Array regulators and tie switches (R657 to R662) -/

/-- The tie of core `n` opens before its drain is complete (R662): its counts are lost. -/
def State.dropTie (s : State) (n : Nat) : State :=
  let s := { s with power := { s.power with ties := s.power.ties.filter (fun x => x != n), drains := s.power.drains.filter (fun x => x != n) } }
  ((s.coreLost n).event "DRAIN_LOST" clsINFO srcCore n []).regsTurnOff [regId 1 n, regId 2 n]

/-- Ties that a core's array region stands on either side of. -/
def State.tiesOf (s : State) (n : Nat) : List Nat := s.power.ties.filter (fun x => x = n || x = partner n)

/-- The governor can close the tie of core `n` (R657, R662). -/
def State.canTie (s : State) (n : Nat) (railVoltageOk : Bool) : Bool :=
  let p := regId 2 (partner n)
  let x := s.reg p
  railVoltageOk && !x.failed && !x.isolated && !s.power.regsOff.contains p && (s.tiesOf n).isEmpty && !(s.reg (regId 2 n)).isolated
    && s.power.powerState = 0

/-- A core's array regulator has failed (R657, R662). -/
def State.arrayFailed (s : State) (n : Nat) (railVoltageOk : Bool) : State :=
  let s := (s.tiesOf n).foldl State.dropTie s
  let s := if s.canTie n railVoltageOk then
      { s with power := { s.power with ties := s.power.ties ++ [n], drains := s.power.drains.filter (fun x => x != n) ++ [n] } }
    else
      let s := { s with power := { s.power with drains := s.power.drains.filter (fun x => x != n) } }
      ((s.regEvent "TIE_REFUSED" (regId 2 n) []).coreLost n).regsTurnOff [regId 1 n, regId 2 n]
  s.askB (.core n)

/-- A core's logic regulator has failed: its array keeps the retention voltage until the drain (R656, R659). -/
def State.logicFailed (s : State) (n : Nat) : State :=
  let s := (s.regsTurnOff [regId 1 n]).updCore n (fun c => { c with stopped := true })
  let s := if s.power.drains.contains n || (s.reg (regId 2 n)).failed then s
    else { s with power := { s.power with drains := s.power.drains ++ [n] } }
  s.askB (.core n)

/-- The consequence of a failed regulator (last column of R650's table). -/
def State.regFails (s : State) (r : Nat) (railVoltageOk : Bool) : State :=
  let i := regIndex r
  let s := (s.updReg r (fun x => { x with failed := true })).regEvent "REG_FAILED" r []
  if regKind r = 1 then s.logicFailed i
  else if regKind r = 2 then s.arrayFailed i railVoltageOk
  else if regKind r = 3 then (s.regsTurnOff [r]).askC (.fabricRail i)
  else if regKind r = 4 then ((s.regsTurnOff [r]).updStack i (fun x => { x.lost with failed := true })).askC (.stack i)
  else (s.regsTurnOff [r]).portLost i

/-- A regulator that can fail: of stage 2, powered and not failed yet. -/
def State.regRuns (s : State) (r : Nat) : Bool :=
  regKind r != 0 && !(s.reg r).failed && !s.power.regsOff.contains r && s.powered r

/-- What the drain of a fenced core keeps: its counts, counters and status words (R659). -/
def CoreSt.drainOut (c : CoreSt) : CoreSt := { c with act := [], sbuf := [], istore := [], acc := [], accErr := [], sramErr := [], stopped := true }

/-! ### Feeds (R641 to R644) -/

def PowerSt.feed (p : PowerSt) : Feed → FeedSt
  | .a => p.feedA
  | .b => p.feedB

def PowerSt.setFeed (p : PowerSt) (f : Feed) (x : FeedSt) : PowerSt :=
  match f with
  | .a => { p with feedA := x }
  | .b => { p with feedB := x }

def FeedSt.supplies (x : FeedSt) : Bool := x.pres && !x.opened && x.st = .inRange

/-- The state of a voltage in mV, and the range of a state (R641). -/
def feedStateOf (mv : Nat) : FeedState :=
  if mv < 20000 then .absent else if mv < 46000 then .underRange else if mv ≤ 60000 then .inRange else .overRange

def FeedState.range : FeedState → Nat × Nat
  | .absent => (0, 20000)
  | .underRange => (20000, 46000)
  | .inRange => (46000, 60000)
  | .overRange => (60000, 2 ^ 32)

/-- The state after a voltage has stood for 10 µs: it changes only when the voltage is beyond a boundary by 0.5 V (R641). -/
def FeedState.after (x : FeedState) (mv : Nat) : FeedState :=
  if mv + 500 ≤ x.range.1 || x.range.2 + 500 ≤ mv then feedStateOf mv else x

/-- The bus draws from a feed: from that of the higher voltage, and from both when they lie within 0.5 V of each other (R640). -/
def PowerSt.drawsFrom (p : PowerSt) (f : Feed) : Bool :=
  let x := p.feed f
  let y := p.feed (match f with | .a => .b | .b => .a)
  x.supplies && (!y.supplies || y.mv ≤ x.mv + 500)

/-- The bus has a feed. -/
def PowerSt.supplied (p : PowerSt) : Bool := p.feedA.supplies || p.feedB.supplies

def feedNum : Feed → Nat
  | .a => 0
  | .b => 1

/-- A feed changes: its loss and its return are logged, and its arrival while the Cartouche is stopped is a power-on reset (R643,
R644, R685). -/
def State.feedTo (s : State) (f : Feed) (x : FeedSt) : State :=
  let old := s.power.feed f
  let s := { s with power := s.power.setFeed f x }
  if x.supplies && !old.supplies then
    (if s.power.cartouche then { s with power := { s.power with busLow := false } }.info "FEED_RESTORED" [feedNum f]
     else { s with power := { s.power with cartouche := true, busLow := false }
                   reset_ := { s.reset_ with pending := some (rcPOWER_ON, .cold) } })
  else if old.supplies && !x.supplies && s.power.cartouche then s.info "FEED_LOST" [feedNum f]
  else s

/-! ### Admitted turn-on (R663 to R665) -/

/-- Turn-on budget of a regulator in A; 0 for those that are not governed (R650). -/
def turnOnBudget (kind : Nat) : Nat := if kind = 1 then 33 else if kind = 2 then 4 else if kind = 3 then 48 else 0

def State.governor (s : State) (k : Nat) : GovSt := Tab.get .idle s.power.gov k
def State.setGovernor (s : State) (k : Nat) (g : GovSt) : State := { s with power := { s.power with gov := Tab.set s.power.gov k g } }

/-- The present current leaves room for a turn-on (R664). -/
def GovSt.room (g : GovSt) (limit budget : Nat) : Bool := g.present + (g.ramping.foldl (fun a t => a + t.budget) 0) + budget ≤ limit

/-- The first waiting turn-on begins to ramp, `now` in µs. -/
def GovSt.begin (g : GovSt) (now : Nat) (late half : Bool) : GovSt :=
  match g.waiting with
  | [] => g
  | t :: rest => { g with waiting := rest, ramping := g.ramping ++ [{ t with began := now, half := half }], waited := satAdd32 g.waited (if late then 1 else 0),
                          halfSlew := satAdd32 g.halfSlew (if half then 1 else 0) }

/-- µs of a ramp from zero to a budget in A at a slew in A/µs, or at half of it (R664, R665). -/
def rampTime (slew : Word32) (half : Bool) (budget : Nat) : Nat :=
  match val32 slew with
  | .fin false m e => ceilDiv (budget * (if half then 2 else 1) * 2 ^ (-e).toNat) (max 1 (m * 2 ^ e.toNat))
  | _ => 0

/-- A turn-on is requested of the governor of its sheet (R665); one that is requested or ramping already, or of a failed regulator, is not. -/
def State.requestTurnOn (s : State) (reg : Nat) : State :=
  let k := regSheet reg
  let g := s.governor k
  if (s.reg reg).failed || (g.waiting ++ g.ramping).any (fun t => t.reg = reg) then s
  else s.setGovernor k { g with waiting := g.waiting ++
    [{ reg := reg, budget := turnOnBudget (regKind reg), since := s.micros, began := 0, half := false }] }

/-- Kinds of governed regulator that leaving a state of the ladder upwards turns on, in their order (R667, R674). -/
def legKinds (p : Nat) : List Nat := if p = 2 then [3, 1] else if p = 3 then [2] else []

/-- Regulators of a kind on a sheet. -/
def sheetRegs (kind k : Nat) : List Nat := if kind = 3 then [regId 3 k] else (sheetCores k).map (regId kind)

/-- The rails of the next state upwards are requested, sheet by sheet (R670, R674). -/
def State.ascend (s : State) : State :=
  match s.power.target with
  | some t =>
    if t < s.power.powerState then
      ((((upFrom 0 numSheets).filter (fun k => !s.wafer.dark.contains k)).flatMap (fun k =>
        (legKinds s.power.powerState).flatMap (fun kind => sheetRegs kind k))).filter (fun r => !s.power.regsOff.contains r)).foldl State.requestTurnOn s
    else s
  | none => s

/-- No turn-on waits or ramps. -/
def PowerSt.settled (p : PowerSt) : Bool := p.gov.all (fun x => x.2.waiting.isEmpty && x.2.ramping.isEmpty)

/-! ### Sensors (R675 to R681) -/

/-- A temperature of at least `n` °C. -/
def atLeast (n : Int) (t : Word32) : Bool := numLe (int32 n) t

/-- Sensor numbers of R632: a core, or sensor k of a sheet. -/
def sheetSensor (i : Nat) : Nat := 65536 + i

/-- Readings of a sample from powered sheets (R675): of cores, of sheet sensors by sensor number 8·s + k, and of both by R632's numbers. -/
def State.coreReadings (s : State) (r : Sample) : List (Nat × Word32) :=
  r.coreTemps.filter (fun x => x.1 < numCores && s.sheetOn (sheetOf x.1))
def State.sheetReadings (s : State) (r : Sample) : List (Nat × Word32) :=
  r.sheetTemps.filter (fun x => x.1 < 448 && s.sheetOn (x.1 / 8))
def State.readings (s : State) (r : Sample) : List (Nat × Word32) :=
  s.coreReadings r ++ (s.sheetReadings r).map (fun x => (sheetSensor x.1, x.2))

/-- A reading that no sensor gives (R680). -/
def implausible (t : Word32) : Bool := !(atLeast (-20) t && numLe t (int32 150))

/-- The sheet of a sensor. -/
def sensorSheet (i : Nat) : Nat := if i < 65536 then sheetOf i else (i - 65536) / 8

/-- A reading in units of 2⁻¹⁴⁹ °C. -/
def exactTemp (t : Word32) : Int :=
  match val32 t with
  | .fin neg m e => (if neg then -1 else 1) * ((m * 2 ^ (e + 149).toNat : Nat) : Int)
  | _ => 0

/-- A reading differs by more than 15 °C from the mean of the other sensors of its sheet (R680): of those that have not failed and read
within −20 °C to 150 °C (DESIGN CHOICE: notes/assumptions/27.md). -/
def State.deviates (s : State) (readings : List (Nat × Word32)) (x : Nat × Word32) : Bool :=
  let l := readings.filter (fun y => y.1 != x.1 && sensorSheet y.1 = sensorSheet x.1 && !s.power.failedSensors.contains y.1 && !implausible y.2)
  let n := l.length
  decide ((n * exactTemp x.2 - l.foldl (fun a y => a + exactTemp y.2) 0).natAbs > n * 15 * 2 ^ 149)

/-- Since when sensors have differed, after a sample. -/
def State.deviating (s : State) (readings : List (Nat × Word32)) : Tab Nat :=
  readings.foldl (fun (t : Tab Nat) x =>
    if s.deviates readings x then Tab.set t x.1 ((Tab.find s.power.devSince x.1).getD s.micros) else t)
    (s.power.devSince.filter (fun (y : Nat × Nat) => !readings.any (fun x => x.1 = y.1)))

/-- New failed sensors of a sample are marked and logged (R680). -/
def State.failSensors (s : State) (readings : List (Nat × Word32)) : State :=
  let dev := s.deviating readings
  let s := { s with power := { s.power with devSince := dev } }
  readings.foldl (fun t x =>
    let long : Bool := match Tab.find dev x.1 with | some a => a + 1000000 ≤ s.micros | none => false
    if t.power.failedSensors.contains x.1 || !(implausible x.2 || long) then t
    else { t with power := { t.power with failedSensors := t.power.failedSensors ++ [x.1] } }.event "SENSOR_FAILED" clsINFO srcSheet
      (sensorSheet x.1) [x.1]) s

/-- A core's fault waits for its batch, whose one legend change sets the core FENCED (R52 to R54). -/
def State.faultWaits (s : State) (n : Nat) : Bool :=
  (s.job.batch.faults ++ s.job.batch.next ++ s.job.wantB).contains (.core n)

/-- A core's reading (R677). -/
def State.coreHeat (s : State) (n : Nat) (t : Word32) : State :=
  let p := s.power
  let s := if atLeast 100 t && !p.highSensors.contains n then
      { s with power := { p with highSensors := p.highSensors ++ [n] } }.event "TEMP_HIGH" clsINFO srcCore n []
    else if numLe t (int32 98) then { s with power := { p with highSensors := p.highSensors.filter (fun x => x != n) } }
    else s
  let st := s.coreStateOf n
  if !atLeast 110 t || st = .fenced || st = .defective || s.faultWaits n then s
  else { s with power := { s.power with thermalFences := satAdd32 s.power.thermalFences 1,
                                        hotFenced := s.power.hotFenced.filter (fun x => x != n) ++ [n] } }.askB (.core n)

/-- Two sensors of a sheet at 110 °C turn the sheet off (R678). -/
def State.sheetHeat (s : State) (hot : List Nat) (k : Nat) : State :=
  if s.wafer.dark.contains k || (hot.filter (fun i => i ≥ 65536 && sensorSheet i = k)).length < 2 then s
  else (s.sheetOff k).askC (.sheetLost k)

/-- The coolant rule (R681). -/
def State.coolant (s : State) (inlet outlet : Word32) : State :=
  let off : Bool := !(atLeast 20 inlet && numLe inlet (int32 35)) || numLt (int32 15) (sub32 outlet inlet)
  let was := s.power.coolantOut
  let since := s.power.coolantSince.getD s.micros
  let held : Bool := since + 1000000 ≤ s.micros
  let s := { s with power := { s.power with inlet := inlet, outlet := outlet, coolantOut := off && (held || was),
                                            coolantSince := if off then some since else none } }
  if off && held && !was then s.info "COOLANT_RANGE" [] else s

end Sys2Proof.Machine
end

