-- ==== Sys2Proof/Machine/StepOps.lean ====
section
/-!
DEFINITION. Steps: the combine of tensor scales and of alarms at a step boundary (R193, R202, R203), program variants (R206), the
start of a step (R195, R416, R418, R533) and its boundary (R415, R431, R518); and a core's instruction store and tables from the plan
image (R73, R512).
-/

namespace Sys2Proof.Machine

/-! ### Tensor scales (R191, R193, R194) -/

/-- A table entry takes the step's amax into its history of H, and its exponent from that history when it is in a scale group
(R193). -/
def ScaleEntry.combine (e : ScaleEntry) (grouped : Bool) (amax : Word32) (form h margin : Nat) : ScaleEntry :=
  let hist := (amax :: e.hist).take (max 1 h)
  let a := hist.foldl maxAbs 0#32
  let t : Int := match val32 a with
    | .fin _ m x => if m = 0 then e.t
        else clampInt (-127) 127 (ceilLog2Ratio m x (vMax form).1 (vMax form).2 + (margin : Int))
    | _ => e.t
  { e with cur := 0#32, hist := hist, t := if grouped then t else e.t }

/-- The group of a table entry of a logical core. -/
def Plan.scaleGroup (p : Plan) (l tent : Nat) : Option ScaleGroup := p.scaleGroups.find? (fun g => g.tent = tent && g.cores.contains l)

/-- The amax of a group over its cores, and the form that its VQUANTs convert to: that of its first core that has named the entry. -/
def State.groupAmax (s : State) (g : ScaleGroup) : Word32 × Nat :=
  let es := g.cores.filterMap (fun l => Tab.find (s.core (s.phys l)).scales g.tent)
  (es.foldl (fun a e => maxAbs a e.cur) 0#32, match es.find? (fun e => e.form != 0) with | some e => e.form | none => 0)

/-- A core's table with an entry for every scale group that lists the core. -/
def Plan.groupEntries (p : Plan) (l : Nat) (t : Tab ScaleEntry) : Tab ScaleEntry :=
  (p.scaleGroups.filter (fun g => g.cores.contains l)).foldl (fun t g => Tab.upd ScaleEntry.zero t g.tent id) t

/-- The combine of every scale group at a step boundary (R193). -/
def State.combineScales (s : State) : State :=
  match s.job.plan with
  | none => s
  | some p =>
    let f := s.fmt
    (upFrom 0 s.planCores).foldl (fun t l =>
      t.updCore (t.phys l) (fun c => { c with scales := (p.groupEntries l c.scales).map (fun x =>
        match p.scaleGroup l x.1 with
        | some g => let a := s.groupAmax g
          (x.1, x.2.combine true a.1 a.2 f.amaxHistory f.tensorMargin)
        | none => (x.1, x.2.combine false x.2.cur x.2.form f.amaxHistory f.tensorMargin)) })) s

/-- Every entry takes t from the plan image before the first step (R194). -/
def State.initScales (s : State) : State :=
  match s.job.plan with
  | none => s
  | some p => (upFrom 0 s.planCores).foldl (fun t l => t.updCore (t.phys l) (fun c =>
      let e : Tab ScaleEntry := ((upFrom 0 64).zip (p.scaleInit.getD l [])).map (fun x => (x.1, { ScaleEntry.zero with t := x.2 }))
      { c with scales := e })) s

/-! ### Alarms and samples at a step boundary (R202, R203) -/

/-- Samples whose reference is not complete are dropped and counted (R202). -/
def CoreSt.dropSamples (c : CoreSt) : CoreSt := { c with tri := [], triDropped := satAdd32 c.triDropped c.tri.length }

/-- Alarms of a layer on this module. -/
def State.alarmsOf (s : State) (layer : Nat) : Nat := s.mapped.foldl (fun a n => a + Tab.get 0 (s.core n).alarms layer) 0

/-- The module that takes a layer's alarms: its owner, or the mirror owner that has taken over (R203, R502). -/
def State.alarmOwner (s : State) (l : PlanLayer) : Nat := if s.halyard.takenOver.contains l.layer then l.mirror else l.owner

/-- Each layer's alarm count goes to its owner (R203, R558); a module that does not own the layer shows its own count (R210). -/
def State.sendAlarms (s : State) (step : Nat) : State :=
  s.planLayers.foldl (fun t l =>
    let n := min 65535 (t.alarmsOf l.layer)
    let m := t.alarmOwner l
    if m = t.moduleId then t.alarmFrom l.layer step n
    else
      let t := { t with plotter := { t.plotter with lastAlarms := Tab.set t.plotter.lastAlarms l.layer n } }
      t.message m none none (.control subALARMS l.layer step n)) s

/-! ### Program variants (R206) -/

/-- The module holds a layer's copies in the form of its rung: the forward copies have it on every stack, and of the step in which it first
came, or of a later one, the copy stands whole on every stack. -/
def State.copiesSettled (s : State) (l : PlanLayer) : Bool :=
  let since := (s.copyStacks l).foldl (fun a k => max a (Tab.get 0 s.halyard.formSince (64 * l.layer + k))) 0
  ((l.placements.map (fun p => (s.placeAddr p p.first).1)).eraseDups).all (fun k =>
    (since = 0 || s.isHeld l.layer k 0 (since - 1))
    && (!l.placements.any (fun p => p.part = 0 && p.count != 0 && (s.placeAddr p p.first).1 = k)
        || Tab.get l.rung s.halyard.copyForm (64 * l.layer + k) = s.rungOf l))

/-- At a step boundary the cores switch the layers whose copies are there in a new form: from the next release on they run the queue
regions of the variant (R206). The instruction stores stay as they are (R73). -/
def State.switchVariants (s : State) : State :=
  s.planLayers.foldl (fun t l =>
    let r := t.rungOf l
    if r = t.programRung l || !t.copiesSettled l then t
    else { t with job := { t.job with switched := Tab.set t.job.switched l.layer r } }) s

/-! ### A core's image (R72, R73, R78, R100, R512) -/

/-- Instruction store, Plotter window and pennants of a logical core, from the plan image. -/
def Plan.imageCore (p : Plan) (l : Nat) (c : CoreSt) : CoreSt :=
  let x := p.cores.getD l ⟨[], [], 0, []⟩
  let c := { c.clearRun.blankPlot with istore := Memory.writeN [] 0 x.image, window := x.window, plotPen := [], stopped := true,
                                       sramErr := c.sramErr.filter (fun p => p.1 / 2 ^ 24 != memIstore) }
  c.loadPennants (p.pennants.getD l [])

/-! ### Start of a step -/

/-- A step can start: the job runs, no step does, no response to a fault is in progress, and the step's inputs have been posted (R416,
R418, R521). -/
def State.startable (s : State) : Bool :=
  s.job.jobState = jsRUNNING && s.running.isNone && s.job.batch.stage = .idle
    && (s.record s.job.next).st = .input && (s.record s.job.next).step = s.job.next

/-- The record of a step starts: generator mode, seed and scale tables are taken (R195, R418, R420), and the scale tables join an
armed checkpoint (R533). -/
def State.beginStep (s : State) (step : Nat) : State :=
  let r := { s.record step with st := .running, attempt := 0, genMode := s.fmt.genMode, seed := s.fmt.jobSeed, scales := s.takeScales }
  let s := s.setRec step r
  let j := s.job
  let k := j.ckpt
  let cal : Bool := decide (step = s.firstStep) && s.halyard.calibrate = 1 && !j.calibrated && !j.rejoin
  { s with
    halyard := { s.halyard with ownForwarded := s.halyard.ownForwarded.filter (fun x => 2 * step ≤ x.2) }
    job := { j with
      next := step + 1, resync := 0, resyncScales := none, release := .none, started := true
      calibrating := cal
      ckpt := if k.st != 0 && k.step + 1 = step then { k with scales := some (scalesBytes r.scales) } else k } }

/-- A step starts and its queues are released at QBASE (R416); at a job start and at a realignment a capture message goes first
(R760); a closed checkpoint that has waited for the scale tables drains (R534). -/
def State.startStep (s : State) (step : Nat) : State :=
  let first : Bool := !s.job.started || s.job.resync != 0
  let s := s.beginStep step
  let s := s.startDrain.noteStep 0
  (if first then s.sendCapture 0 (step - 1) 0 false else s).releaseQueues

/-! ### Step boundary (R415) -/

/-- Every mapped core has reported its program complete and every stream unit has reached END (R77, R415). -/
def State.atBoundary (s : State) : Bool := s.mapped.all (fun n => (s.core n).reported) && s.unitsEnded

/-- The boundary of a calibration pass: the step runs again under steps 3 to 6 of R421, and the codes that still wait for the pass's reads
are written (R431). -/
def State.endCalibration (s : State) (r : StepRec) : State :=
  State.flushCodes ({ s with job := { s.job with calibrating := false, calibrated := true } }.rewind r)

/-- The step record becomes COMPLETE, and the record of the step before FREE (R418). -/
def State.completeRecord (s : State) (r : StepRec) : State :=
  let s := s.setRec r.step { r with st := .complete }
  let o := s.record (r.step + 1)
  if o.st = .complete && o.step + 1 = r.step then s.setRec (r.step + 1) .free else s

/-- Sums that each halyard unit has forwarded in the step that ends (R638). -/
def HalyardSt.endStep (h : HalyardSt) : HalyardSt :=
  let now (g : Nat) : Nat := (Tab.get HalCounts.zero h.counts g).forwarded
  { h with lastForwarded := (upFrom 0 4).map (fun g => (g, now g - Tab.get 0 h.forwardedAt g)),
           forwardedAt := (upFrom 0 4).map (fun g => (g, now g)) }

/-- The boundary of a step (R415, R193, R202, R203, R206, R418, R760); after a replay the module may realign (R518). -/
def State.endStep (s : State) (r : StepRec) : State :=
  let s := { s.combineScales with halyard := s.halyard.endStep }
  let s := (s.updCores s.mapped (fun _ c => c.dropSamples)).sendAlarms r.step
  let s := (s.completeRecord r).switchVariants
  let s := (s.sendCapture 0 r.step r.attempt true).noteStep r.step
  let after := s.job.replayed
  let s := { s with job := { s.job with replayed := false } }
  if after && s.peerStep > r.step then s.realign (some r.scales) (r.step + 1) (s.peerStep + 1) else s

end Sys2Proof.Machine
end

