-- ==== Sys2Proof/Machine/Fabric.lean ====
section
/-!
DEFINITION. Links of the mesh (R374 to R377), the escape sub-channel (R379), critical state (R388), class B and class C faults (R509,
R512, R522), the routing reload (R389) with re-placement (R54 to R57), and the releases after it (R421, R517, R519).
-/

namespace Sys2Proof.Machine

/-! ### Links -/

/-- A retransmission on a link is counted with those of the last millisecond, and at the router that asks for it (R375, R395). -/
def State.countRetry (s : State) (l : Nat) : State :=
  let x := s.link l
  let t := s.micros
  let s := s.setLink l { x with retryAt := x.retryAt.filter (fun a => t < a + 1000) ++ [t] }
  match linkReceiver l with
  | none => s
  | some n => (s.routerCount n (fun c => { c with crcRetries := satAdd32 c.crcRetries 1 })).count (blkRouter n) evCRC_RETRY 0 1 1

/-- A link direction goes down, a class B fault of the link (R377); a neat line channel narrows its segment, and is a fault of the segment when
no other is up (R511). -/
def State.loseLink (s : State) (l : Nat) : State :=
  let t := s.linkDown l
  let k := (l - 5688) / 16
  if !isNeat l then t.askB (.link l)
  else if (t.neatUp k ((l - 5688) % 16 / 8)).isEmpty then t.askB (.neatSegment k) else t

/-- A flit may fail this many retransmissions in a row (R374). -/
def maxRetransmissions : Nat := 8

/-- LINK_CRC_MISMATCH (R374): a flit fails its CRC-32 at the receiver; `again` when it is the one just retransmitted. After 8 failed
retransmissions in a row the link direction goes down, otherwise one more is requested. -/
def execLinkCrcMismatch (link : Nat) (again : Bool) (s : State) : Res :=
  withLink link
    (let x := s.link link
     let n := if again then x.fails + 1 else 0
     if x.st != .up then .next s
     else if n ≥ maxRetransmissions then done (s.loseLink link)
     else done ((s.setLink link { x with fails := n }).countRetry link))

/-- SELFTEST_TRIGGER (R375). -/
def execSelftestTrigger (link : Nat) (s : State) : Res :=
  withLink link
    (let x := s.link link
     if x.st != .up || x.retryAt.length < s.fabric.selftestTrigger then .next s
     else
       let s := s.setLink link { x with st := .selfTest, retryAt := [] }
       match linkReceiver link with
       | none => done s
       | some n => done (s.routerCount n (fun c => { c with selfTests := satAdd32 c.selfTests 1 })))

/-- LINK_SELFTEST_COMPLETE (R375, R376): the failed data wires that self-test finds take spares; a link direction whose failed wires
outnumber its spares, or whose sideband has a second failed wire, goes down. -/
def execLinkSelftestComplete (link : Nat) (failedWires : List Nat) (sidebandFailed : Nat) (s : State) : Res :=
  withLink link
    (let x := s.link link
     if x.st != .selfTest then .next s
     else
       match if sidebandFailed > 1 then none else x.steerAll failedWires with
       | none => done (s.loseLink link)
       | some y => done (s.setLink link { y with st := .up, fails := 0, retryAt := [] }))

/-! ### The escape sub-channel (R379) -/

/-- A packet stands at a router that it reaches by its PRIMARY ways, and can move. -/
def Packet.waitsAt (s : State) (p : Packet) (router dest chan : Nat) : Bool :=
  !p.escape && p.vc = chan && p.dst = dest && (s.wayFrom p.here dest).contains router

/-- The packet moves to the escape sub-channel at a router. -/
def Packet.move (s : State) (p : Packet) (router : Nat) : Packet :=
  { p with escape := true, here := router, hops := p.hops + ((s.wayFrom p.here p.dst).findIdx? (fun x => x = router)).getD 0 }

/-- Where the ESCAPE ports lead from a router toward another: none when they arrive, otherwise the router without a route. -/
def escapeEnd (hop : Nat → Nat → Nat) : Nat → Nat → Nat → Option Nat
  | 0, n, _ => some n
  | f + 1, n, d =>
    if n = d then none
    else
      match if hopEscape (hop n d) < 4 then neighbour n (hopEscape (hop n d)) else none with
      | none => some n
      | some k => escapeEnd hop f k d

/-- The first packet in a list that waits moves; the others stay. The answer names it. -/
def moveFirst (s : State) (router dest chan : Nat) : List Packet → Option (Nat × List Packet)
  | [] => none
  | p :: l =>
    if p.waitsAt s router dest chan then some (0, p.move s router :: l)
    else (moveFirst s router dest chan l).map (fun m => (m.1 + 1, p :: m.2))

/-- The first message of a list that holds such a packet, with the packet moved; without a way on that packet of it is discarded. -/
def moveIn {α : Type} (s : State) (router dest chan : Nat) (get : α → List Packet) (set : List Packet → α → α) (drop : Nat → α → Option α)
    (keep : Bool) : List α → Option (List α)
  | [] => none
  | x :: l =>
    match moveFirst s router dest chan (get x) with
    | some m => some (if keep then set m.2 x :: l else ((drop m.1 (set m.2 x)).map (fun y => y :: l)).getD l)
    | none => (moveIn s router dest chan get set drop keep l).map (fun m => x :: m)

/-- A contribution without one of its blocks. -/
def ContribMsg.without (i : Nat) (m : ContribMsg) : Option ContribMsg :=
  let x := { m with blocks := m.blocks.eraseIdx i, pkts := m.pkts.eraseIdx i }
  if x.blocks.isEmpty then none else some x

/-- The packets in flight after one has moved to the escape sub-channel, when this model holds the one that waits. -/
def State.moveFlight (s : State) (router dest chan : Nat) (keep : Bool) : Option FlightSt :=
  let f := s.flight
  match moveIn s router dest chan (fun (x : RaiseMsg) => if x.place = .flying then [x.pkt] else [])
      (fun m x => { x with pkt := m.headD x.pkt }) (fun _ _ => none) keep f.raises with
  | some l => some { f with raises := l }
  | none =>
    match moveIn s router dest chan (fun (x : SendMsg) => if x.place = .flying then [x.pkt] else [])
        (fun m x => { x with pkt := m.headD x.pkt }) (fun _ _ => none) keep f.sends with
    | some l => some { f with sends := l }
    | none =>
      match moveIn s router dest chan TileMsg.pkts (fun m x => { x with pkts := m }) (fun i x => some { x with lost := x.lost ++ [i] }) keep f.tiles with
      | some l => some { f with tiles := l }
      | none => (moveIn s router dest chan ContribMsg.pkts (fun m x => { x with pkts := m }) ContribMsg.without keep f.contribs).map
          (fun l => { f with contribs := l })

/-- The packet that waits at a router, if this model holds it. -/
def State.waiting (s : State) (router dest chan : Nat) : Option Packet :=
  let f := s.flight
  (((f.raises.filter (fun x => x.place = .flying)).map RaiseMsg.pkt) ++ ((f.sends.filter (fun x => x.place = .flying)).map SendMsg.pkt)
    ++ f.tiles.flatMap TileMsg.pkts ++ f.contribs.flatMap ContribMsg.pkts).find? (fun p => p.waitsAt s router dest chan)

/-- Its flits have come to the router on the primary sub-channel (R756). -/
def State.cameTo (s : State) (router dest chan : Nat) : State :=
  match s.waiting router dest chan with
  | some p => s.flitsOut p ((s.wayFrom p.here p.dst).takeWhile (fun n => n != router))
  | none => s

/-- ESCAPE_WAIT_EXPIRY (R379, R386): the head of a packet has waited `waited` FCLK at a router for a primary credit. When that is
ESCAPE_WAIT and an escape credit is there, it moves to the escape sub-channel and stays on it; without a way along the ESCAPE ports it is
discarded where they end. Credits and buffers are timing (notes/assumptions/11.md); a packet that this model does not hold moves all the
same. -/
def execEscapeWaitExpiry (router dest : Nat) (head : HeadWait) (s : State) : Res :=
  withCore router (withCore dest
    (if head.chan > 4 then .fault .noSuchPlace
     else if head.waited < s.fabric.escapeWait || !head.credit then .next s
     else
       let stop := escapeEnd s.fabric.routing.hop numCores router dest
       let t := { s.cameTo router dest head.chan with flight := (s.moveFlight router dest head.chan stop.isNone).getD s.flight }.count (blkRouter router) evESCAPE_MOVES
         (2 ^ head.chan) 1 1
       match stop with
       | none => done t
       | some x => done (t.discarded x 1)))

/-- CRITICAL_STATE (R388, R511, R685). -/
def execCriticalState (_table : CritTable) (s : State) : Res := done (s.askReset rcCRITICAL_STATE .warm)

/-! ### Class B faults (R509, R512) -/

/-- The fault names a place of the wafer. -/
def faultBPlace : FaultB → Bool
  | .core n => n < numCores
  | .router n => n < numCores
  | .link l => linkExists l
  | .stackData k => k < numStacks
  | .neatSegment k => k < numStations
  | .neatChannel k d => k < numStations && d < 2

/-- What a class B fault does to its part at once (R377, R511). -/
def State.loseB (s : State) : FaultB → State
  | .link l => s.linkDown l
  | .neatChannel k d => (match s.neatUp k d with | c :: _ => s.linkDown (neatLink k d c) | [] => s)
  | .neatSegment k => (upFrom 0 16).foldl (fun t c => t.linkDown (neatLink k 0 c)) s
  | _ => s

/-- CLASS_B_FAULT. A neat line channel that goes down, the lowest of those that are up, narrows its segment, and is a fault of the segment when
no other is up (R511). -/
def execClassBFault (f : FaultB) (s : State) : Res :=
  if !faultBPlace f then .fault .noSuchPlace
  else
    let t := s.loseB f
    match f with
    | .neatChannel k d => done (if (t.neatUp k d).isEmpty then t.askB (.neatSegment k) else t)
    | _ => done (t.askB f)

def faultCPlace : FaultC → Bool
  | .sheetLost n => n < numSheets
  | .fabricRail n => n < numSheets
  | .plane n => n < numSheets
  | .stack k => k < numStacks
  | .portGroup g => g < 4
  | .noReserve => true

/-- CLASS_C_FAULT (R509, R522); a stack without bad-line room is beyond the outer code (R317), any other has lost its controller; a sheet that is lost turns
off (R649, R678). -/
def execClassCFault (f : FaultC) (s : State) : Res :=
  if !faultCPlace f then .fault .noSuchPlace
  else
    let s := match f with
      | .stack k => s.updStack k (fun x => { x with failed := x.failed || !x.beyond })
      | .sheetLost k => s.sheetOff k
      | .plane k => s.sheetOff k
      | _ => s
    done (s.askC f)

/-! ### Routing reload (R389) -/

/-- Cores of a batch that fail, in the order of detection, in which they take their reserves (DESIGN CHOICE: notes/assumptions/28.md): named cores, and those behind failed routers (R387). -/
def failedCores (l : List FaultB) : List Nat :=
  l.filterMap (fun f => match f with | .core n => some n | .router n => some n | _ => none)

/-- Step 3 of R389: tables of the damaged mesh, and the legend of the batch (R54 to R57, R387). -/
def State.build (s : State) : Placing × Built :=
  let down := (s.job.batch.faults.filterMap (fun f => match f with | .router n => some n | _ => none)).filter
    (fun n => !s.wafer.routerDown.contains n)
  let m := { s.mesh with downRouters := s.wafer.routerDown ++ down }
  let p : Placing := ⟨s.wafer.logical, s.wafer.coreState, [], [], [], [], false⟩
  let q := (failedCores s.job.batch.faults).foldl (fun a n => a.fail m s.wafer.dark n) p
  (q, { routing := m.routing s.segmentDown s.fabric.neatPenalty, logical := q.logical, coreState := q.coreState, moved := q.moved,
        fenced := q.fenced, routerDown := down, changed := !down.isEmpty || !q.fenced.isEmpty })

/-- ROUTING_DRAIN_COMPLETE (R389 steps 2 and 3, R96). -/
def execRoutingDrainComplete (s : State) : Res :=
  if s.fabric.reload != .draining then .next s
  else done { s with flight := .reset, fabric := { s.fabric with reload := .building } }

/-- Updates whose sums have been handed over and that have not passed step 4 of R474 (R512 step 5). -/
def State.owedNow (s : State) : List (Nat × Nat) :=
  (s.plotter.ready.filter (fun u => (s.schedLayer u.layer).isSome)).map (fun u => (u.layer, u.step))
    ++ (s.plotter.running.filter (fun x => x.2.stage < 2)).map (fun x => (x.2.layer, x.2.step))

/-- Tables that a routing reload does not write. -/
def TableAt.standing : TableAt → Bool
  | .halyard _ _ => true
  | .chain _ => true
  | _ => false

/-- Step 4 of R389 and of R512: tables, legend, with one legend change, and reserve images are written (R52, R53, R58); a reserve takes the
tensor scale table of the core that it stands for (R194, R195; DEDUCED: notes/assumptions/28.md). -/
def State.writeBuilt (s : State) (b : Built) : State :=
  let old := s.wafer.logical
  let s := { s with wafer := { s.wafer with logical := b.logical, coreState := b.coreState }.markRouters b.routerDown
                    fabric := { s.fabric with routing := b.routing, reload := .writing, tableErr := s.fabric.tableErr.filter TableAt.standing } }
  let s := if b.changed then s.nextEpoch else s
  let s := match s.job.plan with
    | some p => b.moved.foldl (fun (t : State) l => t.updCore (t.phys l) (fun c =>
        { p.imageCore l c with scales := (t.core (old.getD l (0, 0)).1).scales })) s
    | none => s
  let s := s.updCores b.fenced (fun _ c => { c with stopped := true })
  let j := s.job
  { s with job := { j with batch := { j.batch with fenced := j.batch.fenced ++ b.fenced } } }

/-- ROUTING_TABLES_BUILT (R389 steps 3 and 4, R54 to R57): what stands now of legend and links is built on, so that nothing changed since the
drain is undone. A failed mapped core that finds no reserve is a class C fault (R57). -/
def execRoutingTablesBuilt (s : State) : Res :=
  if s.fabric.reload != .building then .next s
  else
    let x := s.build
    let s := (x.1.shortSheets.foldl (fun t n => t.event "RESERVE_SHORT" clsINFO srcSheet n []) s).writeBuilt x.2
    done (if x.1.unplaced then s.askC .noReserve else s)

/-- ROUTING_WRITE_COMPLETE (R389 step 5). -/
def execRoutingWriteComplete (s : State) : Res :=
  if s.fabric.reload != .writing then .next s
  else done { s with fabric := { s.fabric with reload := .reading } }

/-- Step 6 of R389: the epoch goes up, changed distances become estimates (R62), and held messages are delivered; the next batch begins when
it holds faults (R53), else the updates run that have been handed over by now (R512 step 5). -/
def State.reloaded (s : State) : State :=
  let s := { s with fabric := { s.fabric with reload := .none, reloadFails := 0, epoch := (s.fabric.epoch + 1) % 2 ^ 32 } }.estimate
  let b := s.job.batch
  if b.next.isEmpty then
    ({ s with job := { s.job with batch := { b with stage := .owed, faults := [], owed := s.owedNow } } }).deliverHeld
  else s.startBatch b.next

/-- ROUTING_READBACK_COMPLETE (R389, R390): the checkpoint drain goes on (R540). A failed check repeats steps 4 and 5 once, and then is a reset source. -/
def execRoutingReadbackComplete (ok : Bool) (s : State) : Res :=
  if s.fabric.reload != .reading then .next s
  else if ok then done s.reloaded.advanceDrain
  else if s.fabric.reloadFails = 0 then done { s with fabric := { s.fabric with reload := .writing, reloadFails := 1 } }
  else done (s.askReset rcCRITICAL_STATE .warm)

/-! ### Releases (R421, R512, R517, R519) -/

/-- OWED_UPDATES_DONE (R512 steps 5 and 6, R517). -/
def execOwedUpdatesDone (s : State) : Res :=
  let b := s.job.batch
  if b.stage != .owed || b.owed.any (fun x => s.owedNow.contains x) then .next s
  else if s.running.isNone && s.job.resync = 0 then done s.endBatch
  else done ({ s with job := { s.job with batch := { b with stage := .release } } }).replayOrRealign

/-- The queues are released after a replay or a realignment, and the batch's response is over. -/
def State.releaseAgain (s : State) : State :=
  let s := { s with job := { s.job with release := .none } }
  (s.releaseQueues).endBatch

/-- REPLAY_RELEASE (R421 steps 5 and 6, R760). -/
def execReplayRelease (s : State) : Res :=
  match s.job.release, s.running with
  | .replay step, some r =>
    if r.step != step || s.job.jobState != jsRUNNING || s.job.batch.stage = .reload || s.job.batch.stage = .owed || !s.copiesReady step
    then .next s
    else done ((s.sendCapture 0 step ((r.attempt + 255) % 256) false).releaseAgain)
  | _, _ => .next s

/-- REALIGN_RELEASE (R519 step 5, R521). -/
def execRealignRelease (s : State) : Res :=
  match s.job.release with
  | .realign target =>
    let r := s.record target
    if s.job.jobState != jsRUNNING || s.job.batch.stage = .reload || s.job.batch.stage = .owed || r.st != .input || r.step != target
    then .next s
    else done (s.startStep target).endBatch
  | _ => .next s

/-! ### Self-test of fenced cores (R46, R47, R514) -/

/-- A core enters the field-defect list, or is fenced for this power cycle when the list is full (R46, R47). -/
def State.permanent (s : State) (n : Nat) : State :=
  let w := s.wafer
  if w.fieldDefects.contains n then s
  else if w.fieldDefects.length < 64 then { s with wafer := w.storeDefects (w.fieldDefects ++ [n]) }
  else ({ s with wafer := { w with cycleFenced := w.cycleFenced ++ [n] } }).event "FIELD_LIST_FULL" clsINFO srcCore n []

/-- CORE_SELF_TEST_COMPLETE (R514): a core whose regulator has failed cannot pass (R662), and a core fenced at 110 °C must
have cooled to 95 °C, by a sensor that has not failed (R677, R680). -/
def execCoreSelfTestComplete (core : Nat) (ok : Bool) (s : State) : Res :=
  withCore core
    (let b := s.job.batch
     let hot : Bool := s.power.hotFenced.contains core && !s.power.failedSensors.contains core && !numLe (Tab.get 0#32 s.power.coreTemps core) (int32 95)
     if !b.testing.contains core || s.coreStateOf core != .fenced || hot then .next s
     else
       let s := { s with job := { s.job with batch := { b with testing := b.testing.filter (fun n => n != core) } } }
       let bad (kind : Nat) : Bool := (Tab.get RegSt.ok s.power.regs (2 ^ 28 * kind + core)).failed
       done (if ok && !bad 1 && !bad 2 then s else s.permanent core))

end Sys2Proof.Machine
end

