-- ==== Sys2Proof/Machine/FwOps.lean ====
section
/-!
DEFINITION. Firmware bundles and image slots (R717 to R739): header checks, delivery by chunks, slot state changes and what the boot chain
selects.
-/

namespace Sys2Proof.Machine

/-! ### Slots (R721) -/

def FwSt.slot (f : FwSt) (i : Nat) : ImgSlot := if i % 2 = 0 then f.slot0 else f.slot1
def FwSt.setSlot (f : FwSt) (i : Nat) (x : ImgSlot) : FwSt := if i % 2 = 0 then { f with slot0 := x } else { f with slot1 := x }

/-- The slot in a state, if there is one. -/
def FwSt.find (f : FwSt) (st : SlotState) : Option Nat := if f.slot0.st = st then some 0 else if f.slot1.st = st then some 1 else none

/-- The active slot. -/
def FwSt.active (f : FwSt) : Option Nat := match f.find .unconfirmed with | some i => some i | none => f.find .confirmed

/-- A staged slot becomes active unconfirmed, the slot that was active previous (R721). -/
def FwSt.activate (f : FwSt) : FwSt :=
  match f.find .staged with
  | none => f
  | some i =>
    let f := match f.active with | some a => f.setSlot a { f.slot a with st := .previous } | none => f
    { f.setSlot i { f.slot i with st := .unconfirmed } with confirmRemaining := 0, confirmStored := 0 }

/-- Fallback: the active unconfirmed slot becomes empty, the previous slot active confirmed (R721). -/
def FwSt.fallback (f : FwSt) : FwSt :=
  match f.find .unconfirmed with
  | none => f
  | some i =>
    let f := f.setSlot i .none
    let f := match f.find .previous with | some p => f.setSlot p { f.slot p with st := .confirmed } | none => f
    { f with confirmRemaining := 0, confirmStored := 0 }

/-- Slots change; a stored CONFIRM_REMAINING that changes with them is a write of the NV store (R691). -/
def State.setFw (s : State) (f : FwSt) : State :=
  let t := { s with fw := f }
  if f.confirmStored = s.fw.confirmStored then t else t.nvBegin s.nvImage

/-- The image that runs has not been confirmed; a pushed image needs no confirmation (R726). -/
def FwSt.unconfirmed (f : FwSt) : Bool := f.pushed.isNone && (f.slot f.running).st = .unconfirmed

/-! ### The bundle header (R717 to R719) -/

def hdrRollback (b : List Byte) : Nat := leAt b 0x0C 1
def hdrKeySlot (b : List Byte) : Nat := leAt b 0x0D 1
def hdrRevoke (b : List Byte) : Nat := leAt b 0x0E 1
def hdrLength (b : List Byte) : Nat := leAt b 0x10 4
def hdrManifest (b : List Byte) : Nat := leAt b 0x14 4
def hdrBody (b : List Byte) : Nat := leAt b 0x18 4

/-- Check 1 of R719; ROLLBACK and REVOKE outside their ranges count as out of form. -/
def hdrFormBad (b : List Byte) : Bool :=
  slice b 0 4 != ascii "KWFW" || leAt b 4 2 != 1 || leAt b 6 2 != 0xB0 || hdrRollback b > 64 || hdrRevoke b ≥ 16
    || leAt b 0x0F 1 != 0 || leAt b 0x1C 4 != 0 || slice b 0x60 160 != zeros 160 || slice b 0x1FB0 80 != zeros 80
    || hdrBody b = 0 || hdrManifest b != ceilDiv (hdrBody b) 128 || hdrLength b > 201326592
    || hdrLength b != 8192 + 4096 * (hdrManifest b + hdrBody b)

/-- The number of the first check of R719 that fails, 0 when all pass. -/
def FwSt.headerCheck (f : FwSt) (b : List Byte) : Nat :=
  let key := slice b 0x20 32
  let k := hdrKeySlot b
  if hdrFormBad b then 1
  else if k > 3 || bit f.revoked k || sha256 key != Config.rootKey k then 2
  else if !Config.slhVerify key (b.take 0x100) (slice b 0x100 7856) then 3
  else if hdrRollback b < f.rollback then 4
  else if bit (hdrRevoke b) k then 5
  else 0

/-- What FW_IMAGES keeps of a bundle. -/
def imgOf (st : SlotState) (b digest : List Byte) : ImgSlot := ⟨st, leAt b 8 4, digest, hdrRollback b, hdrRevoke b, hdrKeySlot b⟩

/-- A slot's image passes the checks whose outcome fuses can have changed since it was staged (R719 checks 2 and 4, R724). -/
def FwSt.bootable (f : FwSt) (x : ImgSlot) : Bool := x.st != .empty && !bit f.revoked x.keySlot && x.rollback ≥ f.rollback

/-! ### Delivery (R727 to R734) -/

/-- Bytes of chunks that have arrived, in order. -/
def Delivery.chunks (d : Delivery) (first n : Nat) : List Byte := (upFrom first n).flatMap (fun c => Tab.get [] d.bytes c)

def Delivery.header (d : Delivery) : List Byte := d.chunks 0 2

def Delivery.hasAll (d : Delivery) (first n : Nat) : Bool := (upFrom first n).all d.bitmap.contains

/-- A chunk is written, read back and marked. -/
def Delivery.store (d : Delivery) (c : Nat) (data : List Byte) : Delivery :=
  { d with bytes := Tab.set d.bytes c data, bitmap := d.bitmap ++ [c] }

/-- Chunks are forgotten. -/
def Delivery.unstore (d : Delivery) (first n : Nat) : Delivery :=
  let hit (c : Nat) : Bool := first ≤ c && c < first + n
  { d with bytes := d.bytes.filter (fun p => !hit p.1), bitmap := d.bitmap.filter (fun c => !hit c) }

/-- Chunks of the bundle whose header has arrived. -/
def Delivery.manifestChunks (d : Delivery) : Nat := hdrManifest d.header
def Delivery.total (d : Delivery) : Nat := 2 + d.manifestChunks + hdrBody d.header

/-- Body chunk `i` matches its manifest entry (R718). -/
def Delivery.bodyOk (d : Delivery) (i : Nat) (data : List Byte) : Bool :=
  sha256 data = slice (d.chunks 2 d.manifestChunks) (32 * i) 32

def Delivery.manifestGood (d : Delivery) : Bool := sha256 (d.chunks 2 d.manifestChunks) = slice d.header 0x40 32

/-- At a start, the stored header and manifest are verified again; a failure clears the bitmap and empties the slot (R732). -/
def FwSt.reverify (f : FwSt) : FwSt :=
  let d := f.staging
  if d.bitmap.isEmpty then f
  else
    let h : Bool := d.hasAll 0 2
    let m : Bool := h && d.hasAll 2 d.manifestChunks
    if (h && f.headerCheck d.header != 0) || (m && !d.manifestGood) then { f with staging := .empty }
    else { f with staging := { d with headerOk := h, manifestOk := m } }

/-- The allowance of R734 at a time in µs. -/
def FwSt.allowed (f : FwSt) (now : Nat) : Nat := min (8192 * 8000000) (f.allowance + f.rateCap * (now - f.allowanceAt))

/-- The bundle is complete: it is staged, or the boot ROM has it (R720, R726, R733). -/
def FwSt.complete (f : FwSt) (push : Bool) (target : Nat) (d : Delivery) : FwSt :=
  let b := d.chunks 0 d.total
  let h := d.header
  if push then { f with pushed := some (imgOf .confirmed h (sha256 b)), push := .empty }
  else { f.setSlot target (imgOf .staged h (sha256 b)) with staging := .empty }

end Sys2Proof.Machine
end

