-- ==== Sys2Proof/Machine/PlanImage.lean ====
section
/-!
DEFINITION. The plan image (R396 to R400, R795): header, section table, the sections whose layout the spec gives, and the checks that
end in a detail of R404.
-/

namespace Sys2Proof

/-- The sections whose layout within the image the spec leaves to the mapper: what they hold (QUEUES, STREAM_LISTS,
CONTROLLER_COUNTERS, GATHER_LISTS, HALYARD_TABLES and LEDGER_TILES). -/
structure Machine.PlanBody where
  cores : List Machine.PlanCore
  streams : Machine.Tab (List Nat)
  counters : Machine.Tab Nat
  copyCtrs : List Machine.CopyCtr
  gathers : Machine.Tab (List Nat)
  holders : Machine.Tab (List Nat)
  halyard : Machine.Tab Nat
  chains : List Nat
  ledgers : List Machine.LedgerTile
  /-- JOB_SEED, where the image sets it (R210). -/
  seed : Option Nat
  deriving DecidableEq, Repr

/-- How those sections spell their contents: by (TYPE, bytes); none where they cannot be read. notes/assumptions/6.md. -/
opaque Config.planBody : List (Nat × List Byte) → Option Machine.PlanBody
/-- How the LAYERS section spells the items of a layer that stand before PLACEMENT_COUNT: the layer without its placements and chains, and
the bytes that the items take; none where they cannot be read. notes/assumptions/6.md. -/
opaque Config.layerHead : List Byte → Option (Machine.PlanLayer × Nat)

namespace Machine

/-! ### Details of a refused plan (R404) -/

def dtHEADER : Nat := 0x1
def dtWAFER : Nat := 0x2
def dtSECTION : Nat := 0x3
def dtDIGEST : Nat := 0x4
def dtCORE_COUNT : Nat := 0x5
def dtSEQ_LIMIT : Nat := 0x6
def dtSCHEDULE : Nat := 0x7
def dtLEGEND_RANGE : Nat := 0x8
def dtLEGEND_DUPLICATE : Nat := 0x9
def dtLEGEND_DEFECTIVE : Nat := 0xA
def dtLEGEND_RESERVE_SHORT : Nat := 0xB
def dtHBM_REGION : Nat := 0xC
def dtSTREAM_DESC : Nat := 0xD
def dtROUTING : Nat := 0xE
def dtVARIANT : Nat := 0xF

/-! ### Header and section table (R396 to R398) -/

def planHeader (b : List Byte) : PlanHeader :=
  { stepping := leAt b 6 2, waferSerial := leAt b 8 8, imageLength := leAt b 0x10 8, jobId := leAt b 0x18 8,
    firstStep := leAt b 0x20 4, seqLen := leAt b 0x24 4, cores := leAt b 0x28 2, layers := leAt b 0x2A 2,
    moduleId := leAt b 0x2C 2, moduleCount := leAt b 0x2E 2, schedule := leAt b 0x32 1, microbatches := leAt b 0x33 1 }

/-- HEADER of R404: MAGIC, FORMAT, STEPPING, a reserved byte, IMAGE_LENGTH, MODULE_ID or MODULE_COUNT out of rule; and FIRST_STEP or
LAYERS 0, which R396 does not allow (DEDUCED: notes/assumptions/18.md). -/
def headerBad (b : List Byte) (length : Nat) : Bool :=
  let h := planHeader b
  slice b 0 4 != ascii "KWPL" || leAt b 4 2 != 1 || h.stepping != 0xB0 || h.imageLength != length || length > 2 ^ 32 || length < 128
    || slice b 0x34 12 != zeros 12 || slice b 0x60 32 != zeros 32 || h.moduleId ≥ 2 ^ 14 || h.moduleCount = 0
    || h.moduleCount > 2 ^ 14 || h.firstStep = 0 || h.layers = 0

/-- An entry of the section table (R397). -/
structure Section where
  type : Nat
  reserved : Nat
  length : Nat
  offset : Nat
  deriving DecidableEq, Repr

def sectionTable (b : List Byte) : List Section :=
  (upFrom 0 (leAt b 0x30 2)).map (fun i =>
    let e := slice b (0x80 + 16 * i) 16
    ⟨leAt e 0 2, leAt e 2 2, leAt e 4 4, leAt e 8 8⟩)

/-- Required section types (R397). -/
def requiredSections : List Nat := [0x01, 0x02, 0x03, 0x04, 0x05, 0x06, 0x07, 0x08, 0x09, 0x0B, 0x0D, 0x0E, 0x11]

/-- Two sections share a byte. -/
def Section.meets (x y : Section) : Bool := x.offset < y.offset + y.length && y.offset < x.offset + x.length

/-- No two sections of the list share a byte. -/
def apart : List Section → Bool
  | [] => true
  | x :: l => l.all (fun y => !x.meets y) && apart l

/-- R398; a reserved field that is not 0, or a table past the image's end, is refused with it (DEDUCED: notes/assumptions/18.md). -/
def sectionsBad (b : List Byte) (length : Nat) : Bool :=
  let t := sectionTable b
  let top := 0x80 + 16 * leAt b 0x30 2
  let types := t.map (fun x => x.type)
  top > length || t.any (fun x => x.type = 0 || x.type > 0x11 || x.reserved != 0 || x.offset < top || x.offset + x.length > length)
    || types.eraseDups.length != types.length || !requiredSections.all types.contains || !apart t

/-- The bytes of a section; empty without it. -/
def planSection (b : List Byte) (type : Nat) : List Byte :=
  match (sectionTable b).find? (fun x => x.type = type) with
  | some x => slice b x.offset x.length
  | none => []

/-- The image's SHA-256 with the DIGEST field read as zero (R399). -/
def planDigest (b : List Byte) : List Byte := sha256 (b.take 0x40 ++ zeros 32 ++ b.drop 0x60)

/-! ### Sections (R797, R383, R318, R562, R795) -/

/-- Little-endian items of `n` bytes. -/
def items (n : Nat) (l : List Byte) : List Nat := (chunks n l).map leNat

def regionOf (x : Nat) : Region := { kind := field x 124 4, stack := field x 118 6, base := field x 80 32, len := field x 48 32 }

def recvOf (x : Nat) : RecvEntry :=
  { tag := field x 112 16, core := field x 101 11, source := field x 87 14, region := field x 75 12, offset := field x 47 28,
    len := field x 34 13, ready := field x 26 8 }

/-- The scale groups at the start of the SCALES section, and the bytes after them (R795). -/
def scaleGroupsOf : Nat → List Byte → List ScaleGroup × List Byte
  | 0, l => ([], l)
  | n + 1, l =>
    let c := leAt l 2 2
    let r := scaleGroupsOf n (l.drop (4 + 2 * c))
    (⟨leAt l 0 1, items 2 (slice l 4 (2 * c))⟩ :: r.1, r.2)

/-- A placement entry (R795). -/
def placementOf (l : List Byte) : Placement :=
  { part := leAt l 0 1, region := leAt l 2 2, stride := leAt l 4 4, offset := leAt l 8 4, first := leAt l 12 2, count := leAt l 14 2 }

/-- The placements and chain numbers of a layer, whether their reserved fields are 0, and the bytes after them (R795). -/
def layerTail (b : List Byte) : List Placement × List Nat × Bool × List Byte :=
  let np := leAt b 0 2
  let nc := leAt b 2 2
  let ps := chunks 16 (slice b 4 (16 * np))
  let cs := items 2 (slice b (4 + 16 * np) (2 * nc))
  (ps.map placementOf, cs, b.length ≥ 4 + 16 * np + 2 * nc && ps.all (fun x => leAt x 1 1 = 0) && cs.all (fun x => field x 12 4 = 0),
    b.drop (4 + 16 * np + 2 * nc))

/-- The layers of a LAYERS section, `n` of them and nothing after the last; none where one cannot be read (R795). -/
def layersOf : Nat → List Byte → Option (List PlanLayer)
  | 0, b => if b.isEmpty then some [] else none
  | n + 1, b =>
    match Config.layerHead b with
    | none => none
    | some (h, used) =>
      let x := layerTail (b.drop used)
      if x.2.2.1 then (layersOf n x.2.2.2).map (fun l => { h with placements := x.1, chains := x.2.1 } :: l) else none

/-- The next-hop tables by router and destination, 8 bits each; the target tables, 32 bits each, those of the cores first (DEDUCED:
notes/assumptions/18.md). -/
def routingOf (hops targets : List Byte) : Routing :=
  let t := items 4 targets
  { nextHop := (upFrom 0 (1344 * 1344)).zip (items 1 hops)
    target := (upFrom 0 (1344 * 48)).zip t
    station := (upFrom 0 (26 * 1344)).zip (t.drop (1344 * 48)) }

/-- The plan of an image whose header, section table and digest have been checked; none where a section cannot be read. -/
def planOf (b : List Byte) : Option Plan :=
  match Config.planBody ((sectionTable b).map (fun x => (x.type, slice b x.offset x.length))),
        layersOf (planHeader b).layers (planSection b 0x0E) with
  | some y, some ls =>
    let h := planHeader b
    let sc := scaleGroupsOf (leAt (planSection b 0x0F) 0 2) ((planSection b 0x0F).drop 2)
    let inp := planSection b 0x11
    some { hdr := h, digest := slice b 0x40 32, cores := y.cores
           pennants := (chunks 64 (planSection b 0x02)).map (items 2)
           legend := items 4 (planSection b 0x03)
           routing := routingOf (planSection b 0x04) (planSection b 0x05)
           regions := (items 16 (planSection b 0x06)).map regionOf
           regionTables := (chunks 128 (planSection b 0x07)).map (items 2)
           streams := y.streams, counters := y.counters, copyCtrs := y.copyCtrs, gathers := y.gathers, holders := y.holders
           halyard := y.halyard, chains := y.chains, ledgers := y.ledgers, schedule := planSection b 0x0D, layers := ls, seed := y.seed
           scaleGroups := sc.1, scaleInit := (chunks 64 sc.2).map (fun c => c.map (fun x => signed x.toNat 8))
           receive := (items 16 (planSection b 0x10)).map recvOf
           inputs := [(leAt inp 0 2, leAt inp 4 4, leAt inp 8 4), (leAt inp 12 2, leAt inp 16 4, leAt inp 20 4)] }
  | _, _ => none

/-- Four regions of the instruction store that lie within it and do not overlap (R72). -/
def queueRegionsOk (qbase qlen : List Nat) : Bool :=
  let l := qbase.zip qlen
  qbase.length = 4 && qlen.length = 4 && l.all (fun x => x.1 + x.2 ≤ 32768)
    && (upFrom 0 4).all (fun i => (upFrom 0 i).all (fun j =>
      let x := l.getD i (0, 0)
      let y := l.getD j (0, 0)
      x.1 + x.2 ≤ y.1 || y.1 + y.2 ≤ x.1))

/-- A section whose contents cannot be read: a length that its items do not fill, a reserved field, queue regions against R72 (DEDUCED:
notes/assumptions/18.md). -/
def contentsBad (b : List Byte) (p : Plan) : Bool :=
  let inp := planSection b 0x11
  (planSection b 0x04).length != 1344 * 1344 || (planSection b 0x05).length != 4 * (1344 * 48 + 26 * 1344)
    || (planSection b 0x06).length % 16 != 0 || (planSection b 0x10).length % 16 != 0 || inp.length != 24
    || leAt inp 2 2 != 0 || leAt inp 14 2 != 0
    || p.cores.any (fun c => !queueRegionsOk c.qbase c.qlen || c.image.length > istoreBytes)
    || p.layers.any (fun l => l.variants.any (fun v => !queueRegionsOk v.qbase v.qlen))
    || (items 16 (planSection b 0x10)).any (fun x => field x 0 26 != 0 || field x 112 16 = 0)

/-! ### Checks (R403 step 3) -/

/-- CORE_COUNT (R400). -/
def State.coreCountBad (s : State) (b : List Byte) (p : Plan) : Bool :=
  let l := p.hdr.cores
  l > s.mappable || (planSection b 0x03).length != 4 * l || (planSection b 0x02).length != 64 * l
    || (planSection b 0x07).length != 128 * l || p.cores.length != l
    || (!(planSection b 0x0F).isEmpty && (p.scaleInit.length != l || !p.scaleInit.all (fun x => x.length = 64)))

/-- SEQ_LIMIT (R408). -/
def Plan.seqBad (p : Plan) : Bool := p.hdr.seqLen = 0 || p.hdr.seqLen > 1048576

/-- SCHEDULE (R396, R410). -/
def Plan.scheduleBad (p : Plan) : Bool :=
  p.hdr.schedule > 1 || p.hdr.microbatches = 0 || (p.hdr.schedule = 0 && p.hdr.microbatches > 127)
    || p.ledgers.any (fun t => t.expect = 0 || t.expect > p.hdr.microbatches)

/-- The first legend detail that applies (R51, R797), with the cores that no plan may map and the dark sheets. -/
def State.legendDetail (s : State) (bad : Nat → Bool) (p : Plan) : Option Nat :=
  let phys := p.legend.map (fun x => field x 0 11)
  if p.legend.any (fun x => !bit x 31 || field x 24 7 != 0 || field x 11 5 != 0 || field x 0 11 > 1343) then some dtLEGEND_RANGE
  else if phys.eraseDups.length != phys.length then some dtLEGEND_DUPLICATE
  else if phys.any bad then some dtLEGEND_DEFECTIVE
  else if (upFrom 0 numSheets).any (fun k => !s.wafer.dark.contains k
      && ((sheetCores k).filter (fun n => !bad n && !phys.contains n)).length < s.wafer.reserve) then some dtLEGEND_RESERVE_SHORT
  else none

/-- The kinds of region that a placement's part may lie in (R319, R795). -/
def placementKinds (part : Nat) : List Nat := if part = 0 then [1, 6] else if part = 1 then [1, 5, 6] else [1]

/-- The last byte of a placement, from the region's start: the tiles of a forward copy have the layer's form, other items fill their
stride (DEDUCED: notes/assumptions/18.md). -/
def Placement.size (x : Placement) (rung : Nat) : Nat :=
  if x.count = 0 then 0
  else 64 * (x.offset + (x.count - 1) * x.stride) + (if x.part = 0 then 128 * columnBytes rung else 64 * x.stride)

/-- A plan's region that lies past its stack's plan space, meets another or breaks its descriptor's rules (R318, R320). -/
def State.regionBad (s : State) (l : List Region) (r : Region) : Bool :=
  r.kind > 8 || r.stack ≥ numStacks || r.len = 0 || r.start + r.bytes > planSpace || (s.stack r.stack).beyond || (s.stack r.stack).failed
    || l.countP (fun q => q.stack = r.stack && q.start < r.start + r.bytes && r.start < q.start + q.bytes) > 1

/-- HBM_REGION (R320, R795). -/
def State.hbmBad (s : State) (b : List Byte) (p : Plan) : Bool :=
  let kindOf (i : Nat) : Nat := match p.regions[i]? with | some r => r.kind | none => 0
  let sizeOf (i : Nat) : Nat := match p.regions[i]? with | some r => r.bytes | none => 0
  let has (i : Nat) (ks : List Nat) (n : Nat) : Bool := i < p.regions.length && ks.contains (kindOf i) && n ≤ sizeOf i
  (items 16 (planSection b 0x06)).any (fun x => field x 112 6 != 0 || field x 0 48 != 0)
    || p.regions.any (s.regionBad p.regions)
    || p.regionTables.any (fun t => t.any (fun i => i < 0xFFFE && i ≥ p.regions.length))
    || p.inputs.any (fun x => !has x.1 [7] (64 * (x.2.1 + x.2.2)))
    || (p.inputs.map (fun x => x.2.2)).eraseDups.length > 1
    || p.layers.any (fun l => l.placements.any (fun x => x.part > 2 || !has x.region (placementKinds x.part) (x.size l.rung)))

/-- Columns, repeats, ring slots and receivers of a stream descriptor (R328, R329). -/
def streamFieldsBad (cores x : Nat) : Bool :=
  let d := streamDescOf x
  let tiles := d.op = 1 || d.op = 2
  d.op > 3 || field x 0 53 != 0 || d.dkind = 3 || d.rep = 0 || d.dest ≥ cores
    || (d.dkind != 2 && d.smask != 0) || (d.dkind != 0 && d.cmask = 0) || (d.dkind = 2 && d.smask = 0)
    || (d.op = 1 && d.form > 0xA) || (d.op = 2 && d.form != 0 && d.form != 3 && d.form != 4)
    || (tiles && (d.n = 0 || d.n > 128 || d.sbslots = 0
                  || d.sbaddr + (d.sbslots - 1) * d.sbstep + d.n * columnBytes d.form > 1048576))
    || (d.op = 3 && (d.form != 0 || d.n != 0 || d.src != 0 || d.tstride != 0 || d.sbaddr != 0 || d.sbstep != 0 || d.sbslots != 0))

/-- The source tile of every repeat lies in one STREAM, KEEP or GATHER region of the controller's stack (R329). -/
def Plan.sourceBad (p : Plan) (k : Nat) (d : StreamDesc) : Bool :=
  (d.op = 1 || d.op = 2) && !(upFrom 0 d.rep).all (fun i =>
    let a := d.src + i * d.tstride
    p.regions.any (fun r => r.stack = k && (r.kind = 1 || r.kind = 5 || r.kind = 6) && r.start ≤ a
      && a + d.n * columnBytes d.form ≤ r.start + r.bytes))

/-- A gather list entry out of rule (R351, R352); refused with STREAM_DESC (DEDUCED: notes/assumptions/18.md). -/
def Plan.gatherBad (p : Plan) (k x : Nat) : Bool :=
  let e := gatherEntryOf x
  e.op > 1 || (e.op = 1 && (field x 0 33 != 0 || e.wire > 0xA || e.opform > 0xA || e.tileCount = 0 || !widens e.wire e.opform
    || !(match p.regions[e.region]? with | some r => r.kind = 6 && r.stack = k | none => false)))

/-- A list's entries up to its END. -/
def toEnd (l : List Nat) (op : Nat → Nat) : List Nat := l.takeWhile (fun x => op x != 0)

/-- A list's END, 0 where its entries end without one. -/
def endOf (l : List Nat) (op : Nat → Nat) : Nat := (l.find? (fun x => op x = 0)).getD 0

/-- STREAM_DESC (R328, R329, R351, R352): the entries up to END, and END's own reserved bits. -/
def Plan.streamBad (p : Plan) : Bool :=
  p.streams.any (fun u => u.1 ≥ 176 || u.2.length > 4096 || (toEnd u.2 (fun x => field x 252 4)).any (fun x =>
      streamFieldsBad p.hdr.cores x || p.sourceBad (u.1 / 4) (streamDescOf x))
      || field (endOf u.2 (fun x => field x 252 4)) 0 53 != 0)
    || p.gathers.any (fun g => (toEnd g.2 (fun x => field x 124 4)).any (p.gatherBad g.1)
      || field (endOf g.2 (fun x => field x 124 4)) 0 33 != 0)

/-! ### Routing (R385) -/

/-- The mesh with every link as up: R385 asks of a plan's tables which routers are up, not which links. -/
def State.upMesh (s : State) : Mesh := { s.mesh with downLinks := [] }

/-- A PRIMARY port leads somewhere: no route, a port that the router has, and no router that is down behind it (R357, R385). -/
def State.portOk (s : State) (n port : Nat) : Bool :=
  if port < 4 then (s.upMesh.step n port).isSome
  else if port = 4 ∨ port = 7 then true
  else (upFrom 0 numStations).any (fun k => (attachLinks k).contains (n, port))

/-- The walk along ESCAPE ports from router n ends at d. -/
def escapeWalk (r : Routing) (step : Nat → Nat → Option Nat) : Nat → Nat → Nat → Bool
  | 0, _, _ => false
  | f + 1, n, d =>
    let p := hopEscape (r.hop n d)
    if n = d then p = 4
    else
      match if p < 4 then step n p else none with
      | none => false
      | some k => escapeWalk r step f k d

/-- The mesh links that ESCAPE entries between up routers use, as pairs with the lower router first. -/
def escapeEdges (r : Routing) (step : Nat → Nat → Option Nat) (ups : List Nat) : List (Nat × Nat) :=
  (ups.flatMap (fun n => (ups.filter (fun d => d != n)).filterMap (fun d =>
    (step n (hopEscape (r.hop n d))).map (fun k => (min n k, max n k))))).eraseDups

/-- The ESCAPE entries form one spanning tree over the up routers. -/
def State.escapeTree (s : State) (r : Routing) : Bool :=
  let m := s.upMesh
  let ups := (upFrom 0 numCores).filter m.routerUp
  let step (n p : Nat) : Option Nat := if p < 4 then m.step n p else none
  decide ((escapeEdges r step ups).length + 1 = ups.length)
    && ups.all (fun n => ups.all (fun d => escapeWalk r step numCores n d))

/-- Targets of the plan in use: stacks that hold regions, and port groups that chains or peers name. -/
def State.targetsUsed (s : State) (p : Plan) : List Nat :=
  ((p.regions.map (fun (r : Region) => r.stack)) ++ (p.chains.map (fun c => 44 + (chainEntryOf c).group))
    ++ ((s.net.peers.filter (fun (q : PeerSt) => q.present && q.active)).map (fun (q : PeerSt) => 44 + q.localGroup))).eraseDups

/-- PRIMARY ports lead from a router to another over links and routers that are up (R385). -/
def Routing.leads (r : Routing) (m : Mesh) : Nat → Nat → Nat → Bool
  | 0, _, _ => false
  | f + 1, n, d =>
    if n = d then m.routerUp n
    else match m.step n (hopPrimary (r.hop n d)) with
      | some k => Routing.leads r m f k d
      | none => false

/-- An entry of a target or station table names a station's attachment router whose link is up. -/
def attachOk (m : Mesh) (w : Nat) : Bool := targetEntry w < numStations && (m.attached (targetEntry w)).contains (targetAttach w)

/-- ROUTING (R385). -/
def State.routingBad (s : State) (p : Plan) : Bool :=
  let r := p.routing
  let m := s.mesh
  let phys := p.legend.map (fun x => field x 0 11)
  let ring (a b : Nat) : Bool := (neatDist s.segmentDown a b).isSome
  let target (n k : Nat) : Bool :=
    let w := Tab.get noTarget r.target (48 * n + k)
    attachOk m w && ring (targetEntry w) (targetStation k) && r.leads m numCores n (targetAttach w)
  let station (k n : Nat) : Bool :=
    let w := Tab.get noTarget r.station (1344 * k + n)
    attachOk m w && ring k (targetEntry w) && r.leads m numCores (targetAttach w) n
  r.nextHop.any (fun x => field x.2 0 2 != 0) || r.target.any (fun x => field x.2 16 16 != 0)
    || r.station.any (fun x => field x.2 16 16 != 0)
    || ((upFrom 0 numCores).filter s.mesh.routerUp).any (fun n => (upFrom 0 numCores).any (fun d =>
        !s.portOk n (hopPrimary (r.hop n d))))
    || !s.escapeTree r
    || phys.any (fun a => phys.any (fun c => !r.leads m numCores a c))
    || phys.any (fun a => (s.targetsUsed p).any (fun k => !target a k || !station (targetStation k) a))

/-! ### Variants (R207) -/

/-- The rungs above `f` that a layer can reach, up to its cap (R204). -/
def rungsAbove (cap : Nat) : Nat → Nat → List Nat
  | 0, _ => []
  | n + 1, f =>
    match nextRung f with
    | none => []
    | some g => if rungLevel g > rungLevel cap then [] else g :: rungsAbove cap n g

/-- Weight tiles of a forward copy in another form that hold rows of a tile in the layer's own (R113): tile (i, j) of r rows of tiles
becomes the tiles of its rows. -/
def rungTiles (r : SchedLayer) (f g n : Nat) : List Nat :=
  let nc := max 1 (ceilDiv r.cols 128)
  (upFrom 0 (ceilDiv r.rows (kT g))).filterMap (fun i =>
    if kT f * (n / nc) < kT g * (i + 1) && kT g * i < kT f * (n / nc + 1) then some (nc * i + n % nc) else none)

/-- The forward copy of a layer has no room for form `g` where a tile of it that the module would hold has no place (R207). -/
def PlanLayer.tilesShort (l : PlanLayer) (r : SchedLayer) (g : Nat) : Bool :=
  let held := (l.placements.filter (fun x => x.part = 0)).flatMap (fun x => upFrom x.first x.count)
  (held.filter (fun n => n < ceilDiv r.rows (kT l.rung) * ceilDiv r.cols 128)).any (fun n =>
    (rungTiles r l.rung g n).any (fun k => !held.contains k))

/-- Bytes of the largest item of a part in form `g`: a weight tile image, or a backward tile (R323, R324). -/
def itemBytes (part g : Nat) : Nat :=
  if part = 0 then 128 * columnBytes g else if part = 1 then 128 * (if g = fBF16 then 256 else 132) else 0

/-- VARIANT (R207): a reachable rung without a program variant that fits the activation store, or a copy without room for it. -/
def State.variantBad (s : State) (l : PlanLayer) : Bool :=
  let rs := if l.promote && s.fmt.promoteEnable = 1 then rungsAbove l.rungCap 3 l.rung else []
  rs.any (fun f => !l.variants.any (fun v => v.rung = f) || l.variants.any (fun v => v.rung = f && v.act > actBytes)
    || (match s.schedLayer l.layer with | some r => l.tilesShort r f | none => false)
    || l.placements.any (fun x => x.part < 2 && x.count != 0
        && (64 * x.stride < itemBytes x.part f
            || (match s.regions[x.region]? with | some r => r.bytes < x.size f | none => false))))

/-! ### The check of an image (R403 steps 1 to 3, R404) -/

/-- The plan, or the first detail of R404 that applies. `bad`: cores that no plan may map. -/
def State.checkImage (s : State) (bad : Nat → Bool) (b : List Byte) (length : Nat) : Nat ⊕ Plan :=
  let h := planHeader b
  if headerBad b length then .inl dtHEADER
  else if h.waferSerial != waferSerial then .inl dtWAFER
  else if sectionsBad b length then .inl dtSECTION
  else if planDigest b != slice b 0x40 32 then .inl dtDIGEST
  else
    match planOf b with
    | none => .inl dtSECTION
    | some p =>
      if contentsBad b p then .inl dtSECTION
      else if s.coreCountBad b p then .inl dtCORE_COUNT
      else if p.seqBad then .inl dtSEQ_LIMIT
      else if p.scheduleBad then .inl dtSCHEDULE
      else
        match s.legendDetail bad p with
        | some d => .inl d
        | none =>
          if s.hbmBad b p then .inl dtHBM_REGION
          else if p.streamBad then .inl dtSTREAM_DESC
          else if s.routingBad p then .inl dtROUTING
          else if p.layers.any (fun l => { s with job := { s.job with plan := some p } }.variantBad l) then .inl dtVARIANT
          else .inr p

end Machine

end Sys2Proof
end

