-- ==== Sys2Proof/Machine/JobCtl.lean ====
section
/-!
DEFINITION. What job control does on a write of its entries: plan load (R401 to R404, R514, R526, R671) and unload (R424), step inputs
(R418, R419, R521), job start (R430, R630), abort (R607), checkpoints (R531 to R534) and spares (R529). Each operation answers the status
that the write completes with.
-/

namespace Sys2Proof.Machine

/-- What a write of an entry leaves, and its status. -/
abbrev Wrote := State × Status

/-- The entries of job control cannot be reached in STARTING and in Datum mode (R621). -/
def State.closed (s : State) : Option Status :=
  if s.job.jobState = jsSTARTING then some .notReady else if s.job.jobState = jsDATUM then some .datum else none

/-- A write that R621 does not turn away. -/
def State.opened (s : State) (f : State → Wrote) : Wrote :=
  match s.closed with
  | some st => (s, st)
  | none => f s

/-- A CMD action that completes at once. -/
def State.acted (s : State) (index sub : Nat) : Wrote := (s.actionDone index sub 0, .ok)

/-! ### Plan load (R403) -/

/-- The load that runs ends with a status: PLAN_STATUS, the action of PLAN_LOAD or SPARE_ADOPT (R424, R529). -/
def State.endLoad (s : State) (status : Status) (detail : Nat) : State :=
  let s := { s with job := { s.job with loading := none, planStatus := status.code, planDetail := detail } }
  let fin (t : State) (i : Nat) : State := if (t.action i 1).busy then t.actionEnd i 1 status.code else t
  fin (fin s 0x2010) 0x2015

/-- A FENCED core that returns to UNUSED at a plan load: it is in no list that keeps it fenced (R47, R514). -/
def State.returns (s : State) (n : Nat) : Bool :=
  s.coreStateOf n = .fenced && !s.wafer.fieldDefects.contains n && !s.wafer.cycleFenced.contains n

/-- Steps 1 to 3 of R403 on the image in a stack; a refusal leaves no plan. An image with a line that cannot be read fails the check of its
digest (R311, R399; notes/assumptions/18.md). -/
def State.checkLoad (s : State) (l : Loading) : State :=
  let x := s.readHbm l.stack l.address l.length .firmware
  match x.2 with
  | none => x.1.endLoad .planInvalid dtDIGEST
  | some b =>
    match s.checkImage (fun n => s.badCore n && !(s.returns n && !s.wafer.dark.contains (sheetOf n))) b l.length with
    | .inl d => x.1.endLoad .planInvalid d
    | .inr p => { x.1 with job := { x.1.job with loading := some { l with plan := some p } } }

/-- A load begins; below Run the module first rises to Run (R671). -/
def State.beginLoad (s : State) (l : Loading) : State :=
  if s.power.powerState = 0 then s.checkLoad l
  else { s with job := { s.job with loading := some l }, power := { s.power with target := some (s.power.target.getD 0) } }.ascend

/-- The image lies in the plan space of a stack. -/
def imageFits (stack address length : Nat) : Bool :=
  stack < numStacks && length != 0 && address + length ≤ planSpace

/-- A write of PLAN_LOAD (R401, R623). -/
def State.opPlanLoad (s : State) (stack address length : Nat) : Wrote :=
  s.opened (fun s =>
    if (s.action 0x2010 1).busy || s.job.loading.isSome then (s, .busy)
    else if s.job.plan.isSome then (s, .jobLoaded)
    else if !imageFits stack address length then (s, .valueRange)
    else ((s.actionStart 0x2010 1).beginLoad ⟨stack, address, length, none⟩, .ok))

/-- Legend and core states of a plan, derived from the survey, the field-defect list and the plan, with r reserves on every sheet that is
not dark (R44, R45, R49, R50). -/
def State.writeLegend (s : State) (p : Plan) : State :=
  let logical := p.legend.map (fun x => (field x 0 11, 0))
  let bad := s.defects
  let base := (upFrom 0 numCores).map (fun n => (n,
    if bad.contains n then CoreState.defective
    else if s.coreStateOf n = .fenced && !s.returns n then CoreState.fenced else CoreState.unused))
  let mapped := logical.foldl (fun t x => Tab.set t x.1 CoreState.mapped) base
  let reserves (t : Tab CoreState) (sheet : Nat) : Tab CoreState :=
    (((reserveOrder sheet).filter (fun n => Tab.get CoreState.unused t n = .unused)).take s.wafer.reserve).foldl
      (fun t n => Tab.set t n .reserve) t
  let table := ((upFrom 0 numSheets).filter (fun k => !s.wafer.dark.contains k)).foldl reserves mapped
  { s with wafer := { s.wafer with logical := logical, coreState := table } }

/-- Bytes of an image that lie in a region of the plan are undefined after the load (R402). -/
def State.freeImage (s : State) (l : Loading) (rs : List Region) : State :=
  rs.foldl (fun t r =>
    let a := max l.address r.start
    let e := min (l.address + l.length) (r.start + r.bytes)
    if r.stack != l.stack || e ≤ a then t
    else
      let f := t.fresh
      f.2.writeStack l.stack a (leBytes f.1 (e - a))) s

/-- The SCHEDULE region takes the schedule table (R319, R485). -/
def State.writeSchedule (s : State) (p : Plan) : State :=
  (p.regions.filter (fun r => r.kind = 8)).foldl (fun t r => t.writeStack r.stack r.start (p.schedule.take r.bytes)) s

/-- A core at a plan load: its counts and program state as after a reset, its memories as they stand (R209, R246, R749). -/
def CoreSt.atLoad (c : CoreSt) : CoreSt := { CoreSt.reset with act := c.act, sbuf := c.sbuf, acc := c.acc, accErr := c.accErr, sramErr := c.sramErr }

/-- A stack controller at a plan load. -/
def StackSt.atLoad (x : StackSt) : StackSt :=
  { x with fetches := x.fetches.map (fun f => { f with consumers := f.consumers.filter (fun c => c = .host || c = .scrub) })
           merges := x.merges.filter (fun m => m.who = .host), reads := [], counters := [], units := [], held := [], released := [], keep := [], gathered := [],
           counts := .zero }

/-- Entries whose scope is PLAN return to their defaults (R624, R626, R749). -/
def State.clearPlanScope (s : State) : State :=
  let j := s.job
  let h := s.halyard
  let p := s.plotter
  let g := s.gaz
  { s with
    cores := s.cores.map (fun x => (x.1, x.2.atLoad))
    hbm := s.hbm.map (fun x => (x.1, x.2.atLoad))
    flight := .reset
    fabric := { s.fabric with counts := [], tablesFixed := 0 }
    job := { j with stopStatus := 0, stopEvent := 0, rec0 := .free, rec1 := .free, calibrating := false,
                    calibrated := false, replayed := false, release := .none, resync := 0, abandoned := 0, replays := 0, realigns := 0,
                    classB := 0, classC := 0, sramCorrected := 0, reading := 0, started := false, switched := [] }
    halyard := { h with sums := [], forwarded := [], noOwn := [], ownForwarded := [], counts := [], forwardedAt := [],
                        lastForwarded := [], copyFloor := 0, forwardedDown := [], written := [], copyForm := [], formSince := [],
                        takenOver := [] }
    plotter := { p with hand := [], firstSum := [], ready := [], running := [], counts := [], role := [], rung := [], alarms := [],
                        lastAlarms := [], mirrorGap := [], refresh := [] }
    net := { s.net with gathers := [], held := [], counts := [], backlog := [], peers := s.net.peers.filter (fun q => q.module != destModule) }
    gaz := { g with overruns := 0, blocks := [], stepSeq := 0, intSeq := 0, msgs := [], sweep := none, missed := 0, account := .zero,
                    lastTally := [] }
    power := { s.power with thermalFences := 0, powerPeak := 0, droops := [] } }

/-- Every peer starts anew at a plan load (R564, R576). -/
def State.restartPeers (s : State) : State :=
  let t := s.micros
  { s with net := { s.net with beatsOn := true, beatAt := t, peers := s.net.peers.map (fun q =>
      { q.restart (s.ifaceRate q.localGroup) t with lost := false, cause := none, contact := false, lastBeat := t, readings := [] }) } }

/-- Layers that the plan gives this module as owner or mirror owner (R468). -/
def Plan.roles (p : Plan) : Tab Nat :=
  p.layers.foldl (fun t l =>
    if l.owner = p.hdr.moduleId then Tab.set t l.layer 1 else if l.mirror = p.hdr.moduleId then Tab.set t l.layer 2 else t) []

/-- Before any update, the copies of a newly loaded job hold the state of FIRST_STEP − 1, and so do its code records unless a calibration
pass is to make them (R430, R432). -/
def State.freshCopies (s : State) (p : Plan) : State :=
  p.layers.foldl (fun t l => (t.copyStacks l).foldl (fun u k =>
    let h := u.halyard
    { u with halyard := { h with copyStep := Tab.set h.copyStep (64 * l.layer + k) p.hdr.firstStep
                                 codeStep := if h.calibrate = 1 then h.codeStep
                                   else Tab.set h.codeStep (64 * l.layer + k) p.hdr.firstStep } }) t) s

/-- The plan contributes to no chain (R529's spare). -/
def Plan.spare (p : Plan) : Bool := p.halyard.all (fun x => x.2 = 0)

/-- Steps 4 to 8 of R403; a module that takes its former place sends JOIN (R526). -/
def State.applyPlan (s : State) (l : Loading) (p : Plan) : State :=
  let again : Bool := s.job.lastJob = some (p.hdr.jobId, p.hdr.moduleId)
  let s := (s.clearPlanScope.freeImage l p.regions).writeSchedule p
  let s := s.writeLegend p
  let s := (upFrom 0 s.planCores).foldl (fun (t : State) n => t.updCore (t.phys n) (p.imageCore n)) s
  let s := ({ s with fabric := { s.fabric with routing := p.routing, tableErr := [] } }.measure).nextEpoch
  let s := { s with job := { s.job with plan := some p, jobState := jsLOADED, role := if p.spare then 2 else 1, next := p.hdr.firstStep,
                                        rejoin := again, lastJob := some (p.hdr.jobId, p.hdr.moduleId) }
                    fmt := { s.fmt with jobSeed := p.seed.getD s.fmt.jobSeed }
                    plotter := { s.plotter with role := p.roles } }
  let s := ((s.loadCounters).initScales).restartPeers
  let s := State.recoverJournals { s with job := { s.job with ownerPlaces := s.heldPlaces } } s.heldPlaces
  let s := s.testPorts
  let s := if again then s.controlAll subJOIN 0 0 0 else { s with halyard := { s.halyard with copyStep := [], codeStep := [] } }.freshCopies p
  (s.endLoad .ok 0).info "PLAN_LOADED" [p.hdr.jobId, p.hdr.moduleId]

/-- A write of PLAN_UNLOAD (R424, R609). -/
def State.opPlanUnload (s : State) : Wrote :=
  s.opened (fun s =>
    if s.job.plan.isNone then (s, .noJob)
    else if s.running.isSome then (s, .jobLoaded)
    else (s.unloadPlan 0).acted 0x2010 4)

/-! ### Inputs, start and abort -/

/-- Bytes of an input slot. -/
def State.inputSize (s : State) (step : Nat) : Nat :=
  match s.job.plan with
  | some p => (match p.inputSlot step with | some x => x.2.2 | none => 0)
  | none => 0

/-- The steps whose inputs can be posted: the next one, and the one after it when the next one's inputs are posted and wait for the start;
never more (R419). -/
def State.postable (s : State) (step : Nat) : Bool :=
  let r := s.record s.job.next
  step = s.job.next || (step = s.job.next + 1 && r.step = s.job.next && r.st = .input)

/-- A write of STEP_INPUT (R418, R419, R521); a COMPLETE record in the step's slot makes room. -/
def State.opStepInput (s : State) (step tokens bytes : Nat) : Wrote :=
  s.opened (fun s =>
    let r := s.record step
    if !s.inJob then (s, .noJob)
    else if s.job.resync != 0 && step != s.job.resync then (s, .slotBusy)
    else if r.st = .input || r.st = .running then (s, .slotBusy)
    else if !s.postable step || bytes > s.inputSize step then (s, .valueRange)
    else (s.setRec step { StepRec.free with step := step, st := .input, tokens := tokens % 2 ^ 40, inputBytes := bytes }).acted 0x2012 1)

/-- A write of JOB_START (R331, R526, R630). -/
def State.opJobStart (s : State) : Wrote :=
  s.opened (fun s =>
    if s.job.jobState = jsNO_PLAN then (s, .noJob)
    else if s.job.jobState != jsLOADED then (s, .jobLoaded)
    else
      let s := { s.updCores s.mapped (fun _ c => c.blankPlot) with job := { s.job with jobState := jsRUNNING } }
      let s := if s.job.rejoin then s.realign none s.job.next (max (s.peerStep + 1) s.job.next) else s.loadCounters
      s.acted 0x2000 2)

/-- A write of JOB_ABORT (R607, R631). -/
def State.opJobAbort (s : State) : Wrote :=
  s.opened (fun s =>
    if s.inJob then (s.stopJob Status.aborted.code "JOB_ABORTED" clsINFO).acted 0x2000 5
    else if s.job.loading.isSome then (s.endLoad .aborted 0).acted 0x2000 5
    else if s.job.jobState = jsQUIESCED then (s.actionEnd 0x2000 5 0, .ok)
    else (s.actionEnd 0x2000 5 Status.noJob.code, .noJob))

/-! ### Checkpoints (R531 to R534) -/

/-- The scale tables of step s + 1, where its record holds it as RUNNING or COMPLETE (R533). -/
def State.scalesOfNext (s : State) (step : Nat) : Option (List Byte) :=
  let r := s.record (step + 1)
  if r.step = step + 1 && (r.st = .running || r.st = .complete) then some (scalesBytes r.scales) else none

/-- A write of CHECKPOINT_ARM (R531, R533). -/
def State.opCheckpointArm (s : State) (step : Nat) (dest : List Byte) (port : Nat) : Wrote :=
  s.opened (fun s =>
    if !s.inJob then (s, .noJob)
    else if s.job.ckpt.st = 2 then (s, .checkpointBusy)
    else if dest.length != 16 || port ≥ 65536 then (s, .valueRange)
    else if s.ownedLayers.any (fun l => (s.stepTag l).getD 0 > step) then (s, .checkpointLate)
    else if s.job.next ≥ step + 2 && s.job.started && (s.scalesOfNext step).isNone then (s, .checkpointLate)
    else
      let k := s.job.ckpt
      let s := { s with job := { s.job with ckpt := { CkptSt.idle with st := 1, step := step, dest := dest, port := port,
                                                                       scales := s.scalesOfNext step, lastSeq := k.lastSeq } } }
      (s.setDest dest).acted 0x2014 1)

/-- A write of CHECKPOINT_SEAL (R534). -/
def State.opCheckpointSeal (s : State) : Wrote :=
  s.opened (fun s =>
    if !s.inJob then (s, .noJob)
    else if s.job.ckpt.st = 2 then (s, .checkpointBusy)
    else if s.job.ckpt.st = 0 then (s, .noEntry)
    else
      let s := s.copyAllDue
      let k := s.job.ckpt
      let left := s.ownedLayers.filter (fun l => !s.copyDue l && !k.copied.any (fun c => c.layer = l))
      let s := { s with job := { s.job with ckpt := { k with st := 2, skipped := left.length } } }
      s.startDrain.acted 0x2014 2)

/-! ### Spares (R529) -/

/-- A write of SPARE_ADOPT; a module that is no spare does not adopt. -/
def State.opSpareAdopt (s : State) (module stack address length : Nat) : Wrote :=
  s.opened (fun s =>
    if (s.action 0x2015 1).busy || s.job.loading.isSome then (s, .busy)
    else
      match s.job.plan with
      | none => (s, .noJob)
      | some p =>
        if module ≥ 2 ^ 14 || !imageFits stack address length then (s, .valueRange)
        else if !s.isLost module then (s, .notLost)
        else if s.job.role != 2 then (s, .jobLoaded)
        else
          let s := (s.unloadPlan 0).actionStart 0x2015 1
          ({ s with job := { s.job with lastJob := some (p.hdr.jobId, module) } }.beginLoad ⟨stack, address, length, none⟩, .ok))

end Sys2Proof.Machine
end

