-- ==== Sys2Proof/Machine/Power.lean ====
section
/-!
DEFINITION. Commands of the power system (chapter 16): feeds, converters, regulators, tie switches, governors, monitors and the power
ladder.
-/

namespace Sys2Proof.Machine

/-! ### Feeds -/

/-- FEED_STATE_CHANGE (R641 to R644): a feed's voltage has stood at `mv` mV for 10 µs; a feed over range is disconnected. -/
def execFeedStateChange (feed : Feed) (mv : Nat) (s : State) : Res :=
  let x := s.power.feed feed
  let st := x.st.after mv
  done (s.feedTo feed { x with st := st, since := if st = x.st then x.since else s.micros, mv := mv, opened := x.opened || st = .overRange })

/-- FEED_RECONNECT (R642): the feed has been in range for 100 ms. -/
def execFeedReconnect (feed : Feed) (s : State) : Res :=
  let x := s.power.feed feed
  if x.st != .inRange || !x.opened then .next s else done ((s.until (x.since + 100000)).feedTo feed { x with opened := false })

/-- FEED_PRES_N_RISE (R780). -/
def execFeedPresNRise (feed : Feed) (s : State) : Res :=
  let x := s.power.feed feed
  if !x.pres then .next s else done (s.feedTo feed { x with pres := false })

/-- FEED_PRES_N_FALL (R780): the contact has been low for 10 ms; a feed disconnected for over range stays so (R642). -/
def execFeedPresNFall (feed : Feed) (s : State) : Res :=
  let x := s.power.feed feed
  if x.pres then .next s else done (s.feedTo feed { x with pres := true })

/-- POWER_FAIL (R644). -/
def execPowerFail (s : State) : Res :=
  if s.power.supplied || s.power.busLow || !s.power.cartouche then .next s
  else
    let s := (s.info "POWER_FAIL" []).waferOff
    done { s with power := { s.power with busLow := true } }

/-- CARTOUCHE_HOLDUP_END (R644): the Cartouche stops, and with it the host link and the field network; an NV pulse has completed on the holdup
(R692). -/
def execCartoucheHoldupEnd (s : State) : Res :=
  if !s.power.busLow || s.power.supplied then .next s
  else done { s with power := { s.power with cartouche := false }, host := { s.host with linkUp := false },
                     fieldNet := { s.fieldNet with plcaUp := false }, nv := .idle }

/-! ### Converters and regulators -/

/-- A stage-1 converter fails (R648, R649). -/
def State.convFails (s : State) (c : Nat) : State :=
  let s := { s with power := { s.power with convFailed := s.power.convFailed ++ [c] } }.regEvent "CONVERTER_FAILED" c []
  let k := c / 4
  if (s.power.convFailed.filter (fun x => x / 4 = k)).length = 2 then (s.sheetOff k).askC (.plane k) else s

/-- CONVERTER_FAILED. -/
def execConverterFailed (conv : Nat) (s : State) : Res :=
  if conv ≥ 224 then .fault .noSuchPlace
  else if s.power.convFailed.contains conv then .next s
  else done (s.convFails conv)

/-- RAIL_DEVIATION (R653): an output has been at `mv` mV for 10 µs. Outside ±3 % of its set point it is logged, and below 85 % it is a
failed regulator (R655). -/
def execRailDeviation (rail : RailSample) (s : State) : Res :=
  let reg := rail.reg
  let mv := rail.mv
  withReg reg
    (if regKind reg = 0 then .fault .noSuchPlace
     else if !s.railHeld reg then .next s
     else
       match s.railTarget reg with
       | none => done (s.regEvent "RAIL_DEVIATION" reg [mv])
       | some sp =>
         if withinThree mv sp then .next s
         else
           let t := s.regEvent "RAIL_DEVIATION" reg [mv]
           done (if lowOutput mv sp && s.regRuns reg then t.regFails reg (mv ≥ 400) else t))

/-- REG_PHASE_FAILED (R654). A phase beyond those that the regulator carries is a failed regulator (R509, R655). -/
def execRegPhaseFailed (phase : PhaseFail) (s : State) : Res :=
  let reg := phase.reg
  withReg reg
    (if regKind reg = 0 then .fault .noSuchPlace
     else if !s.regRuns reg || (s.reg reg).phasesFailed ≥ regPhases (regKind reg) then .next s
     else
       let n := (s.reg reg).phasesFailed + 1
       let t := (s.updReg reg (fun x => { x with phasesFailed := n })).regEvent "REG_PHASE_FAILED" reg [n]
       done (if n > regCarried (regKind reg) then t.regFails reg phase.railVoltageOk else t))

/-- REG_FAILED (R655 to R658, R662). -/
def execRegFailed (reg : Nat) (railVoltageOk : Bool) (s : State) : Res :=
  withReg reg
    (if regKind reg = 0 then .fault .noSuchPlace
     else if !s.regRuns reg then .next s
     else done (s.regFails reg railVoltageOk))

/-- REG_SHORT (R661, R662): isolation, ties of the region opened, and the failure of the regulator. -/
def execRegShort (reg : Nat) (railVoltageOk : Bool) (s : State) : Res :=
  withReg reg
    (if regKind reg = 0 then .fault .noSuchPlace
     else if (s.reg reg).isolated || s.power.regsOff.contains reg then .next s
     else
       let failed := (s.reg reg).failed
       let s := (s.updReg reg (fun x => { x with isolated := true })).regEvent "REG_SHORT" reg []
       let s := if regKind reg = 2 then (s.tiesOf (regIndex reg)).foldl State.dropTie s else s
       done (if failed then s else s.regFails reg railVoltageOk))

/-- FENCED_CORE_DRAIN (R659): the drain ends, the tie opens, both regulators turn off, and the core is FENCED: by the legend change of its batch
where that is still to come (R52; DEDUCED: notes/assumptions/27.md). -/
def execFencedCoreDrain (core : Nat) (s : State) : Res :=
  withCore core
    (if !s.power.drains.contains core then .next s
     else
       let p := s.power
       let s := { s with power := { p with drains := p.drains.filter (fun n => n != core), ties := p.ties.filter (fun n => n != core),
                                           drained := p.drained.filter (fun n => n != core) ++ [core] } }
       let s := (s.updCore core CoreSt.drainOut).regsTurnOff [regId 1 core, regId 2 core]
       let st := s.coreStateOf core
       done (if st = .fenced || st = .defective || s.faultWaits core then s else (s.setCoreState core .fenced).nextEpoch))

/-! ### Governors -/

/-- TURN_ON_REQUEST (R665). -/
def execTurnOnRequest (reg : Nat) (s : State) : Res :=
  withReg reg
    (if turnOnBudget (regKind reg) = 0 then .fault .noSuchPlace else done (s.requestTurnOn reg))

/-- TURN_ON_ADMITTED (R663, R664): the governor measures, and admits the turn-on that has waited longest if there is room. -/
def execTurnOnAdmitted (sheet present : Nat) (s : State) : Res :=
  withSheet sheet
    (let g := { s.governor sheet with present := present }
     match g.waiting with
     | t :: _ => done (s.setGovernor sheet
         (if g.room s.power.sheetLimit t.budget then g.begin s.micros (s.micros > t.since) false else g))
     | [] => done (s.setGovernor sheet g))

/-- TURN_ON_WAIT (R665): the turn-on that has waited longest proceeds at half slew once TURN_ON_WAIT has passed. -/
def execTurnOnWait (sheet : Nat) (s : State) : Res :=
  withSheet sheet
    (let g := s.governor sheet
     match g.waiting with
     | [] => .next s
     | t :: _ =>
       let s := s.until (t.since + 1000 * s.power.turnOnWait)
       done ((s.setGovernor sheet (g.begin s.micros true true)).count (blkGov sheet) evHALF_SLEW (2 ^ (regKind t.reg - 1)) 1 1))

/-- TURN_ON_RAMP_COMPLETE (R664): the rail is on, and its budget counts no more. -/
def execTurnOnRampComplete (reg : Nat) (s : State) : Res :=
  withReg reg
    (let k := regSheet reg
     let g := s.governor k
     match g.ramping.find? (fun t => t.reg = reg) with
     | none => .next s
     | some t =>
       let s := s.until (t.began + rampTime s.power.turnOnSlew t.half t.budget)
       let s := s.setGovernor k { g with ramping := g.ramping.filter (fun t => t.reg != reg) }
       done { s with power := { s.power with regsOff := s.power.regsOff.filter (fun r => r != reg) } })

/-! ### Monitors -/

/-- A thermal trip: a reset source, whose hold the start after the reset serves (R679, R685, R707). -/
def State.trip (s : State) : State :=
  { s with reset_ := { s.reset_ with tripped := true } }.askReset rcTHERMAL_TRIP .cold

/-- SENSOR_SAMPLE (R675 to R681): 100 µs after the last sample, every sensor of a powered sheet, and the coolant. A sensor at 125 °C turns the wafer off and is a
reset source (R679). -/
def execSensorSample (r : Sample) (s : State) : Res :=
  let cores := s.coreReadings r
  let sheets := s.sheetReadings r
  let rings := r.ringOsc.filter (fun x => x.1 < 448 && s.sheetOn (x.1 / 8))
  let all := s.readings r
  let s := s.until (s.power.sampleAt + 100)
  let s := { s with power := { s.power with sampleAt := s.micros } }.failSensors all
  let good := all.filter (fun x => !s.power.failedSensors.contains x.1)
  let p := s.power
  let s := { s with power := { p with coreTemps := cores.foldl (fun (t : Tab Word32) (x : Nat × Word32) => Tab.set t x.1 x.2) p.coreTemps,
                                      sheetTemps := sheets.foldl (fun (t : Tab Word32) (x : Nat × Word32) => Tab.set t x.1 x.2) p.sheetTemps,
                                      ringOsc := rings.foldl (fun (t : Tab Nat) (x : Nat × Nat) => Tab.set t x.1 x.2) p.ringOsc } }
  let s := s.coolant r.inlet r.outlet
  if good.any (fun x => atLeast 125 x.2) then done (s.waferOff.trip)
  else
    let s := (good.filter (fun x => x.1 < 65536)).foldl (fun t x => t.coreHeat x.1 x.2) s
    let hot := (good.filter (fun x => atLeast 110 x.2)).map (fun x => x.1)
    done ((upFrom 0 numSheets).foldl (fun t k => t.sheetHeat hot k) s)

/-- DROOP_EXCURSION (R676). -/
def execDroopExcursion (core : Nat) (s : State) : Res :=
  withCore core
    (if !s.railHeld (regId 1 core) then .next s
     else done ({ s with power := { s.power with droops := Tab.upd 0 s.power.droops core (satAdd32 · 1) } }.count (blkGov (sheetOf core)) evDROOPS 0 1 1))

/-! ### The power ladder (R667 to R674) -/

/-- A write of POWER_REQUEST (R669, R670). -/
def State.opPowerRequest (s : State) (target : Nat) : Wrote :=
  s.opened (fun s =>
    if target > 4 then (s, .valueRange)
    else if s.power.target.isSome then (s, .busy)
    else if target != 0 && s.job.jobState != jsNO_PLAN then (s, .jobLoaded)
    else if target != 0 && s.job.loading.isSome then (s, .busy)
    else if target = s.power.powerState then s.acted 0x3000 2
    else
      let s := s.actionStart 0x3000 2
      ({ s with power := { s.power with target := some target } }.ascend, .ok))

/-- POWER_REQUEST. -/
def execPowerRequest (target : Nat) (s : State) : Res := done (s.opPowerRequest target).1

/-- What entering a lower state loses (R303, R660, R667, R668). -/
def State.enterLower (s : State) (n : Nat) : State :=
  let s := { s with power := { s.power with ties := [], powerState := n } }
  if n = 2 then s.idlePorts
  else if n = 3 then s.memoriesLost
  else if n = 4 then s.hbmLost
  else s

/-- What entering a higher state brings: in Run the routing over the up routers stands again and the ports train (R674). -/
def State.enterHigher (s : State) (n : Nat) : State :=
  let s := { s with power := { s.power with powerState := n } }
  if n != 0 then s
  else
    let s := if s.fabric.routing = .empty then
        { s with fabric := { s.fabric with routing := s.mesh.routing s.segmentDown s.fabric.neatPenalty } } else s
    (upFrom 0 32).foldl (fun t p => t.trainPort p) s

/-- The target is reached: the request completes, and a plan load that has waited for Run begins (R670, R671). -/
def State.reached (s : State) : State :=
  let s := { s with power := { s.power with target := none } }
  let s := if (s.action 0x3000 2).busy then s.actionEnd 0x3000 2 0 else s
  match s.job.loading with
  | some l =>
    if s.power.powerState = 0 then (if l.plan.isNone then s.checkLoad l else s)
    else { s with power := { s.power with target := some 0 } }.ascend
  | none => s

/-- POWER_TRANSITION_COMPLETE (R670, R674): the next state in order; on the way up, once every rail that it needs has turned on. -/
def execPowerTransitionComplete (s : State) : Res :=
  match s.power.target with
  | none => .next s
  | some t =>
    let p := s.power.powerState
    if t < p && !s.power.settled then .next s
    else
      let s := if t > p then s.enterLower (p + 1) else if t < p then s.enterHigher (p - 1) else s
      done (if s.power.powerState = t then s.reached else s.ascend)

end Sys2Proof.Machine
end

