-- ==== Sys2Proof/Machine/ResetCtl.lean ====
section
/-!
DEFINITION. What a reset of each scope clears and keeps (R303, R525, R624, R682 to R692), and the release steps of a start (R693 to R711,
R723 to R726).
-/

namespace Sys2Proof.Machine

/-! ### Cold and Warm resets -/

/-- A Warm reset keeps HBM in self-refresh, its write-back history and its cells; requests not started are dropped (R682, R684). -/
def StackSt.warm (x : StackSt) : StackSt := { StackSt.reset with mem := x.mem, bad := x.bad, stuck := x.stuck, badLines := x.badLines }

/-- Stacks after a reset: under a Warm reset their contents are kept, unless HBM was off (R303). -/
def State.stacksAfter (s : State) (warm : Bool) : Tab StackSt :=
  s.hbm.map (fun x => (x.1, if warm then x.2.warm else x.2.lost))

/-- Power after a reset: settings in the NV store, feeds and coolant readings are kept, and under a Warm reset stage-1 converters and stack
regions stay on (R682). -/
def PowerSt.restart (p : PowerSt) (warm : Bool) : PowerSt :=
  { PowerSt.reset with railsUp := if warm then p.railsUp.filter (fun k => k = 0 || k = 4) else [], feedA := p.feedA, feedB := p.feedB, busLow := p.busLow, cartouche := p.cartouche,
                       sheetLimit := p.sheetLimit, turnOnSlew := p.turnOnSlew, turnOnWait := p.turnOnWait,
                       inlet := p.inlet, outlet := p.outlet }

/-- Firmware state after a reset: slots, the delivery, fuses, keys and what the NV store holds are kept. -/
def FwSt.restart (f : FwSt) : FwSt :=
  { f with pushed := none, push := .empty, allowance := 0, allowanceAt := 0, confirmRemaining := 0,
           confirmAt := 0, report := [], pendingReport := none, reportSeq := 0 }

/-- The field network after a reset (R627): kept are the entries in the NV store, and the kept responses, so that a reset command whose request
comes again is answered and not repeated (R604, R635). -/
def FieldSt.restart (f : FieldSt) : FieldSt :=
  { FieldSt.reset with plcaToTimer := f.plcaToTimer, notifyAddr := f.notifyAddr, presenceInterval := f.presenceInterval,
                         kept := f.kept }

/-- The event log after a reset: SEQ and LOG_OVERWRITTEN count since the start, the ring stays with the HBM contents, and the NV ring always
(R541, R542, R682). -/
def LogSt.restart (l : LogSt) (warm : Bool) : LogSt := { (if warm then l else l.empty) with seq := 0, overwritten := 0 }

/-- The state that a reset of Cold or Warm scope leaves (R524, R624, R682, R685, R690); the start's first release step comes next. -/
def State.restart (s : State) (code : Nat) (warm : Bool) : State :=
  let r := s.reset_
  { State.reset with
    wafer := { WaferSt.reset with flash0 := s.wafer.flash0, flash1 := s.wafer.flash1,
                                  cycleFenced := if warm then s.wafer.cycleFenced else [] }
    hbm := s.stacksAfter warm
    job := { JobSt.reset with lastJob := s.job.lastJob, slots := s.job.slots, ownerPlaces := if warm then s.job.ownerPlaces else [] }
    net := { NetSt.reset with cable := s.net.cable }
    fieldNet := s.fieldNet.restart
    power := s.power.restart warm
    reset_ := { ResetSt.reset with cause := code, scope := if warm then .warm else .cold,
                                   committed := warm && r.committed, shadows := if warm && r.committed then r.shadows else .empty, failedStarts := r.failedStarts,
                                   thermalHold := r.thermalHold || r.tripped || decide (code = rcTHERMAL_TRIP) }
    fw := s.fw.restart
    log := s.log.restart warm
    host := { HostSt.reset with evtNext := s.log.first + s.log.ring.length }
    freshCount := s.freshCount
    out := s.out
    pending := s.pending }

/-- The pending reset asserts (R685 to R687); in Vigil, Warm acts as Cold (R684). A checkpoint ends (R539). -/
def State.assertReset (s : State) : State :=
  match s.reset_.pending with
  | none => s
  | some p =>
    let warm : Bool := p.2 = .warm && s.power.powerState != 4
    ((s.restart p.1 warm).noteAborted s.job.ckpt).event "RESET" clsRESET srcModule 0 [p.1]

/-! ### Start: boot chain (R704, R709, R723 to R726) -/

/-- A start that has failed stands still until a reset (R705). -/
def State.failStart (s : State) : State := { s with reset_ := { s.reset_ with startFailed := true } }

/-- The stored header and manifest are verified again (R732); a header that fails is logged (R719). -/
def State.reverify (s : State) : State :=
  let f := s.fw
  let d := f.staging
  let n := if d.hasAll 0 2 then f.headerCheck d.header else 0
  let s := { s with fw := f.reverify }
  if n = 0 then s else s.info "BUNDLE_REJECTED" [n]

/-- Datum mode: the Cartouche alone runs, from boot ROM (R708, R716). -/
def State.enterDatum (s : State) : State :=
  let s := s.waferOff.reverify
  { s with job := { s.job with jobState := jsDATUM }, host := { s.host with linkUp := true }
           reset_ := { s.reset_ with datum := true }, fw := { s.fw with image := ImgSlot.none } }

/-- A wait of the start that R706 excludes ends. -/
def ResetSt.waited (r : ResetSt) (now : Nat) : ResetSt :=
  { r with waitFrom := none, excluded := r.excluded + (now - r.waitFrom.getD now) }

/-- The start of release step 2: the failed-start check (R704, R709) and the fallback of R725. The write of FAILED_STARTS is an NV
pulse (R691). With BOOT_SRC 0b01 the host link comes up for the push through the mailbox (R726). -/
def State.beginBoot (s : State) : State :=
  let r := s.reset_
  if r.bootSrc = 3 then s.enterDatum
  else if r.failedStarts ≥ 3 then s.enterDatum
  else
    let s := { s with reset_ := { r with failedStarts := r.failedStarts + 1, awaitPush := r.bootSrc != 0,
                                         waitFrom := if r.bootSrc != 0 then some s.micros else none }
                      host := { s.host with linkUp := decide (r.bootSrc = 1) } }.nvBegin s.nvImage
    if r.bootSrc = 0 && r.failedStarts != 0 && (s.fw.find .unconfirmed).isSome then
      (s.setFw s.fw.fallback).info "FW_FALLBACK" []
    else s

/-- Fuses owed by the active confirmed image are blown (R738). -/
def FwSt.blow (f : FwSt) (i : Nat) : FwSt :=
  let x := f.slot i
  if x.st = .confirmed then { f with rollback := max f.rollback x.rollback, revoked := f.revoked ||| x.revoke } else f

/-- Control is handed to the image in a slot (step 7 of R723). -/
def State.runSlot (s : State) (i : Nat) : State :=
  let f := s.fw.blow i
  { s with fw := { f with running := i, image := f.slot i } }

/-- The number of the failing check for an image that may no longer run: a revoked key, or a rollback value below the counter. -/
def FwSt.failedCheck (f : FwSt) (x : ImgSlot) : Nat := if bit f.revoked x.keySlot then 2 else 4

/-- An image of a slot fails at boot: its header no longer passes, or it reads back damaged (R719, R724). -/
def State.imageInvalid (s : State) (i : Nat) : State :=
  let x := s.fw.slot i
  (if s.fw.bootable x then s else s.info "BUNDLE_REJECTED" [s.fw.failedCheck x]).info "IMAGE_INVALID" [i]

/-- Steps 3 to 7 of R723 from flash: the active slot, else the previous one (R724); `bad` are the slots that read back damaged. -/
def State.bootFlash (s : State) (bad : List Nat) : State :=
  let f := s.fw
  match f.active with
  | none => s.failStart
  | some a =>
    if f.bootable (f.slot a) && !bad.contains a then s.runSlot a
    else
      let s := s.imageInvalid a
      match f.find .previous with
      | none => s.failStart
      | some p =>
        if !f.bootable (f.slot p) || bad.contains p then (s.imageInvalid p).failStart
        else if (f.slot a).st = .unconfirmed then (s.setFw s.fw.fallback).runSlot p
        else s.runSlot p

/-- Release step 2 completes: the image is selected and runs (R723, R726, R735). -/
def State.bootStep (s : State) (r : StepReport) : State :=
  let go (t : State) : State := { t with reset_ := { t.reset_ with releaseStep := 3, awaitPush := false } }
  if r.flashBad then s.failStart
  else if s.reset_.awaitPush then
    match s.fw.pushed with
    | none => s
    | some x => go ({ s with fw := { s.fw with image := x }, reset_ := s.reset_.waited s.micros } : State).reverify
  else
    let s := if s.reset_.scope = .cold then s.setFw s.fw.activate else s
    let s := s.reverify.bootFlash r.badImages
    if s.reset_.startFailed then s else go s

/-! ### Start: wafer -/

/-- A flash copy of the field-defect list reads back damaged, as a reset during its write leaves it (R48). -/
def DefectCopy.torn (c : DefectCopy) : DefectCopy := { c with crc := ~~~crc32 (defectBytes c.seq c.cores) }

def WaferSt.tornCopies (w : WaferSt) (l : List Nat) : WaferSt :=
  { w with flash0 := if l.contains 0 then w.flash0.torn else w.flash0, flash1 := if l.contains 1 then w.flash1.torn else w.flash1 }

/-- The shadow banks as the survey and the field-defect list give them (R698). -/
def State.loadedShadows (s : State) : Shadows :=
  { trims := surveyInfo.trims, rows := surveyInfo.rows, wires := surveyInfo.wires, defects := s.wafer.fieldDefects }

/-- Release step 3: the survey (R37, R793) and the shadows (R698 to R702): a Warm start keeps committed shadows whose banks pass.
SURVEY_SKIPPED of a survey that is not verified: DESIGN CHOICE, notes/assumptions/21.md. -/
def State.trimStep (s : State) (r : StepReport) : State :=
  let s := { s with wafer := s.wafer.tornCopies r.tornDefects }
  let s := { s with wafer := { s.wafer with surveyState := surveyCheck, surveySkipped := surveyInfo.skipped } }
  if r.flashBad || (!s.wafer.flash0.valid && !s.wafer.flash1.valid) then s.failStart
  else if surveyCheck = 1 then ((s.info "SURVEY_DIGEST_MISMATCH" []).waferOff).failStart
  else if surveyCheck = 2 then ((s.info "SURVEY_MALFORMED" []).waferOff).failStart
  else if s.reset_.committed && r.recheckFailed.isEmpty then { s with reset_ := { s.reset_ with releaseStep := 4 } }
  else if r.loadFailures.any (fun x => x.1 < 4 && 2 ≤ x.2) then
    let s := s.info "TRIM_CRC" []
    { s with reset_ := { s.reset_ with committed := false, shadows := .empty } }.failStart
  else { s with reset_ := { s.reset_ with committed := true, shadows := s.loadedShadows, releaseStep := 4 } }

/-- Regulators of these kinds turn on (R695). -/
def PowerSt.supply (p : PowerSt) (kinds : List Nat) : PowerSt :=
  { p with railsUp := p.railsUp ++ kinds.filter (fun k => !p.railsUp.contains k) }

/-- Release step 4: converters that fail; a sheet with two of them stays dark (R648, R649). -/
def State.converterStep (s : State) (r : StepReport) : State :=
  let s := { s with power := s.power.supply [0] }
  let bad := (r.badConverters.filter (fun c => c < 224)).eraseDups
  let s := bad.foldl (fun (t : State) c =>
    { t with power := { t.power with convFailed := t.power.convFailed ++ [c] } }.regEvent "CONVERTER_FAILED" c []) s
  let dark := (upFrom 0 numSheets).filter (fun k => (bad.filter (fun c => c / 4 = k)).length ≥ 2)
  let s := dark.foldl (fun t k => (t.sheetOff k).darken k) s
  { s with reset_ := { s.reset_ with releaseStep := 5 } }

/-- The links with the survey's spare-wire assignments, from the shadows (R373, R698, R699). -/
def State.wiredLinks (s : State) : Tab LinkSt :=
  (if s.reset_.committed then s.reset_.shadows.wires else []).foldl (fun (t : Tab LinkSt) x => Tab.upd .up t x.1 (fun l => { l with wires := l.wires ++ [x.2] })) []

/-- Self-test of every link direction (R373): each failed wire takes a spare, and link directions that fail are down. -/
def State.testLinks (s : State) (wires : List (Nat × Nat)) (bad : List Nat) : State :=
  let links := (wires.filter (fun x => linkExists x.1)).foldl
    (fun (t : Tab LinkSt) x => Tab.upd .up t x.1 (fun l => (l.steer x.2).getD { l with st := .down })) s.wiredLinks
  let s := { s with fabric := { s.fabric with links := links } }
  (bad.filter linkExists).foldl (fun t l => t.linkDown l) s

/-- Release step 5: link steering and self-test (R373, R377). -/
def State.linkStep (s : State) (r : StepReport) : State :=
  let s := { s with power := s.power.supply [3] }.testLinks r.wires r.badLinks
  let s := s.markRouters (r.badRouters.filter (fun n => n < numCores))
  { s with reset_ := { s.reset_ with releaseStep := 6 } }

/-- Release step 6: stacks whose test fails are beyond the outer code (R317); in a start that keeps HBM contents, the journals found at the
places of the last plan are copied (R476). -/
def State.stackStep (s : State) (r : StepReport) : State :=
  let s := { s with power := s.power.supply [4] }
  let s := (r.badStacks.filter (fun k => k < numStacks)).foldl (fun t k => t.updStack k (fun x => { x with beyond := true })) s
  let s := s.recoverJournals s.job.ownerPlaces
  { s with reset_ := { s.reset_ with releaseStep := 7 } }

/-- The core-state table of a module without a plan (R46, R47, R50). -/
def State.startTable (s : State) : Tab CoreState :=
  let bad := s.defects
  (upFrom 0 numCores).map (fun n => (n,
    if bad.contains n then CoreState.defective else if s.wafer.cycleFenced.contains n then .fenced else .unused))

/-- Release step 7: core self-test (R46, R47), routing over the up routers, and the distance table (R61, R392). -/
def State.coreStep (s : State) (r : StepReport) : State :=
  let s := ((r.badCores.filter (fun n => n < numCores)).filter (fun n => !surveyInfo.cores.contains n)).foldl (fun t n => t.permanent n) s
  let s := { s with wafer := { s.wafer with coreState := s.startTable }, cores := []
                    power := s.power.supply [1, 2]
                    reset_ := { s.reset_ with releaseStep := 8 } }
  ({ s with fabric := { s.fabric with routing := s.mesh.routing s.segmentDown s.fabric.neatPenalty } }).measure

/-- Release step 8: ports begin to train (R577, R697). -/
def State.portStep (s : State) (r : StepReport) : State :=
  let s := { s with power := s.power.supply [5], net := { s.net with portsBad := r.badPorts.filter (fun p => p < 32) }, reset_ := { s.reset_ with releaseStep := 9 } }
  (upFrom 0 32).foldl (fun t p => t.trainPort p) s

/-- Release step 9: Ready (R703); FAILED_STARTS becomes 0 in an NV pulse, and an unconfirmed image counts down (R737). -/
def State.readyStep (s : State) : State :=
  let f := s.fw
  let f := if f.unconfirmed then
      { f with confirmRemaining := if f.confirmStored = 0 then 1800 else f.confirmStored, confirmAt := s.micros }
    else f
  { s with fw := f, job := { s.job with jobState := jsNO_PLAN }, host := { s.host with linkUp := true }
           power := { s.power with powerState := 0 }
           reset_ := { s.reset_ with releaseStep := 0, ready := true, failedStarts := 0,
                                     startTime := s.micros / 1000 } }.nvBegin s.nvImage

/-- Release step 1: straps and SLOT_ID are sampled (R633, R693); release step 2 begins unless a thermal hold delays it (R707). -/
def State.strapStep (s : State) (r : StepReport) : State :=
  let b := r.bootSrc % 4
  let c := r.clkMode % 4
  let s := { s with reset_ := { s.reset_ with straps := b + 4 * c + (if c = 3 then 16 else 0), slotId := r.slotId % 16,
                                              bootSrc := b, clkMode := c, releaseStep := 2 } }
  if s.reset_.thermalHold then { s with reset_ := { s.reset_ with waitFrom := some s.micros } } else s.beginBoot

/-- A release step completes (R695). -/
def State.releaseStep (s : State) (r : StepReport) : State :=
  match s.reset_.releaseStep with
  | 1 => s.strapStep r
  | 2 => if s.reset_.thermalHold then s else s.bootStep r
  | 3 => s.trimStep r
  | 4 => s.converterStep r
  | 5 => s.linkStep r
  | 6 => s.stackStep r
  | 7 => s.coreStep r
  | 8 => s.portStep r
  | 9 => s.readyStep
  | _ => s

/-! ### Fabric and Core resets (R682, R683) -/

/-- Queues, pennants and staging of a core are reset. -/
def CoreSt.fabricReset (c : CoreSt) : CoreSt :=
  { c.blankPlot with
           fq := .idle, aq := .idle, vq := .idle, dq := .idle, pq := .idle, stopped := false, issueSeq := 0, pen := [],
           plotPen := [], fwgtWait := [], floadRun := [], staging := [], mmulRun := none, mmulCount := 0,
           recvs := [], recvAsked := false, recvHeld := [], loads := [], vc4 := [], merge := [], dexits := [], reported := false }

/-- Queues, pennants, staging and memories of a core are reset; its counts are kept. -/
def CoreSt.coreReset (c : CoreSt) : CoreSt :=
  { c.fabricReset with act := [], sbuf := [], istore := [], acc := [], accErr := [], sramErr := [], active := .blank, shadow := .blank,
                       plotSet := .blank, shadowFull := false, scales := [], codes := none, tri := [] }

/-- A write of RESET_FABRIC or RESET_CORE is accepted: why not, else none (R634, R683). In Datum mode too the entries can be reached
(R621). -/
def State.partReset (s : State) : Option Status :=
  if s.job.jobState = jsSTARTING then some .notReady
  else if s.job.plan.isSome then some .jobLoaded
  else if s.job.loading.isSome then some .busy
  else none

/-- A routing reload that a Fabric reset cuts short: its batch waits for the reset, and begins again after it (R53; DESIGN CHOICE:
notes/assumptions/21.md). -/
def Batch.cut (b : Batch) : Batch := if b.stage = .reload then { b with faults := [], next := b.faults ++ b.next } else b

/-- A Core reset that a Fabric reset overtakes is over: the wider scope applies (R687). -/
def State.overtakeCore (s : State) : State :=
  if s.reset_.coreReset.isNone then s else { s with reset_ := { s.reset_ with coreReset := none } }.actionEnd 0x3800 7 0

/-- A write of RESET_FABRIC. -/
def State.opResetFabric (s : State) : Wrote :=
  match s.partReset with
  | some st => (s, st)
  | none =>
    let s := s.overtakeCore.event "FABRIC_RESET" clsRESET srcModule 0 []
    let s := { s with cores := s.cores.map (fun (x : Nat × CoreSt) => (x.1, x.2.fabricReset)), flight := .reset
                      fabric := { s.fabric with routing := .empty, links := s.wiredLinks, reload := .none }
                      job := { s.job with batch := s.job.batch.cut }
                      reset_ := { s.reset_ with fabricReset := true } }
    (s.actionStart 0x3800 6, .ok)

/-- A write of RESET_CORE. During a Fabric reset the wider scope applies, and the write has no reset of its own (R687). -/
def State.opResetCore (s : State) (core : Nat) : Wrote :=
  match s.partReset with
  | some st => (s, st)
  | none =>
    if core ≥ numCores then (s, .valueRange)
    else if s.reset_.fabricReset then s.acted 0x3800 7
    else
      let s := (s.event "CORE_RESET" clsRESET srcCore core []).updCore core CoreSt.coreReset
      ({ s with reset_ := { s.reset_ with coreReset := some core } }.actionStart 0x3800 7, .ok)

/-- A write of RESET_COLD or RESET_WARM (R635, R685); the path gives the source code. -/
def State.opReset (s : State) (path : Path) (scope : Scope) : Wrote :=
  let field : Bool := path = .field
  let code := if scope = .cold then (if field then rcFIELD_COLD else rcOD_COLD) else (if field then rcFIELD_WARM else rcOD_WARM)
  (s.askReset code scope).acted 0x3800 (if scope = .cold then 4 else 5)

/-- A write of DATUM_EXIT (R634, R710). -/
def State.opDatumExit (s : State) (path : Path) : Wrote :=
  if !s.reset_.datum then (s, .accessDenied)
  else
    let s := { s with reset_ := { s.reset_ with failedStarts := 0 } }.nvBegin s.nvImage
    (s.askReset (if path = .field then rcFIELD_COLD else rcOD_COLD) .cold).acted 0x3800 9

/-- The PCIe function answers: from Ready on, in Datum mode, and while a push through the mailbox is awaited (R581, R695, R726). -/
def State.hostReachable (s : State) : Bool :=
  s.power.cartouche && (s.reset_.ready || s.reset_.datum || (s.reset_.awaitPush && decide (s.reset_.bootSrc = 1)))

/-- PERST# resets the Window C registers, rings and MSI-X state (R682, R686, R688). -/
def HostSt.perst (h : HostSt) (up : Bool) : HostSt :=
  { HostSt.reset with linkUp := up, evtNext := h.evtNext, coalesceCount := h.coalesceCount, coalesceTime := h.coalesceTime,
                      drainTimeout := h.drainTimeout, cmdsCompleted := h.cmdsCompleted, doorbellOverruns := h.doorbellOverruns,
                      wdDiscarded := h.wdDiscarded, wdRefused := h.wdRefused, evtSkipped := h.evtSkipped }

end Sys2Proof.Machine
end

