-- ==== Sys2Proof/Machine/Bundle.lean ====
section
/-!
DEFINITION. Firmware bundles as they are delivered (R722, R726 to R734), image slots (R721, R735 to R739), and the rows of chapter 18 about
them.
-/

namespace Sys2Proof.Machine

/-! ### Delivery -/

/-- A piece of a bundle draws on the allowance of the field network (R734); none when it is larger. Pieces by other paths, in Datum mode
and pushed at boot (R727) are not capped. -/
def State.allow (s : State) (path : Path) (n : Nat) : Option State :=
  if path != .field || s.reset_.datum || s.reset_.awaitPush then some s
  else
    let a := s.fw.allowed s.micros
    if a < 8000000 * n then none
    else some { s with fw := { s.fw with allowance := a - 8000000 * n, allowanceAt := s.micros } }

/-- The bundle is taken by the boot ROM (R726): with BOOT_SRC 0b01 from the mailbox, with 0b10 from the field network. -/
def State.pushing (s : State) : Bool := s.reset_.awaitPush && s.reset_.releaseStep = 2 && !s.reset_.thermalHold

def State.pushPath (s : State) (path : Path) : Bool :=
  (s.reset_.bootSrc = 1 && path = .mailbox) || (s.reset_.bootSrc = 2 && path = .field)

/-- The slot that a bundle is staged into: not the running one; in Datum mode, not the active one (R721). -/
def State.stageSlot (s : State) : Nat :=
  if s.reset_.datum then (match s.fw.active with | some a => 1 - a | none => 0) else 1 - s.fw.running % 2

/-- Why no chunk is taken now (R722, R726, R729), else none. The previous slot stands until the active one is confirmed, also while a pushed image
runs. -/
def State.noBundle (s : State) (path : Path) : Option Status :=
  let t := (s.fw.slot s.stageSlot).st
  if s.pushing then (if !s.pushPath path || s.fw.pushed.isSome then some .notReady else none)
  else if !s.reset_.datum && (s.fw.find .unconfirmed).isSome then some .busy
  else if t = .empty || t = .previous then none
  else some .busy

/-- The delivery that a chunk belongs to. -/
def State.delivery (s : State) : Delivery := if s.pushing then s.fw.push else s.fw.staging
def State.setDelivery (s : State) (d : Delivery) : State :=
  if s.pushing then { s with fw := { s.fw with push := d } } else { s with fw := { s.fw with staging := d } }

/-- What a failure does: a pushed bundle is discarded (R727); otherwise the chunks named are forgotten. -/
def State.rejectChunks (s : State) (name : String) (info : List Nat) (d : Delivery) : State :=
  (s.setDelivery (if s.pushing then Delivery.empty else d)).info name info

/-- Chunks 0 and 1 (R719, R729). -/
def State.headerChunk (s : State) (c : Nat) (data : List Byte) : Wrote :=
  let d := s.delivery.store c data
  if !d.hasAll 0 2 then (s.setDelivery d, .ok)
  else
    let n := s.fw.headerCheck d.header
    if n != 0 then (s.rejectChunks "BUNDLE_REJECTED" [n] (d.unstore 0 2), if n = 1 then .malformed else .accessDenied)
    else
      let s := s.setDelivery { d with headerOk := true }
      (if s.pushing then s else { s with fw := s.fw.setSlot s.stageSlot ImgSlot.none }, .ok)

/-- A manifest chunk (R729, R730). -/
def State.manifestChunk (s : State) (c : Nat) (data : List Byte) : Wrote :=
  let d := s.delivery.store c data
  if !d.hasAll 2 d.manifestChunks then (s.setDelivery d, .ok)
  else if !d.manifestGood then (s.rejectChunks "CHUNK_REJECTED" [c] (d.unstore 2 d.manifestChunks), .malformed)
  else (s.setDelivery { d with manifestOk := true }, .ok)

/-- A body chunk (R729, R730, R733). -/
def State.bodyChunk (s : State) (c : Nat) (data : List Byte) : Wrote :=
  let d := s.delivery
  if !d.bodyOk (c - 2 - d.manifestChunks) data then (s.rejectChunks "CHUNK_REJECTED" [c] d, .malformed)
  else
    let d := d.store c data
    (if d.hasAll 0 d.total then { s with fw := s.fw.complete s.pushing s.stageSlot d } else s.setDelivery d, .ok)

/-- A chunk of 4,096 bytes has arrived (R728 to R731). -/
def State.chunk (s : State) (path : Path) (c : Nat) (data : List Byte) : Wrote :=
  let d := s.delivery
  match s.noBundle path with
  | some st => (s, st)
  | none =>
    if d.bitmap.contains c then (s, if c < 2 && d.headerOk && data != Tab.get [] d.bytes c then .busy else .ok)
    else if c < 2 then s.headerChunk c data
    else if !d.headerOk then (s, .notReady)
    else if c ≥ d.total then (s, .valueRange)
    else if c < 2 + d.manifestChunks then s.manifestChunk c data
    else if !d.manifestOk then (s, .notReady)
    else s.bodyChunk c data

/-- BUNDLE (R728): a chunk whose pieces have all arrived. -/
def execBundle (path : Path) (offset : Nat) (data : List Byte) (s : State) : Res :=
  if offset % 4096 != 0 || data.length != 4096 then .next s
  else
    match s.allow path data.length with
    | none => .next s
    | some s => done (s.chunk path (offset / 4096) data).1

/-- A write of BUNDLE_ABANDON (R721). -/
def State.opBundleAbandon (s : State) : Wrote :=
  let f := s.fw
  let f := match f.find .staged with | some i => f.setSlot i ImgSlot.none | none => f
  ({ s with fw := { f with staging := .empty } }).acted 0x1800 6

/-- BUNDLE_ABANDON. -/
def execBundleAbandon (s : State) : Res := done s.opBundleAbandon.1

/-! ### Activation, confirmation and fallback -/

/-- A write of FW_SWAP (R736). -/
def State.opFwSwap (s : State) (path : Path) : Wrote :=
  if s.job.plan.isSome then (s, .jobLoaded)
  else if (s.fw.find .staged).isNone then (s, .noEntry)
  else
    let s := s.setFw s.fw.activate
    (s.askReset (if path = .field then rcFIELD_WARM else rcOD_WARM) .warm).acted 0x1800 7

/-- FW_SWAP. -/
def execFwSwap (path : Path) (s : State) : Res := done (s.opFwSwap path).1

/-- A write of FW_CONFIRM (R738): the slot is marked before any fuse is blown. -/
def State.opFwConfirm (s : State) : Wrote :=
  let f := s.fw
  if s.reset_.datum || !f.unconfirmed then (s, .ok)
  else
    let i := f.running
    let f := { f.setSlot i { f.slot i with st := .confirmed } with confirmRemaining := 0, confirmStored := 0 }
    ({ s with fw := f.blow i }.nvBegin s.nvImage).acted 0x1800 8

/-- FW_CONFIRM. -/
def execFwConfirm (s : State) : Res := done s.opFwConfirm.1

/-- CONFIRM_REMAINING counts: an unconfirmed image runs, and has been Ready (R737). -/
def State.confirming (s : State) : Bool := s.reset_.ready && s.fw.unconfirmed && s.fw.confirmRemaining != 0

/-- Seconds left now; before Ready and in Datum mode, those that the NV store holds for an unconfirmed image (R624, R737). -/
def State.confirmLeft (s : State) : Nat :=
  if s.confirming then s.fw.confirmRemaining - (s.micros - s.fw.confirmAt) / 1000000
  else if (s.fw.find .unconfirmed).isNone then 0
  else if s.fw.confirmStored = 0 then 1800 else s.fw.confirmStored

/-- CONFIRM_EXPIRY (R739). -/
def execConfirmExpiry (s : State) : Res :=
  if !s.confirming then .next s
  else
    let f := s.fw
    let s := s.until (f.confirmAt + 1000000 * f.confirmRemaining)
    let s := (s.setFw f.fallback).info "FW_FALLBACK" []
    done (if s.job.plan.isSome then s else s.askReset rcOD_COLD .cold)

/-- CONFIRM_STORE (R691, R737): the next multiple of 60 s; the write is an NV pulse. -/
def execConfirmStore (s : State) : Res :=
  let f := s.fw
  let n := (s.micros - f.confirmAt) / 60000000 + 1
  if !s.confirming || 60 * n ≥ f.confirmRemaining then .next s
  else
    let s := s.until (f.confirmAt + 60000000 * n)
    done ({ s with fw := { s.fw with confirmStored := f.confirmRemaining - 60 * n } }.nvBegin s.nvImage)

end Sys2Proof.Machine
end

