-- ==== Sys2Proof/Machine/Gazetteer.lean ====
section
/-!
DEFINITION. Captures and snapshots (R760 to R768), COUNTER_SELECT (R749, R754, R755), and the rows of chapter 19.
-/

namespace Sys2Proof.Machine

/-! ### Capture messages -/

/-- CAPTURE_MESSAGE (R761, R762): the oldest message on its way to a block arrives there. -/
def execCaptureMessage (block : Nat) (s : State) : Res :=
  if block ≥ numBlocks then .fault .noSuchPlace
  else
    match s.gaz.msgs.find? (fun m => !m.reached.contains block) with
    | none => .next s
    | some m => done ((s.captureBlock block m.interval m.seq).hadMessage (fun x => x = m) [block])

/-- GAZ_INTERVAL (R762): in mode 1 an interval capture message goes to every block. -/
def execGazInterval (s : State) : Res :=
  let g := s.gaz
  if g.mode != 1 || !s.reset_.ready then .next s
  else
    let s := s.until (g.intervalAt + g.interval)
    let m : CapMsg := { interval := true, seq := g.intSeq, reached := [] }
    let g : GazSt := { g with msgs := g.msgs ++ [m], intSeq := (g.intSeq + 1) % 2 ^ 32, intervalAt := s.micros }
    done { s with gaz := g.due { kind := 1, step := s.stepCurrent, attempt := s.stepAttempt, time := s.micros,
                                 epoch := s.wafer.legendEpoch, seq := m.seq } }

/-! ### Snapshot records (R768) -/

/-- A value of a segment. -/
def gazWord (v wrapped i : Nat) (stale : Bool) : List Byte :=
  leBytes (v % 2 ^ 48 + (if bit wrapped i then 2 ^ 48 else 0) + (if stale then 2 ^ 49 else 0)) 8

/-- The segment of a block from a capture: its counters, a core's slot tally, CYCLES. -/
def gazSegment (b : Nat) (c : Capture) (stale : Bool) : List Byte :=
  let n := blockCounters b
  let cs := (upFrom 0 n).flatMap (fun i => gazWord (Tab.get 0 c.counters i) c.wrapped i stale)
  let t := c.tally
  if b < 1344 then
    cs ++ gazWord t.retired c.wrapped 8 stale ++ gazWord t.wasted c.wrapped 9 stale ++ gazWord t.starvedFront c.wrapped 10 stale
      ++ gazWord t.starvedBack c.wrapped 11 stale ++ gazWord t.cycles c.wrapped 12 stale
  else cs ++ gazWord t.cycles c.wrapped n stale

/-- The segment of a block in a sweep (R763): a fenced core gives the counts that were drained. -/
def State.segment (s : State) (interval : Bool) (b : Nat) : List Byte :=
  let bank := Tab.get Capture.zero (if interval then s.gaz.intBank else s.gaz.stepBank) b
  if b < 1344 && s.coreStateOf b = .fenced then gazSegment b (s.captureOf b bank.seq) true
  else gazSegment b bank (!s.captures b)

/-- The header of a record, its CRC field last. -/
def gazHeader (w : CapSweep) (missed crc : Nat) : List Byte :=
  ascii "KWGZ" ++ leBytes 1 2 ++ leBytes w.kind 1 ++ leBytes w.attempt 1 ++ leBytes w.step 4 ++ leBytes w.seq 4 ++ leBytes w.time 8
    ++ leBytes w.epoch 4 ++ leBytes missed 2 ++ zeros 2 ++ leBytes 203552 4 ++ zeros 24 ++ leBytes crc 4

/-- A record with its CRC. -/
def gazRecord (w : CapSweep) (missed : Nat) (segments : List Byte) : List Byte :=
  let crc := crc32 (gazHeader w missed 0 ++ segments)
  gazHeader w missed crc.toNat ++ segments

/-- Every block that captures has had the message of a sweep. -/
def State.sweepReady (s : State) (w : CapSweep) : Bool :=
  !s.gaz.msgs.any (fun m => m.interval = decide (w.kind = 1) && m.seq = w.seq
    && (upFrom 0 numBlocks).any (fun b => s.captures b && !m.reached.contains b))

/-- Stack and address of record slot i (R766): a ring of 64 MiB in the firmware area (notes/assumptions/15.md). -/
def gazRingStack : Nat := Config.gazStack % numStacks
def gazRingBase : Nat := planSpace + 64 * (Config.gazAddress % 3145729)

/-- GAZETTEER_SWEEP (R764 to R767). A line of the ring that its write meets and cannot read is logged as the scrub's are
(notes/assumptions/24.md). -/
def execGazetteerSweep (s : State) : Res :=
  match s.gaz.sweep with
  | none => .next s
  | some w =>
    if !s.sweepReady w then .next s
    else
      let r := gazRecord w s.gaz.missed ((upFrom 0 numBlocks).flatMap (s.segment (decide (w.kind = 1))))
      let g := s.gaz
      if (g.producer + 2 ^ 32 - g.consumer) % 2 ^ 32 < 256 then
        let s := s.writeHbm gazRingStack (gazRingBase + 262144 * (g.producer % 256)) r .scrub
        done { s with gaz := { s.gaz with sweep := none, missed := 0, lastRecord := r, producer := (g.producer + 1) % 2 ^ 32 } }
      else done { s with gaz := { g with sweep := none, overruns := satAdd32 g.overruns 1 } }

/-! ### Counter selection -/

/-- The event codes of a block's class (R756). -/
def eventListed (b e : Nat) : Bool :=
  let within (lo hi : Nat) : Bool := lo ≤ e && e ≤ hi
  e ≤ 1 || (if b < 1344 then within 0x010 0x019 else if b < 2688 then within 0x080 0x085 else if b < 2732 then within 0x100 0x105
            else if b < 2764 then within 0x180 0x184 else if b < 2820 then within 0x200 0x203 else within 0x280 0x283)

/-- Events of one bit (R756). -/
def oneBitEvent (e : Nat) : Bool := [0x000, 0x001, 0x016, 0x018, 0x101, 0x183, 0x201, 0x202, 0x203, 0x280, 0x281, 0x282].contains e

/-- A control word that R754 takes for counter `k` of a block. -/
def ctlOk (b k w : Nat) : Bool :=
  if k ≥ blockCounters b then w = 0
  else eventListed b (ctlEvent w) && !(ctlChain w && k + 1 = blockCounters b) && !(ctlInvert w && !oneBitEvent (ctlEvent w))
    && !(ctlThr w != 0 && ctlEdge w) && field w 16 3 = 0

/-- Word `k` of block `b` in a COUNTER_SELECT blob (R755). -/
def selectWord (blob : List Byte) (b k : Nat) : Nat := leAt blob (16 + 4 * (8 * b + k)) 4

/-- A blob that R754 and R755 take. -/
def selectOk (blob : List Byte) : Bool :=
  blob.length = 92048 && leAt blob 4 2 = 2876 && leAt blob 6 2 = 8 && slice blob 8 8 = zeros 8
    && (upFrom 0 numBlocks).all (fun b => (upFrom 0 8).all (fun k => ctlOk b k (selectWord blob b k)))

/-- Every count clears (R749). -/
def State.clearCounts (s : State) : State :=
  let clr (c : CoreSt) : CoreSt := { c with counters := [], counterBase := [], tally := .zero, tallyBase := 0, wrapped := 0 }
  { s with cores := s.cores.map (fun (x : Nat × CoreSt) => (x.1, clr x.2))
           gaz := { s.gaz with blocks := [], lastTally := [] } }

/-- A write of COUNTER_SELECT that its access code permits. -/
def State.setCounterSelect (s : State) (blob : List Byte) : Wrote :=
  if !selectOk blob then (s, .valueRange)
  else
    let words := (upFrom 0 numBlocks).flatMap (fun b => (upFrom 0 (blockCounters b)).map (fun k => (8 * b + k, selectWord blob b k)))
    (({ s with gaz := { s.gaz with control := words } }).clearCounts, .ok)

/-- An RWJ entry is writable (R620). -/
def State.rwj (s : State) : Bool := s.job.jobState = jsNO_PLAN && s.job.loading.isNone

/-- COUNTER_SELECT (R749, R754). -/
def execCounterSelect (blob : List Byte) (s : State) : Res := if !s.rwj then .next s else done (s.setCounterSelect blob).1

end Sys2Proof.Machine
end

