-- ==== Sys2Proof/Machine/Plotter.lean ====
section
/-!
DEFINITION. The layer update (R472, R474 to R498): UPDATE_WAIT_EXPIRY, PLOTTER_UPDATE_START, UPDATE_COMPUTED,
UPDATE_READBACK_COMPLETE, JOURNAL_COPY_COMPLETE; and TAKEOVER_WAIT_EXPIRY (R503), ALARMS (R203), TAKEOVER (R502) and
PLOTTER_FLAGS_CLEAR (R507). An update's array and vector work is whole in UPDATE_COMPUTED: the Plotter queues of its cores show no
intermediate state (notes/assumptions/16.md).
-/

namespace Sys2Proof.Machine

/-- Plotters run while a job is on the module, but for a routing reload (R389, R505, R512). -/
def State.plottersRun (s : State) : Bool := s.inJob && s.job.batch.stage != .reload

/-- UPDATE_WAIT_EXPIRY (R477): UPDATE_WAIT after the first sum of a layer and step was handed over, its update is ready. -/
def execUpdateWaitExpiry (layer step : Nat) (s : State) : Res :=
  match s.plotter.firstSum.find? (fun x => x.1 = layer && x.2.1 = step) with
  | none => .next s
  | some x => if (s.handOf layer step).isEmpty then .next s
    else done ((s.until (x.2.2 + 1000 * s.plotter.updateWait)).updateReady layer step)

/-- The next update of a sheet: least step, then the order of becoming ready (R472). -/
def State.nextUpdate (s : State) (sheet : Nat) : Option UpdReady :=
  let l := s.plotter.ready.filter (fun u => match s.schedLayer u.layer with | some r => r.sheet = sheet | none => false)
  match l with
  | [] => none
  | u :: t => some (t.foldl (fun a b => if b.step < a.step then b else a) u)

/-- The sums of an update, and its place in the list of ready updates, are given up. -/
def State.endUpdate (s : State) (layer step : Nat) : State :=
  let p := s.plotter
  { s with plotter := { p with hand := p.hand.filter (fun x => !(x.layer = layer && x.step = step)),
                               firstSum := p.firstSum.filter (fun x => !(x.1 = layer && x.2.1 = step)),
                               ready := p.ready.filter (fun u => !(u.layer = layer && u.step = step)) } }

/-- Tiles whose sum has not come (R479): counted, logged, and late from now on. -/
def State.missTiles (s : State) (r : SchedLayer) (step : Nat) : State :=
  let hs := s.handOf r.layer step
  match hs with
  | [] => s
  | h :: _ =>
    ((upFrom 0 (s.tilesOf r.layer h.m h.n)).filter (fun t => !hs.any (fun x => x.tile = t))).foldl (fun t n =>
      let t := (t.layCount r.layer (fun c => { c with missingTiles := satAdd32 c.missingTiles 1 })).plotEvent "TILE_MISSING" r [n, step]
      let t := { t with halyard := { t.halyard with
        sums := t.halyard.sums.filter (fun o => !(o.layer = r.layer && o.tile = n && o.step ≤ step)) } }
      t.noteForward r.layer n (stampOf step 1) false) s

/-- An instruction names no accumulator row outside a Plotter window of `window` rows: what the Plotter feeds acts on the window (R250). -/
def plotFits (window : Nat) (w : InstrWord) : Bool :=
  let fits (src : SrcF) : Bool := !src.acc || field src.addr 0 12 + window ≥ 4096
  match opcodeOf w with
  | 0x20 => (mmulF w).base + window ≥ 4096
  | 0x30 => fits (vopF w).src
  | 0x31 => fits (vredF w).src
  | 0x32 => fits (vquantF w).src
  | _ => true

/-- The Plotter feeds a core's Plotter queue (R250, R470). -/
def CoreSt.feedPlot (c : CoreSt) (program : List InstrWord) (rows : List (List (List Byte))) : CoreSt :=
  let l := program.filter (plotFits c.window)
  { c.clearPlot with plotFeed := l, plotRows := rows, pq := { Queue.idle with qlen := l.length, st := .run, opSeq := c.pq.opSeq } }

/-- The Plotter of a sheet feeds the Plotter queues of its cores for an update. -/
def State.feedSheet (s : State) (sheet layer step : Nat) : State :=
  s.updCores (s.plotCores sheet) (fun n c => c.feedPlot (Config.plotterProgram layer step n) (Config.plotterRows layer step n))

/-- A layer's update begins (R472, R479, R480, R203). -/
def State.startUpdate (s : State) (sheet : Nat) (u : UpdReady) (r : SchedLayer) (p : OwnerPlace) : State :=
  let h := s.stateHdr p
  if u.step ≤ h.tag then
    (s.layCount u.layer (fun c => { c with duplicates := satAdd32 c.duplicates 1 })).endUpdate u.layer u.step
  else
    let gap : Bool := u.step > h.tag + 1
    let s := if u.again then s
      else
        let s := s.missTiles r u.step
        let s := if gap then
            (s.layCount u.layer (fun c => { c with stepGaps := satAdd32 c.stepGaps 1 })).event "STEP_GAP" clsINFO srcPlotter sheet
              [u.layer, h.tag, u.step]
          else s
        match s.planLayer u.layer with
        | some l => s.promote l r u.step
        | none => s
    let q := s.plotter
    let run : UpdRun := { layer := u.layer, step := u.step, stage := 0, flags := if gap then 4 else 0,
                          rung := (match s.planLayer u.layer with | some l => s.rungOf l | none => h.rung),
                          prodBeta := h.prodBeta, fallbacks := h.fallbacks }
    { s.feedSheet sheet u.layer u.step with
      plotter := { q with ready := q.ready.filter (fun x => !(x.layer = u.layer && x.step = u.step)),
                          running := Tab.set q.running sheet run } }

/-- PLOTTER_UPDATE_START (R472, R479, R480): the sheet's Plotter, idle, takes its next update. -/
def execPlotterUpdateStart (sheet : Nat) (s : State) : Res :=
  withSheet sheet
    (if !s.plottersRun || (Tab.find s.plotter.running sheet).isSome then .next s
    else
      match s.nextUpdate sheet with
      | none => .next s
      | some u =>
        match s.schedLayer u.layer with
        | none => .next s
        | some r =>
          match s.ownerPlace r with
          | none => done (((s.layCount u.layer (fun c => { c with scheduleValue := satAdd32 c.scheduleValue 1 })).plotEvent
              "SCHEDULE_VALUE" r [u.step]).endUpdate u.layer u.step)
          | some p =>
            let x := s.readHbm p.stack p.hdr 64 .plotter
            match x.2 with
            | none => done x.1
            | some _ =>
              let y := x.1.copyFound p
              if y.2 then done (y.1.startUpdate sheet u r p) else done y.1)

/-! ### Checks and computation (R461, R462, R478, R482, R483) -/

/-- E_b of a block of a tile (R425, R426) as the owner holds its margin and codes. -/
def State.ownerExp (s : State) (l : PlanLayer) (x : HandSum) (codes : List Nat) (b : Nat) : Int :=
  match s.ownEntry l.layer x.tile x.chain with
  | some e => blockExpOf' (e.margin) e.eDefault (codes.getD b 0)
  | none => blockExpOf' 4 (Config.ownerExp l.layer x.tile) (codes.getD b 0)
where
  /-- The exponent for a margin, a default exponent and a code. -/
  blockExpOf' (margin : Nat) (dflt : Int) (code : Nat) : Int :=
    if code = 0 then dflt else (code : Int) - 127 + (if margin = 4 then s.halyard.margin else margin)

/-- The gradient of a tile, row by row (R461, R462). -/
def State.tileGrad (s : State) (l : PlanLayer) (x : HandSum) : Mat :=
  let codes := s.codesOf l x.tile x.step (ceilDiv x.m 8)
  ((chunks (max 1 x.n) x.val.words).zip (upFrom 0 x.m)).map (fun p =>
    p.1.map (fun w => if x.val.tokens = 0 then .raw 0#32
      else gradElem s.fmt.subnormal w (s.ownerExp l x codes (p.2 / 8)) x.val.tokens))

/-- G: the mean gradient of the layer, tile by tile; a missing tile gives +0 (R478, R479). -/
def State.gradient (s : State) (l : PlanLayer) (r : SchedLayer) (step : Nat) : Mat :=
  let hs := s.handOf r.layer step
  match hs with
  | [] => (upFrom 0 r.rows).map (fun _ => List.replicate r.cols (.raw 0#32))
  | h :: _ =>
    let m := max 1 h.m
    let n := max 1 h.n
    let nc := ceilDiv r.cols n
    let ts : Tab Mat := hs.foldl (fun t x => Tab.set t x.tile (s.tileGrad l x)) []
    (upFrom 0 r.rows).map (fun i => (upFrom 0 r.cols).map (fun j =>
      ((Tab.get [] ts (nc * (i / m) + j / n)).getD (i % m) []).getD (j % n) (.raw 0#32)))

/-- What check of R482 skips an update, with its count and event. -/
inductive Skip where
  | none
  | schedule
  | noWindow
  | nonfinite
  | saturation
  deriving DecidableEq, Repr

/-- The first check of R482 that skips the update; `nf` and `sat` are the totals of R482 and R483. -/
def skipOf (curves : Option Curves) (cores : List Nat) (r : SchedLayer) (nf sat : Nat) : Skip :=
  if curves.isNone then .schedule
  else if cores.isEmpty then .noWindow
  else if nf > 0 && !bit r.mode 3 then .nonfinite
  else if sat > 0 && bit r.mode 4 then .saturation
  else .none

def State.noteSkip (s : State) (r : SchedLayer) (step : Nat) : Skip → State
  | .none => s
  | .schedule => (s.layCount r.layer (fun c => { c with scheduleValue := satAdd32 c.scheduleValue 1 })).plotEvent "SCHEDULE_VALUE" r [step]
  | .noWindow => s.plotEvent "PLOTTER_NO_WINDOW" r [step]
  | .nonfinite =>
    (s.layCount r.layer (fun c => { c with skippedNonfinite := satAdd32 c.skippedNonfinite 1 })).plotEvent "UPDATE_SKIPPED" r [step]
  | .saturation =>
    (s.layCount r.layer (fun c => { c with skippedSat := satAdd32 c.skippedSat 1 })).plotEvent "SATURATION_REPLAY" r [step]

/-- The copies, codes and mirror refresh that end an update or a skip (R484, R499). -/
def State.sendDownUpdate (s : State) (r : SchedLayer) (p : OwnerPlace) (step : Nat) : State :=
  match s.planLayer r.layer with
  | some l => s.regenerate l p step
  | none => s

def State.refreshMirror (s : State) (r : SchedLayer) (p : OwnerPlace) : State :=
  match s.planLayer r.layer with
  | some l => s.countUpdate l p
  | none => s

/-- A sheet's Plotter is idle again. -/
def State.idleSheet (s : State) (sheet : Nat) : State :=
  { s with plotter := { s.plotter with running := Tab.erase s.plotter.running sheet } }

/-- An update ends: its sums are given up; what R499 sends of the layer waits until every line of it can be read (R311). -/
def State.finishUpdate (s : State) (sheet : Nat) (u : UpdRun) (r : SchedLayer) (p : OwnerPlace) : State :=
  let x := if s.refreshDue u.layer then s.readAll (p.reads (s.stateHdr p).active) else (s, true)
  if x.2 then (x.1.refreshMirror r p).idleSheet sheet
  else { x.1 with plotter := { x.1.plotter with running := Tab.set x.1.plotter.running sheet { u with stage := 3 } } }

/-- A skipped update writes only the header (R482, R484). -/
def State.skipUpdate (s : State) (sheet : Nat) (u : UpdRun) (r : SchedLayer) (p : OwnerPlace) (k : Skip) (fl : Flushes) : State :=
  let s := (s.flushOn (s.plotCores sheet) fl).noteSkip r u.step k
  let s := s.putHdr p { s.stateHdr p with tag := u.step, journal := 0, flags := (s.stateHdr p).flags ||| u.flags, rung := u.rung }
  let s := s.sendDownUpdate r p u.step
  (s.endUpdate u.layer u.step).finishUpdate sheet u r p

/-- What the curves and the state that a layer holds give for its gradient `g` (R481, R484 to R497). -/
def State.computeUpdate (s : State) (u : UpdRun) (r : SchedLayer) (p : OwnerPlace) (c : Curves) (g : Mat) : Computed :=
  let md := s.fmt.subnormal
  let b := s.schedule
  let h := s.stateHdr p
  let w : Mat := (s.masters p h.active).map (fun row => row.map Val.raw)
  let mom := (chunks (max 1 p.cols) ((chunks 2 (s.delivered p.stack p.mom (2 * p.rows * p.cols))).map (fun x => bfVal md (leNat x))))
  let hs := s.handOf u.layer u.step
  let tm := match hs with | x :: _ => x.m | [] => 1
  let tn := match hs with | x :: _ => x.n | [] => 1
  let g := if bit r.mode 3 then g.map (fun row => row.map (fun v => if isFin32 v.w then v else { v with w := 0#32 })) else g
  let pb := gapBeta md (.raw h.prodBeta) c
  if bit r.mode 0 then elementPath md c w mom g pb
  else matrixPath md b r c tm tn w mom g (if u.step > h.tag + 1 then pb else .raw h.prodBeta)

/-- The momentum of an update as its journal holds it: BF16 codes row by row (R474, R476). -/
def Computed.journal (x : Computed) : List Byte := x.momentum.flatMap (fun row => row.flatMap (fun v => leBytes v 2))

/-- An applied update: the results, and steps 1 and 2 of R474. -/
def State.applyUpdate (s : State) (sheet : Nat) (u : UpdRun) (r : SchedLayer) (p : OwnerPlace) (c : Curves) (g : Mat)
    (fl : Flushes) : State :=
  let x := s.computeUpdate u r p c g
  let s := s.writeStack p.stack (p.buf ((s.stateHdr p).active + 1)) (matBytes x.weights)
  let s := s.writeStack p.jstack p.journal x.journal
  let s := s.flushOn (s.plotCores sheet) (orFlush fl x.flushed)
  let s := s.layCount u.layer (fun k => { k with
    updates := satAdd32 k.updates 1, gramRetries := satAdd32 k.gramRetries x.retries,
    zeroUpdates := satAdd32 k.zeroUpdates (if x.zero then 1 else 0) })
  let s := s.count (blkPlotter sheet) evGRAM_RETRIES 0 1 x.retries
  let s := if x.zero then s.plotEvent "ZERO_UPDATE" r [u.step] else s
  let s := if x.fallback then s.plotEvent "GRAM_FALLBACK" r [u.step] else s
  let u := { u with stage := 1, prodBeta := x.prodBeta,
                    flags := u.flags ||| (if x.zero then 1 else 0) ||| (if x.fallback then 2 else 0),
                    fallbacks := if x.fallback then satAdd32 u.fallbacks 1 else u.fallbacks }
  { s with plotter := { s.plotter with running := Tab.set s.plotter.running sheet u } }

/-- Ranges that an update reads: the owner state (R473) and the code records of the layer (R461). -/
def State.updateReads (s : State) (layer : Nat) (p : OwnerPlace) : List (Nat × Nat × Nat) :=
  p.reads (s.stateHdr p).active ++ (match s.planLayer layer with | some l => l.records.map s.recordRange | none => [])

/-- Ranges that step 3 of R474 reads back, with the code records that step 7 needs. -/
def State.commitReads (s : State) (layer : Nat) (p : OwnerPlace) (active : Nat) : List (Nat × Nat × Nat) :=
  [(p.stack, p.buf active, 4 * p.rows * p.cols), (p.jstack, p.journal, 2 * p.rows * p.cols)]
    ++ (match s.planLayer layer with | some l => l.records.map s.recordRange | none => [])

/-- The gradient that an update takes: the layer's mean gradient. -/
def State.updateGradient (s : State) (r : SchedLayer) (step : Nat) : Mat :=
  match s.planLayer r.layer with
  | some l => s.gradient l r step
  | none => (upFrom 0 r.rows).map (fun _ => List.replicate r.cols (.raw 0#32))

/-- The check of R482 that skips an update, on the totals of R482 and R483. -/
def State.updateSkip (s : State) (sheet : Nat) (r : SchedLayer) (tag step : Nat) : Skip :=
  let hs := s.handOf r.layer step
  let nf := hs.foldl (fun a y => a + y.val.nonfinite) (((s.updateGradient r step).flatten.filter (fun v => !isFin32 v.w)).length)
  let sat := hs.foldl (fun a y => a + y.val.saturations) 0
  skipOf (curvesOf s.fmt.subnormal s.schedule r tag step) (s.plotCores sheet) r nf sat

/-- The classes flushed up to the checks of R482: those of the curves, and, once check 1 has passed, those of the gradient (R184). -/
def State.checkFlags (s : State) (r : SchedLayer) (tag step : Nat) : Flushes :=
  orFlush (curveFlags s.fmt.subnormal s.schedule r tag step)
    (if (curvesOf s.fmt.subnormal s.schedule r tag step).isSome then matFlags (s.updateGradient r step) else 0)

/-- What the Plotter fed to the cores of its sheet is done. -/
def State.endFeed (s : State) (sheet : Nat) : State := s.updCores (s.plotCores sheet) (fun _ c => c.clearPlot)

/-- UPDATE_COMPUTED (R461, R474, R482 to R497, R532): what a checkpoint still lacks of the layer is copied, then the checks, then a skip, or
the new weights and momentum in place. -/
def execUpdateComputed (sheet : Nat) (s : State) : Res :=
  withSheet sheet
    (match Tab.find s.plotter.running sheet with
    | none => .next s
    | some u =>
      if u.stage != 0 || !s.plottersRun then .next s
      else
        match s.schedLayer u.layer, s.placeOfLayer u.layer with
        | some r, some p =>
          let y := s.checkpointCopy u.layer
          let x := y.1.readAll (y.1.updateReads u.layer p)
          if !y.2 || !x.2 then done x.1
          else
            let s := x.1.endFeed sheet
            let tag := (s.stateHdr p).tag
            let fl := s.checkFlags r tag u.step
            match s.updateSkip sheet r tag u.step, curvesOf s.fmt.subnormal s.schedule r tag u.step with
            | .none, some c => done ((s.applyUpdate sheet u r p c (s.updateGradient r u.step) fl).askAllMerges)
            | k, _ => done ((s.skipUpdate sheet u r p k fl).askAllMerges)
        | _, _ => .next s)

/-- UPDATE_READBACK_COMPLETE (R474 steps 3, 4 and 7, R475, R498): once the new weights, the journal and the layer's code records can be read,
the header is committed, and copies and codes go down. -/
def execUpdateReadbackComplete (sheet : Nat) (s : State) : Res :=
  withSheet sheet
    (match Tab.find s.plotter.running sheet with
    | none => .next s
    | some u =>
      if u.stage != 1 || !s.plottersRun then .next s
      else
        match s.schedLayer u.layer, s.placeOfLayer u.layer with
        | some r, some p =>
          let h := s.stateHdr p
          let x := s.readAll (s.commitReads u.layer p (h.active + 1))
          if !x.2 then done x.1
          else
          let s := x.1.putHdr p { tag := u.step, active := 1 - h.active % 2, journal := 1, flags := h.flags ||| u.flags, rung := u.rung,
                                  prodBeta := u.prodBeta, fallbacks := u.fallbacks }
          let s := (s.sendDownUpdate r p u.step).count (blkPlotter sheet) evCOMMITS (if bit r.mode 0 then 2 else 1) 1 1
          let s := (s.endUpdate u.layer u.step).askAllMerges
          done { s with plotter := { s.plotter with running := Tab.set s.plotter.running sheet { u with stage := 2 } } }
        | _, _ => .next s)

/-- JOURNAL_COPY_COMPLETE (R474 steps 5 and 6, R499): the journal is copied once every line of it can be read. -/
def execJournalCopyComplete (sheet : Nat) (s : State) : Res :=
  withSheet sheet
    (match Tab.find s.plotter.running sheet with
    | none => .next s
    | some u =>
      if u.stage < 2 || !s.plottersRun then .next s
      else
        match s.schedLayer u.layer, s.placeOfLayer u.layer with
        | some r, some p =>
          let x := s.copyFound p
          if x.2 then done ((x.1.finishUpdate sheet u r p).askAllMerges) else done x.1
        | _, _ => .next s)

/-! ### Promoted mirrors, alarms, takeovers -/

/-- TAKEOVER_WAIT_EXPIRY (R503): TAKEOVER_WAIT after a tile's first sum reached a promoted mirror, it is handed to the update. -/
def execTakeoverWaitExpiry (layer tile step : Nat) (s : State) : Res :=
  if s.roleOf layer != 3 then .next s
  else
    match s.firstDue (fun o => o.layer = layer && o.tile = tile && o.step = step && o.round = 1) (fun o _ =>
        some ((if o.up.isSome && (o.own.isNone || o.tUp ≤ o.tOwn) then o.tUp else o.tOwn) + 1000 * s.plotter.takeoverWait)) with
    | none => .next s
    | some (o, c, t) => done ((s.until t).forwardSum c o true 0)

/-- ALARMS (R203, R558). -/
def execAlarms (src layer step value : Nat) (s : State) : Res :=
  if s.isLost src || s.job.batch.stage = .reload then .next s else done (s.alarmFrom layer step value)

/-- TAKEOVER (R502, R558). -/
def execTakeover (src layer _stepTag : Nat) (s : State) : Res :=
  if s.isLost src || s.job.batch.stage = .reload then .next s else done (s.takeoverFor layer)

/-- A write of PLOTTER_FLAGS_CLEAR (R507): FLAGS bits 0 to 2 of every owned layer. -/
def State.clearPlotterFlags (s : State) : State :=
  (s.ownedLayers.foldl (fun t l =>
    match t.placeOfLayer l with
    | some p => let h := t.stateHdr p
      t.writeStack p.stack (p.hdr + 6) (leBytes (h.flags - h.flags % 8) 1)
    | none => t) s).askAllMerges.actionDone 0x2A02 2 0

end Sys2Proof.Machine
end

