-- ==== Sys2Proof/Machine/OdOps.lean ====
section
/-!
DEFINITION. Entries of the object dictionary (R613 to R627): type, access, scope, encoding; the value an entry reads as and what a write
of it does.
-/

namespace Sys2Proof.Machine

/-- Entry types (R616). -/
inductive OdType where
  | u8 | u16 | u32 | u64 | f32 | str | blob | record | cmd
  deriving DecidableEq, Repr

def OdType.code : OdType → Nat
  | .u8 => 1
  | .u16 => 2
  | .u32 => 3
  | .u64 => 4
  | .f32 => 6
  | .str => 7
  | .blob => 8
  | .record => 9
  | .cmd => 10

/-- Access codes (R16). -/
inductive OdAccess where
  | ro | rw | wo | rwj | rws | cmd
  deriving DecidableEq, Repr

/-- Codes of R615. -/
def OdAccess.code : OdAccess → Nat
  | .ro => 0
  | .rw => 1
  | .wo => 2
  | .rwj => 3
  | .rws => 4
  | .cmd => 5

/-- Reset scopes (R624). -/
def scFIXED : Nat := 0
def scNV : Nat := 1
def scSTART : Nat := 2
def scPLAN : Nat := 3
def scLIVE : Nat := 4

/-- An entry: its directory fields (R615), the sizes of the fields of the value that is written or, for entries that are only read, read
(R617), its value in little-endian form, and a write of a value that its access code permits. -/
structure OdEntry where
  index : Nat
  sub : Nat
  type : OdType
  access : OdAccess
  scope : Nat
  name : String
  fields : List Nat
  get : State → List Byte
  set : Path → State → List Byte → Wrote

/-! ### Encoding (R617) -/

/-- Each field's bytes turned round. -/
def swapFields : List Nat → List Byte → List Byte
  | [], _ => []
  | n :: t, l => (l.take n).reverse ++ swapFields t (l.drop n)

/-- A value on a path, from its little-endian form or to it. -/
def coded (path : Path) (type : OdType) (fields : List Nat) (b : List Byte) : List Byte :=
  if path = .field && type != .blob && type != .str then swapFields fields b else b

/-- Fields of what a read returns (R622); a status alone has the first of them. -/
def OdEntry.readFields (e : OdEntry) : List Nat := if e.access = .cmd then [2, 1, 4] else e.fields

/-- Bytes of a written value of fixed size (R618). -/
def OdEntry.size (e : OdEntry) : Nat := e.fields.foldl (· + ·) 0

/-! ### Reachable entries (R621) -/

def odAvail (index sub : Nat) : Bool :=
  (0x1000 ≤ index && index ≤ 0x10FF) || index = 0x1110 || (0x1800 ≤ index && index ≤ 0x18FF) || (index = 0x3000 && sub = 1)
    || (0x3800 ≤ index && index ≤ 0x38FF) || (index = 0x4000 && sub = 2) || (index = 0x4003 && sub = 1)
    || (0x6000 ≤ index && index ≤ 0x60FF)

/-! ### Constructors of entries -/

def refuse (_ : Path) (s : State) (_ : List Byte) : Wrote := (s, .accessDenied)

/-- An entry that is only read. -/
def ro (index sub : Nat) (type : OdType) (scope : Nat) (name : String) (fields : List Nat) (get : State → List Byte) : OdEntry :=
  ⟨index, sub, type, .ro, scope, name, fields, get, refuse⟩

def roU8 (index sub scope : Nat) (name : String) (get : State → Nat) : OdEntry :=
  ro index sub .u8 scope name [1] (fun s => leBytes (get s) 1)
def roU16 (index sub scope : Nat) (name : String) (get : State → Nat) : OdEntry :=
  ro index sub .u16 scope name [2] (fun s => leBytes (get s) 2)
def roU32 (index sub scope : Nat) (name : String) (get : State → Nat) : OdEntry :=
  ro index sub .u32 scope name [4] (fun s => leBytes (get s) 4)
def roU64 (index sub scope : Nat) (name : String) (get : State → Nat) : OdEntry :=
  ro index sub .u64 scope name [8] (fun s => leBytes (get s) 8)
def roF32 (index sub scope : Nat) (name : String) (get : State → Word32) : OdEntry :=
  ro index sub .f32 scope name [4] (fun s => leBytes (get s).toNat 4)
def roBlob (index sub scope : Nat) (name : String) (get : State → List Byte) : OdEntry := ro index sub .blob scope name [] get

/-- A number that can be written where `ok` says so; otherwise VALUE_RANGE. -/
def num (index sub : Nat) (access : OdAccess) (scope : Nat) (name : String) (type : OdType) (size : Nat) (get : State → Nat)
    (ok : Nat → Bool) (set : State → Nat → State) : OdEntry :=
  ⟨index, sub, type, access, scope, name, [size], fun s => leBytes (get s) size,
    fun _ s b => if ok (leNat b) then (set s (leNat b), .ok) else (s, .valueRange)⟩

/-- A byte string that can be written. -/
def blobRw (index sub : Nat) (access : OdAccess) (scope : Nat) (name : String) (get : State → List Byte)
    (set : State → List Byte → Wrote) : OdEntry :=
  ⟨index, sub, .blob, access, scope, name, [], get, fun _ s b => set s b⟩

/-- A CMD entry: its read gives the last action (R622). -/
def cmdRec (index sub : Nat) (name : String) (fields : List Nat) (act : Path → State → List Byte → Wrote) : OdEntry :=
  ⟨index, sub, if fields.isEmpty then .cmd else .record, .cmd, scSTART, name, fields,
    fun s => let a := s.action index sub
      leBytes a.status 2 ++ leBytes (if a.busy then 1 else 0) 1 ++ leBytes a.count 4, act⟩

def cmd (index sub : Nat) (name : String) (act : Path → State → Wrote) : OdEntry := cmdRec index sub name [] (fun p s _ => act p s)

/-- A CMD entry whose read returns a status alone (R424, R612). -/
def cmdStatus (index sub : Nat) (name : String) (fields : List Nat) (get : State → Nat) (act : Path → State → List Byte → Wrote) : OdEntry :=
  ⟨index, sub, if fields.isEmpty then .cmd else .record, .cmd, scSTART, name, fields, fun s => leBytes (get s) 2, act⟩

def within (lo hi n : Nat) : Bool := lo ≤ n && n ≤ hi

/-! ### Parts of values -/

/-- The 16-byte header of R64; EPOCH is 0 where R64 gives it no meaning. -/
def hdr64 (epoch rows cols : Nat) : List Byte := leBytes epoch 4 ++ leBytes rows 2 ++ leBytes cols 2 ++ zeros 8

/-- Exactly `n` bytes. -/
def fit (n : Nat) (l : List Byte) : List Byte := (l ++ zeros n).take n

def word32 (w : Word32) : List Byte := leBytes w.toNat 4

/-- Word `i` of the measured values that a read returns and that this model does not hold: free (notes/assumptions/8.md). -/
def State.freeWord (s : State) (i : Nat) : List Byte := leBytes (Config.freeNat s.freshCount / 2 ^ (32 * i)) 4
def State.freeBytes (s : State) (i n : Nat) : List Byte := leBytes (Config.freeNat s.freshCount / 2 ^ (32 * i)) n

/-- MODULE_POWER in W: a measured value, free (notes/assumptions/8.md). -/
def State.modulePower (s : State) : Word32 := BitVec.ofNat 32 (Config.freeNat s.freshCount)

/-- POWER_PEAK: the largest MODULE_POWER since plan load (R632). -/
def State.powerPeak (s : State) : Word32 := if numLt s.power.powerPeak s.modulePower then s.modulePower else s.power.powerPeak

/-- A read has been served: the measured values are drawn anew for the next one, and the peak holds this one's. -/
def State.drawn (s : State) : State :=
  { s with freshCount := s.freshCount + 1, power := { s.power with powerPeak := s.powerPeak } }

/-- A value per core in physical order. -/
def State.perCore (s : State) (f : CoreSt → List Byte) : List Byte := (upFrom 0 numCores).flatMap (fun n => f (s.core n))

/-! ### CMD entries that no other file acts on -/

/-- A write of FLUSH_FLAGS_CLEAR (R184). -/
def State.opFlushFlagsClear (s : State) : Wrote :=
  s.opened (fun s => { s with cores := s.cores.map (fun (x : Nat × CoreSt) => (x.1, { x.2 with flush := 0 })) }.acted 0x2401 2)

/-- FLUSH_FLAGS_CLEAR. -/
def execFlushFlagsClear (s : State) : Res := done s.opFlushFlagsClear.1

/-- A write of ACC_FLAGS_CLEAR (R246, R247): the counts are unchanged. -/
def State.opAccFlagsClear (s : State) : Wrote :=
  s.opened (fun s => { s with cores := s.cores.map (fun (x : Nat × CoreSt) => (x.1, { x.2 with accSat := false })) }.acted 0x2404 2)

/-- ACC_FLAGS_CLEAR. -/
def execAccFlagsClear (s : State) : Res := done s.opAccFlagsClear.1

/-- A write of FIELD_DEFECTS_CLEAR (R65): the list becomes empty. The legend stays as it is until the next plan load (R52). -/
def State.opFieldDefectsClear (s : State) : Wrote :=
  s.opened (fun s =>
    if s.job.plan.isSome then (s, .jobLoaded)
    else { s with wafer := s.wafer.storeDefects [] }.acted 0x2104 2)

/-- FIELD_DEFECTS_CLEAR. -/
def execFieldDefectsClear (s : State) : Res := done s.opFieldDefectsClear.1

/-- A write of NV_LOG_CLEAR (R636). -/
def State.opNvLogClear (s : State) : Wrote :=
  s.opened (fun s => if s.job.plan.isSome then (s, .jobLoaded) else ({ s with log := { s.log with nv := [] } }.nvBegin s.nvImage).acted 0x4000 4)

/-- NV_LOG_CLEAR. -/
def execNvLogClear (s : State) : Res := done s.opNvLogClear.1

/-- PLOTTER_FLAGS_CLEAR (R507). -/
def State.opPlotterFlagsClear (s : State) : Wrote := s.opened (fun s => (s.clearPlotterFlags, .ok))

def execPlotterFlagsClear (s : State) : Res := done s.opPlotterFlagsClear.1

end Sys2Proof.Machine
end

