-- ==== Sys2Proof/Machine/OdTable.lean ====
section
/-!
DEFINITION. The entries of the object dictionary (R65, R81, R210, R247, R356, R395, R424, R467, R507, R543, R578, R612, R628 to R638):
one definition per group of indices. ATTEST and what follows from the whole table are in OdAll.
-/

namespace Sys2Proof.Machine

/-! ### Identity and survey: 0x1000, 0x1010 -/

def jobIdOf (s : State) : Nat := match s.job.plan with | some p => p.hdr.jobId | none => 0

def odIdentity : List OdEntry :=
  [ ro 0x1000 1 .str scFIXED "VENDOR" [] (fun _ => ascii "Rhalvaori"),
    ro 0x1000 2 .str scFIXED "PRODUCT" [] (fun _ => ascii "KW56-MA1"),
    roU16 0x1000 3 scFIXED "STEPPING" (fun _ => 0x00B0),
    ro 0x1000 4 .str scFIXED "MODULE_SERIAL" [] (fun _ => Config.moduleSerial.take 16),
    roU64 0x1000 5 scFIXED "WAFER_SERIAL" (fun _ => waferSerial),
    roU64 0x1000 6 scFIXED "MAC_BASE" (fun _ => macBase),
    roU32 0x1000 7 scFIXED "PCI_IDS" (fun _ => Config.pciIds) ]

def odSurvey : List OdEntry :=
  [ roBlob 0x1010 1 scFIXED "SURVEY" (fun _ => Config.survey.take (leAt Config.survey 0x10 4)),
    roU8 0x1010 2 scLIVE "SURVEY_STATE" (fun s => s.wafer.surveyState),
    roU16 0x1010 3 scLIVE "SURVEY_SKIPPED" (fun s => s.wafer.surveySkipped) ]

/-! ### Ports, peers and transport: 0x1100 to 0x1102 (R578) -/

/-- State of interface `i`. -/
def State.ifCode (s : State) (i : Nat) : Nat :=
  let m := s.portMode (i / 2)
  if m = 2 then 3 else if m = 0 && i % 2 = 1 then 4
  else match s.iface i with
    | .down => 0
    | .training => 1
    | .up => 2
    | .disabled => 3
    | .notPresent => 4

/-- Interface `i` in PORT_STATE: the FEC counts are measured (notes/assumptions/8.md). -/
def State.portState (s : State) (i : Nat) : List Byte :=
  let up : Bool := s.ifCode i = 2
  leBytes (s.ifCode i) 1 ++ leBytes (if !up then 0 else if s.portMode (i / 2) = 1 then 4 else 8) 1 ++ s.freeBytes (4 * i) 16

def NetCounts.bytes (c : NetCounts) : List Byte :=
  [c.sent, c.received, c.retransmissions, c.rtoExpiries, c.ceReceived, c.rxMalformed, c.rxNoBuffer, c.rxFromLost, c.rxFlowControl,
   c.rxOther, c.messagesToLost].flatMap (fun x => leBytes x 4)

def State.tablePeers (s : State) : List PeerSt := s.net.peers.filter (fun p => p.module != destModule)

/-- A peer table entry (R550). -/
def PeerSt.entry (p : PeerSt) : List Byte :=
  leBytes p.module 2 ++ leBytes ((if p.present then 1 else 0) + (if p.active then 2 else 0)) 1 ++ leBytes p.localGroup 1
    ++ leBytes p.remoteGroup 1 ++ zeros 3 ++ fit 64 p.addr

def lossNum : LossCause → Nat
  | .heartbeat => 0
  | .leave => 1
  | .noPort => 2

/-- A peer in PEER_STATE. -/
def State.peerState (s : State) (p : PeerSt) : List Byte :=
  leBytes (if p.lost then 2 else if p.contact then 1 else 0) 1
    ++ leBytes (match p.cause with | some c => Config.lossCode (lossNum c) | none => 0) 1 ++ leBytes p.srtt 4
    ++ leBytes (p.rate / 65536) 2 ++ leBytes ((s.micros - p.lastBeat) / 1000) 4

/-- A peer from its table entry. -/
def State.peerOfEntry (s : State) (e : List Byte) : PeerSt :=
  let f := leAt e 2 1
  { s.destPeer (slice e 8 64) with
    module := leAt e 0 2, present := bit f 0, active := bit f 1, localGroup := leAt e 3 1, remoteGroup := leAt e 4 1,
    rate := 65536 * s.ifaceRate (leAt e 3 1) }

def peerEntryOk (e : List Byte) : Bool :=
  e.length = 72 && leAt e 0 2 < 16384 && leAt e 2 1 < 4 && leAt e 3 1 < 4 && leAt e 4 1 < 4 && slice e 5 3 = zeros 3

/-- A write of PEER_TABLE: entries of R550 behind their header, one per module. Of the header ROWS alone is tested (DESIGN CHOICE:
notes/assumptions/23.md). -/
def State.setPeerTable (s : State) (b : List Byte) : Wrote :=
  let es := chunks 72 (b.drop 16)
  let mods := es.map (fun e => leAt e 0 2)
  if b.length < 16 || leAt b 4 2 != es.length || es.length > 16383 || !es.all peerEntryOk || mods.eraseDups.length != mods.length then (s, .valueRange)
  else ({ s with net := { s.net with peers := es.map s.peerOfEntry } }, .ok)

def State.setAddresses (s : State) (gateways : Bool) (b : List Byte) : Wrote :=
  if b.length != 64 then (s, .valueRange)
  else ({ s with net := if gateways then { s.net with gateways := b } else { s.net with groupAddresses := b } }, .ok)

/-- A write of PORT_MODES: a port whose mode changes leaves its interfaces, and those of the new mode train (R545). -/
def State.setPortModes (s : State) (v : Nat) : State :=
  let ch := (upFrom 0 32).filter (fun p => s.portMode p != field v (2 * p) 2)
  let s := { s with net := { s.net with portModes := v, ifaces := s.net.ifaces.filter (fun (x : Nat × IfState) => !ch.contains (x.1 / 2)) } }
  ch.foldl (fun t p => t.trainPort p) s

def odPorts : List OdEntry :=
  [ num 0x1100 1 .rwj scSTART "PORT_MODES" .u64 8 (fun s => s.net.portModes) (fun v => (upFrom 0 32).all (fun p => field v (2 * p) 2 != 3))
      (fun s v => s.setPortModes v),
    roBlob 0x1100 2 scLIVE "PORT_STATE" (fun s => hdr64 0 64 1 ++ (upFrom 0 64).flatMap s.portState),
    blobRw 0x1100 3 .rwj scSTART "GROUP_ADDRESSES" (fun s => s.net.groupAddresses) (fun s b => s.setAddresses false b),
    blobRw 0x1100 4 .rwj scSTART "GATEWAYS" (fun s => s.net.gateways) (fun s b => s.setAddresses true b),
    num 0x1100 5 .rwj scSTART "PEOLO_UDP_PORT" .u16 2 (fun s => s.net.udpPort) (within 1024 49151)
      (fun s v => { s with net := { s.net with udpPort := v } }),
    num 0x1100 6 .rwj scSTART "TRAFFIC_CLASSES" .u64 8 (fun s => s.net.trafficClasses)
      (fun v => (upFrom 0 8).all (fun k => field v (8 * k) 8 < 64)) (fun s v => { s with net := { s.net with trafficClasses := v } }),
    blobRw 0x1101 1 .rwj scSTART "PEER_TABLE" (fun s => hdr64 0 s.tablePeers.length 1 ++ s.tablePeers.flatMap PeerSt.entry)
      (fun s b => s.setPeerTable b),
    roBlob 0x1101 2 scLIVE "PEER_STATE" (fun s => s.tablePeers.flatMap s.peerState),
    roBlob 0x1102 1 scPLAN "TRANSPORT_COUNTS" (fun s => (upFrom 0 64).flatMap (fun i => (Tab.get NetCounts.zero s.net.counts i).bytes)) ]

/-! ### Field network and host rings: 0x1110, 0x1120 (R612) -/

/-- A write of CHART_NOTIFY_ADDR: 16 bytes. -/
def State.setNotify (s : State) (b : List Byte) : Wrote :=
  if b.length != 16 then (s, .valueRange) else ({ s with fieldNet := { s.fieldNet with notifyAddr := b } }, .ok)

/-- PLCA_NODE_ID (R597). -/
def State.nodeId (s : State) : Nat := s.reset_.slotId + 1

def FieldSt.counts (f : FieldSt) : List Byte :=
  [f.framesSent, f.framesReceived, f.requests, f.duplicates, f.authRefused, f.beaconsMissed].flatMap (fun x => leBytes x 4)

def HostSt.counts (h : HostSt) : List Byte :=
  [h.cmdsCompleted, h.doorbellOverruns, h.wdDiscarded, h.wdRefused, h.evtSkipped].flatMap (fun x => leBytes x 4)

def odField : List OdEntry :=
  [ roU8 0x1110 1 scLIVE "PLCA_NODE_ID" (fun s => s.nodeId),
    num 0x1110 2 .rw scNV "PLCA_TO_TIMER" .u8 1 (fun s => s.fieldNet.plcaToTimer) (within 1 255)
      (fun s v => { s with fieldNet := { s.fieldNet with plcaToTimer := v } }),
    blobRw 0x1110 3 .rw scNV "CHART_NOTIFY_ADDR" (fun s => s.fieldNet.notifyAddr) (fun s b => s.setNotify b),
    num 0x1110 4 .rw scNV "PRESENCE_INTERVAL" .u16 2 (fun s => s.fieldNet.presenceInterval) (within 10 1000)
      (fun s v => { s with fieldNet := { s.fieldNet with presenceInterval := v } }),
    roBlob 0x1110 5 scLIVE "FIELD_COUNTS" (fun s => s.fieldNet.counts),
    num 0x1120 1 .rw scSTART "CPL_COALESCE_COUNT" .u16 2 (fun s => s.host.coalesceCount) (within 1 4096)
      (fun s v => { s with host := { s.host with coalesceCount := v } }),
    num 0x1120 2 .rw scSTART "CPL_COALESCE_TIME" .u16 2 (fun s => s.host.coalesceTime) (within 0 10000)
      (fun s v => { s with host := { s.host with coalesceTime := v } }),
    num 0x1120 3 .rw scSTART "CMD_DRAIN_TIMEOUT" .u32 4 (fun s => s.host.drainTimeout) (within 1 60000)
      (fun s v => { s with host := { s.host with drainTimeout := v } }),
    roBlob 0x1120 4 scLIVE "HOST_COUNTS" (fun s => s.host.counts) ]

/-! ### Firmware: 0x1800 (R628) -/

def SlotState.code : SlotState → Nat
  | .empty => 0
  | .staged => 1
  | .unconfirmed => 2
  | .confirmed => 3
  | .previous => 4

def ImgSlot.bytes (x : ImgSlot) : List Byte := leBytes x.version 4 ++ fit 32 x.digest ++ leBytes x.st.code 1 ++ zeros 3

/-- BUNDLE_BITMAP: as many bytes as the bundle's chunks need. -/
def FwSt.bitmapBytes (f : FwSt) : List Byte :=
  let d := f.staging
  let n := if d.headerOk then d.total else d.bitmap.foldl (fun a c => max a (c + 1)) 0
  (upFrom 0 (ceilDiv n 8)).map (fun k =>
    BitVec.ofNat 8 ((upFrom 0 8).foldl (fun a j => a + (if d.bitmap.contains (8 * k + j) then 2 ^ j else 0)) 0))

/-- The allowance is brought up to now before the cap changes (R734). -/
def State.setRateCap (s : State) (v : Nat) : State :=
  { s with fw := { s.fw with allowance := s.fw.allowed s.micros, allowanceAt := s.micros, rateCap := v } }

def odFirmware : List OdEntry :=
  [ roU32 0x1800 1 scLIVE "FW_VERSION" (fun s => s.fw.image.version),
    roBlob 0x1800 2 scNV "FW_IMAGES" (fun s => s.fw.slot0.bytes ++ s.fw.slot1.bytes),
    ⟨0x1800, 3, .blob, .wo, scNV, "BUNDLE", [], fun _ => [], refuse⟩,
    roBlob 0x1800 4 scNV "BUNDLE_BITMAP" (fun s => s.fw.bitmapBytes),
    num 0x1800 5 .rw scNV "BUNDLE_RATE_CAP" .u32 4 (fun s => s.fw.rateCap) (within 1000 100000000) (fun s v => s.setRateCap v),
    cmd 0x1800 6 "BUNDLE_ABANDON" (fun _ s => s.opBundleAbandon),
    cmd 0x1800 7 "FW_SWAP" (fun p s => s.opFwSwap p),
    cmd 0x1800 8 "FW_CONFIRM" (fun _ s => s.opFwConfirm),
    roU32 0x1800 9 scNV "CONFIRM_REMAINING" (fun s => s.confirmLeft) ]

/-! ### Job control: 0x2000 to 0x2016 (R424, R543, R612, R629) -/

def State.ckptState (s : State) : List Byte :=
  let k := s.job.ckpt
  leBytes k.st 1 ++ leBytes k.step 4 ++ leBytes s.drained 8 ++ leBytes k.skipped 4 ++ leBytes k.lastSeq 8

def odJob : List OdEntry :=
  [ roU8 0x2000 1 scLIVE "JOB_STATE" (fun s => s.job.jobState),
    cmd 0x2000 2 "JOB_START" (fun _ s => s.opJobStart),
    roU16 0x2000 3 scPLAN "JOB_STOP_STATUS" (fun s => s.job.stopStatus),
    roU32 0x2000 4 scPLAN "JOB_STOP_EVENT" (fun s => s.job.stopEvent),
    cmdStatus 0x2000 5 "JOB_ABORT" [] (fun s => (s.action 0x2000 5).status) (fun _ s _ => s.opJobAbort),
    roU64 0x2000 6 scPLAN "JOB_ID" jobIdOf,
    roU16 0x2000 7 scPLAN "MODULE_ID" (fun s => s.moduleId),
    cmdStatus 0x2010 1 "PLAN_LOAD" [1, 8, 8] (fun s => s.job.planStatus) (fun _ s b => s.opPlanLoad (leAt b 0 1) (leAt b 1 8) (leAt b 9 8)),
    roU32 0x2010 2 scLIVE "PLAN_STATUS" (fun s => 65536 * s.job.planStatus + s.job.planDetail),
    roBlob 0x2010 3 scPLAN "PLAN_DIGEST" (fun s => match s.job.plan with | some p => p.digest | none => []),
    cmd 0x2010 4 "PLAN_UNLOAD" (fun _ s => s.opPlanUnload),
    roU32 0x2011 1 scLIVE "STEP_CURRENT" (fun s => s.stepCurrent),
    roU8 0x2011 2 scLIVE "STEP_ATTEMPT" (fun s => s.stepAttempt),
    roU32 0x2011 3 scPLAN "REPLAYS" (fun s => s.job.replays),
    roU32 0x2011 4 scLIVE "RESYNC_TARGET" (fun s => s.job.resync),
    roU32 0x2011 5 scPLAN "STEPS_ABANDONED" (fun s => s.job.abandoned),
    cmdRec 0x2012 1 "STEP_INPUT" [4, 8, 4] (fun _ s b => s.opStepInput (leAt b 0 4) (leAt b 4 8) (leAt b 12 4)),
    roBlob 0x2013 1 scLIVE "STEP_RECORDS" (fun s => s.job.rec0.head ++ s.job.rec1.head),
    cmdRec 0x2014 1 "CHECKPOINT_ARM" ([4] ++ List.replicate 16 1 ++ [2])
      (fun _ s b => s.opCheckpointArm (leAt b 0 4) (slice b 4 16) (leAt b 20 2)),
    cmd 0x2014 2 "CHECKPOINT_SEAL" (fun _ s => s.opCheckpointSeal),
    ro 0x2014 3 .record scLIVE "CHECKPOINT_STATE" [1, 4, 8, 4, 8] State.ckptState,
    cmdRec 0x2015 1 "SPARE_ADOPT" [2, 1, 8, 8] (fun _ s b => s.opSpareAdopt (leAt b 0 2) (leAt b 2 1) (leAt b 3 8) (leAt b 11 8)),
    roU8 0x2016 1 scLIVE "JOB_ROLE" (fun s => s.job.role) ]

/-! ### Wafer map: 0x2100 to 0x2104 (R64, R65) -/

/-- A logical map entry (R49). -/
def mapEntry (x : Nat × Nat) : List Byte := leBytes (2 ^ 31 + 65536 * (min x.2 255) + x.1) 4

/-- A core-state entry (R50). -/
def State.stateByte (s : State) (n : Nat) : Nat :=
  (if s.wafer.routerDown.contains n then 8 else 0)
    + (if s.wafer.dark.contains (sheetOf n) then 5
       else match s.coreStateOf n with
         | .unused => 0
         | .mapped => 1
         | .reserve => 2
         | .fenced => 3
         | .defective => 4)

def State.distanceBlob (s : State) : List Byte :=
  hdr64 s.wafer.measureCount 1344 48 ++ (upFrom 0 (1344 * 48)).flatMap (fun i => leBytes (Tab.get noDistance s.wafer.distance i) 4)

def odWafer : List OdEntry :=
  [ roU16 0x2100 1 scLIVE "MAPPABLE_CORES" (fun s => s.mappable),
    num 0x2100 2 .rwj scSTART "RESERVE_PER_SHEET" .u8 1 (fun s => s.wafer.reserve) (within 0 4)
      (fun s v => { s with wafer := { s.wafer with reserve := v } }),
    roU32 0x2100 3 scLIVE "LEGEND_EPOCH" (fun s => s.wafer.legendEpoch),
    roU16 0x2100 4 scLIVE "DEFECTIVE_CORES" (fun s => s.defects.length),
    roBlob 0x2101 1 scPLAN "LEGEND" (fun s => hdr64 s.wafer.legendEpoch s.planCores 1 ++ s.wafer.logical.flatMap mapEntry),
    roBlob 0x2102 1 scLIVE "CORE_STATE"
      (fun s => hdr64 s.wafer.legendEpoch 1344 1 ++ (upFrom 0 numCores).flatMap (fun n => leBytes (s.stateByte n) 1)),
    roBlob 0x2103 1 scLIVE "DISTANCE_TABLE" (fun s => s.distanceBlob),
    roBlob 0x2104 1 scNV "FIELD_DEFECTS" (fun s => defectBytes s.wafer.fieldSeq s.wafer.fieldDefects),
    cmd 0x2104 2 "FIELD_DEFECTS_CLEAR" (fun _ s => s.opFieldDefectsClear) ]

/-! ### Stacks: 0x2110 to 0x2112 (R356) -/

/-- A region descriptor (R318). -/
def Region.bytes128 (r : Region) : List Byte := leBytes (r.kind * 2 ^ 124 + r.stack * 2 ^ 118 + r.base * 2 ^ 80 + r.len * 2 ^ 48) 16

def StackSt.stateBytes (x : StackSt) : List Byte :=
  leBytes (if x.beyond then 2 else if x.badLines.isEmpty then 0 else 1) 1 ++ leBytes x.badLines.length 2

def StackCounts.bytes (c : StackCounts) : List Byte :=
  [c.corrected, c.uncorrectable, c.retryGood, c.mirrorFetched, c.mirrorFailed, c.innerCorrected, c.innerUncorrected, c.ledgerAdds,
   c.widenInexact].flatMap (fun x => leBytes x 4)

def odStacks : List OdEntry :=
  [ roBlob 0x2110 1 scPLAN "HBM_REGIONS" (fun s => hdr64 0 s.regions.length 1 ++ s.regions.flatMap Region.bytes128),
    roU64 0x2110 2 scFIXED "HBM_PLAN_SPACE" (fun _ => numStacks * planSpace),
    roBlob 0x2111 1 scLIVE "STACK_STATE" (fun s => (upFrom 0 numStacks).flatMap (fun k => (s.stack k).stateBytes)),
    num 0x2112 1 .rwj scSTART "SCRUB_PERIOD" .u32 4 (fun s => s.job.scrubPeriod) (fun v => v = 0 || within 3600 604800 v)
      (fun s v => { s with job := { s.job with scrubPeriod := v } }),
    num 0x2112 2 .rwj scSTART "MIRROR_TIMEOUT" .u32 4 (fun s => s.job.mirrorTimeout) (within 100 100000)
      (fun s v => { s with job := { s.job with mirrorTimeout := v } }) ]

/-! ### Fabric: 0x2120 to 0x2122 (R395) -/

def State.linkBytes (s : State) (l : Nat) : List Byte :=
  if !meshLink l then [3, 0]
  else
    let x := s.link l
    leBytes (match x.st with | .up => 0 | .selfTest => 1 | .down => 2 | .absent => 3) 1 ++ leBytes x.spares 1

/-- Channels of the segments, then the attachment links of the stations that are up in both directions. -/
def State.neatBytes (s : State) : List Byte :=
  (upFrom 0 52).flatMap (fun i => leBytes (s.neatUp (i / 2) (i % 2)).length 1)
    ++ (upFrom 0 numStations).flatMap (fun k => leBytes ((upFrom 0 6).filter (s.mesh.attachUp k)).length 1)

def RouterCounts.bytes (c : RouterCounts) : List Byte :=
  [c.crcRetries, c.selfTests, c.noRoute, c.reorderWaits, c.tableCorrected].flatMap (fun x => leBytes x 4)

def odFabric : List OdEntry :=
  [ num 0x2120 1 .rwj scSTART "VC_WEIGHTS" .u32 4 (fun s => s.fabric.vcWeights) (fun v => (upFrom 0 4).all (fun k => within 1 15 (field v (8 * k) 8)))
      (fun s v => { s with fabric := { s.fabric with vcWeights := v } }),
    num 0x2120 2 .rwj scSTART "NEAT_PENALTY" .u16 2 (fun s => s.fabric.neatPenalty) (within 0 1023)
      (fun s v => { s with fabric := { s.fabric with neatPenalty := v } }),
    num 0x2120 3 .rwj scSTART "ESCAPE_WAIT" .u16 2 (fun s => s.fabric.escapeWait) (within 8 4096)
      (fun s v => { s with fabric := { s.fabric with escapeWait := v } }),
    num 0x2120 4 .rwj scSTART "SELFTEST_TRIGGER" .u16 2 (fun s => s.fabric.selftestTrigger) (within 1 1024)
      (fun s v => { s with fabric := { s.fabric with selftestTrigger := v } }),
    roU32 0x2120 5 scLIVE "ROUTING_EPOCH" (fun s => s.fabric.epoch),
    roBlob 0x2121 1 scLIVE "ROUTING_TABLES" (fun s => hdr64 0 1344 1344
      ++ (upFrom 0 numCores).flatMap (fun n => (upFrom 0 numCores).flatMap (fun d => leBytes (s.fabric.routing.hop n d) 1))),
    roBlob 0x2121 2 scLIVE "TARGET_TABLES" (fun s => hdr64 0 1344 48
      ++ (upFrom 0 (1344 * 48)).flatMap (fun i => leBytes (Tab.get noTarget s.fabric.routing.target i) 4)),
    roBlob 0x2122 1 scLIVE "LINK_STATE" (fun s => hdr64 0 5376 1 ++ (upFrom 0 5376).flatMap s.linkBytes),
    roBlob 0x2122 2 scLIVE "NEAT_STATE" (fun s => s.neatBytes) ]

/-! ### Formats, safeguards and accumulators: 0x2400 to 0x2404 (R210, R247) -/

def State.setFmt (s : State) (f : FmtSt → FmtSt) : State := { s with fmt := f s.fmt }

/-- A layer in LAYER_FORMATS. -/
def State.layerFormat (s : State) (l : PlanLayer) : List Byte :=
  leBytes l.layer 2 ++ leBytes (Tab.get l.rung s.plotter.rung l.layer) 1 ++ leBytes l.rungCap 1
    ++ leBytes (Tab.get 0 s.plotter.lastAlarms l.layer) 2 ++ leBytes (min 65535 (Tab.get LayerCounts.zero s.plotter.counts l.layer).promotions) 2

def odFormats : List OdEntry :=
  [ num 0x2400 1 .rwj scSTART "SUBNORMAL_MODES" .u8 1 (fun s => s.fmt.subnormal) (within 0 15) (fun s v => s.setFmt (fun f => { f with subnormal := v })),
    num 0x2400 2 .rwj scSTART "GEN_MODE" .u8 1 (fun s => s.fmt.genMode) (within 0 1) (fun s v => s.setFmt (fun f => { f with genMode := v })),
    num 0x2400 3 .rwj scSTART "RANDOM_BITS" .u8 1 (fun s => s.fmt.randomBits) (fun v => v = 8 || v = 12 || v = 16)
      (fun s v => s.setFmt (fun f => { f with randomBits := v })),
    num 0x2400 4 .rwj scSTART "JOB_SEED" .u64 8 (fun s => s.fmt.jobSeed) (fun _ => true) (fun s v => s.setFmt (fun f => { f with jobSeed := v })),
    num 0x2400 5 .rwj scSTART "AMAX_HISTORY" .u8 1 (fun s => s.fmt.amaxHistory) (within 1 16) (fun s v => s.setFmt (fun f => { f with amaxHistory := v })),
    num 0x2400 6 .rwj scSTART "TENSOR_MARGIN" .u8 1 (fun s => s.fmt.tensorMargin) (within 0 3) (fun s v => s.setFmt (fun f => { f with tensorMargin := v })),
    num 0x2400 7 .rwj scSTART "TRI_RATE" .u8 1 (fun s => s.fmt.triRate) (fun v => within 0 15 v || v = 31)
      (fun s v => s.setFmt (fun f => { f with triRate := v })),
    num 0x2400 8 .rwj scSTART "TRI_THRESHOLD" .f32 4 (fun s => s.fmt.triThreshold.toNat) (within 1 0x7F7FFFFF)
      (fun s v => s.setFmt (fun f => { f with triThreshold := BitVec.ofNat 32 v })),
    num 0x2400 9 .rwj scSTART "TRI_LIMIT" .u16 2 (fun s => s.fmt.triLimit) (fun _ => true) (fun s v => s.setFmt (fun f => { f with triLimit := v })),
    num 0x2400 10 .rwj scSTART "PROMOTE_ENABLE" .u8 1 (fun s => s.fmt.promoteEnable) (within 0 1)
      (fun s v => s.setFmt (fun f => { f with promoteEnable := v })),
    roBlob 0x2401 1 scLIVE "FLUSH_FLAGS" (fun s => hdr64 0 1344 1 ++ s.perCore (fun c => leBytes (c.flush % 16) 1)),
    cmd 0x2401 2 "FLUSH_FLAGS_CLEAR" (fun _ s => s.opFlushFlagsClear),
    roBlob 0x2402 1 scPLAN "SAFEGUARD_COUNTS" (fun s => hdr64 0 1344 4
      ++ s.perCore (fun c => leBytes c.qsat 4 ++ leBytes c.qnonfinite 4 ++ leBytes c.encerr 4 ++ leBytes c.triDropped 4)),
    roBlob 0x2403 1 scPLAN "LAYER_FORMATS" (fun s => s.planLayers.flatMap s.layerFormat),
    roBlob 0x2404 1 scPLAN "ACC_COUNTS" (fun s => hdr64 0 1344 4 ++ s.perCore (fun c =>
      leBytes (if c.accSat then 1 else 0) 4 ++ leBytes c.dexitSat 4 ++ leBytes c.dexitNonfinite 4 ++ leBytes c.accCorrected 4)),
    cmd 0x2404 2 "ACC_FLAGS_CLEAR" (fun _ s => s.opAccFlagsClear) ]

/-! ### Halyards: 0x2800 to 0x2802 (R467) -/

def State.setHal (s : State) (f : HalyardSt → HalyardSt) : State := { s with halyard := f s.halyard }

def HalCounts.bytes (c : HalCounts) : List Byte :=
  [c.forwarded, c.gaps, c.skips, c.excluded, c.late, c.duplicate, c.malformed, c.orphaned, c.empty, c.downDiscarded,
   c.openPeak].flatMap (fun x => leBytes x 4)

/-- The core halyard tables of the plan: 4,096 entries of 256 bits per logical core. -/
def State.halyardTables (s : State) : List Byte :=
  match s.job.plan with
  | some p => hdr64 0 s.planCores 4096 ++ (upFrom 0 (4096 * s.planCores)).flatMap (fun i => leBytes (Tab.get 0 p.halyard i) 32)
  | none => hdr64 0 0 4096

def State.chainTable (s : State) : List Byte :=
  match s.job.plan with
  | some p => hdr64 0 p.chains.length 1 ++ p.chains.flatMap (fun c => leBytes c 32)
  | none => hdr64 0 0 1

def odHalyard : List OdEntry :=
  [ roBlob 0x2800 1 scPLAN "HALYARD_TABLES" (fun s => s.halyardTables),
    roBlob 0x2800 2 scPLAN "CHAIN_TABLE" (fun s => s.chainTable),
    num 0x2801 1 .rwj scSTART "HALYARD_MARGIN" .u8 1 (fun s => s.halyard.margin) (within 0 3) (fun s v => s.setHal (fun h => { h with margin := v })),
    num 0x2801 2 .rwj scSTART "HALYARD_CALIBRATE" .u8 1 (fun s => s.halyard.calibrate) (within 0 1)
      (fun s v => s.setHal (fun h => { h with calibrate := v })),
    num 0x2801 3 .rwj scSTART "HALYARD_DEADLINE" .u32 4 (fun s => s.halyard.deadline) (within 10 10000000)
      (fun s v => s.setHal (fun h => { h with deadline := v })),
    num 0x2801 4 .rwj scSTART "HALYARD_HOP" .u32 4 (fun s => s.halyard.hop) (within 1 1000000) (fun s v => s.setHal (fun h => { h with hop := v })),
    num 0x2801 5 .rwj scSTART "DOWNHAUL_TIMEOUT" .u32 4 (fun s => s.halyard.downTimeout) (within 1 60000)
      (fun s v => s.setHal (fun h => { h with downTimeout := v })),
    roBlob 0x2802 1 scPLAN "HALYARD_COUNTS" (fun s => (upFrom 0 4).flatMap (fun g => (Tab.get HalCounts.zero s.halyard.counts g).bytes)) ]

/-! ### Plotter: 0x2A00 to 0x2A02 (R507) -/

def State.setPlot (s : State) (f : PlotterSt → PlotterSt) : State := { s with plotter := f s.plotter }

/-- Layers whose state this module holds. -/
def State.stateLayers (s : State) : List PlanLayer := s.planLayers.filter (fun l => s.roleOf l.layer != 0)

def State.layerState (s : State) (l : PlanLayer) : List Byte :=
  leBytes l.layer 2 ++ leBytes (s.roleOf l.layer - 1) 1
    ++ (match s.placeOfLayer l.layer with | some p => s.readStack p.stack p.hdr 64 | none => zeros 64)

def LayerCounts.bytes (c : LayerCounts) : List Byte :=
  [c.updates, c.duplicates, c.stepGaps, c.skippedNonfinite, c.skippedSat, c.scheduleValue, c.missingTiles, c.zeroUpdates,
   c.gramRetries].flatMap (fun x => leBytes x 4)

def odPlotter : List OdEntry :=
  [ roBlob 0x2A00 1 scPLAN "SCHEDULE_TABLE" (fun s => match s.job.plan with | some p => p.schedule | none => []),
    roBlob 0x2A00 2 scLIVE "LAYER_STATES" (fun s => hdr64 0 s.stateLayers.length 1 ++ s.stateLayers.flatMap s.layerState),
    num 0x2A01 1 .rwj scSTART "UPDATE_WAIT" .u32 4 (fun s => s.plotter.updateWait) (within 1 60000)
      (fun s v => s.setPlot (fun p => { p with updateWait := v })),
    num 0x2A01 2 .rwj scSTART "MIRROR_INTERVAL" .u16 2 (fun s => s.plotter.mirrorInterval) (within 1 1024)
      (fun s v => s.setPlot (fun p => { p with mirrorInterval := v })),
    num 0x2A01 3 .rwj scSTART "TAKEOVER_WAIT" .u32 4 (fun s => s.plotter.takeoverWait) (within 1 60000)
      (fun s v => s.setPlot (fun p => { p with takeoverWait := v })),
    roBlob 0x2A02 1 scPLAN "PLOTTER_COUNTS"
      (fun s => s.ownedLayers.flatMap (fun l => (Tab.get LayerCounts.zero s.plotter.counts l).bytes)),
    cmd 0x2A02 2 "PLOTTER_FLAGS_CLEAR" (fun _ s => s.opPlotterFlagsClear) ]

/-! ### Power and monitors: 0x3000 to 0x3400 (R632) -/

def FeedState.code : FeedState → Nat
  | .absent => 0
  | .inRange => 1
  | .underRange => 2
  | .overRange => 3

/-- On-wafer regulators in ascending identifier. -/
def allRegs : List Nat := [1, 2, 3, 4, 5].flatMap (fun k => (upFrom 0 (regCount k)).map (regId k))

/-- A regulator's record in REGULATORS. -/
def State.regBytes (s : State) (r : Nat) : List Byte :=
  let x := s.reg r
  leBytes r 4 ++ leBytes (regPhases (regKind r)) 1 ++ leBytes x.phasesFailed 1
    ++ leBytes (if x.isolated then 3 else if x.failed then 2 else if x.phasesFailed != 0 then 1 else 0) 1 ++ zeros 1

/-- A core's reading, a sheet sensor's reading and a ring oscillator's count; without power the canonical NaN. -/
def State.coreTemp (s : State) (n : Nat) : Word32 := if s.sheetOn (sheetOf n) then Tab.get nan32 s.power.coreTemps n else nan32
def State.sheetTemp (s : State) (i : Nat) : Word32 := if s.sheetOn (i / 8) then Tab.get nan32 s.power.sheetTemps i else nan32
def State.ringCount (s : State) (i : Nat) : Nat := if s.sheetOn (i / 8) then Tab.get nan32.toNat s.power.ringOsc i else nan32.toNat

/-- The hottest reading (R632): a failed sensor's reading appears too (R680). -/
def State.tempMax (s : State) : Word32 × Nat :=
  let all := (upFrom 0 numCores).map (fun n => (s.coreTemp n, n)) ++ (upFrom 0 448).map (fun i => (s.sheetTemp i, sheetSensor i))
  all.foldl (fun (a : Word32 × Nat) x =>
    if x.1 = nan32 then a else if a.1 = nan32 || numLt a.1 x.1 then x else a) (nan32, 0)

/-- A feed in FEEDS: no current where the bus does not draw from it (R640). -/
def State.feedBytes (s : State) (f : Feed) : List Byte :=
  let x := s.power.feed f
  word32 (div32 (int32 x.mv) (int32 1000)) ++ (if s.power.drawsFrom f then s.freeWord (feedNum f) else zeros 4) ++ leBytes x.st.code 1

/-- A voltage in V lies within ±`pct` % of a voltage in mV. -/
def voltsHeld (w : Word32) (pct sp : Nat) : Bool :=
  match val32 w with
  | .fin false m e => decide ((100 - pct) * sp * 2 ^ (-e).toNat ≤ 100000 * m * 2 ^ e.toNat) && decide (100000 * m * 2 ^ e.toNat ≤ (100 + pct) * sp * 2 ^ (-e).toNat)
  | _ => false

/-- A converter is on and normal. -/
def State.convRuns (s : State) (c : Nat) : Bool := s.powered (regId 0 c) && !s.power.convFailed.contains c

/-- What an output is held at, in mV, and the percentage within which: R653 for a regulator's, R648 for a normal converter's. -/
def State.outputTarget (s : State) (r : Nat) : Option (Nat × Nat) :=
  if regKind r = 0 then (if s.convRuns (regIndex r) then some (5, 1800) else none)
  else if s.railHeld r then (s.railTarget r).map (fun sp => (3, sp)) else none

/-- A reading of an output: a free value within the bounds that hold for it (notes/assumptions/8.md). -/
def State.railVolts (s : State) (r i : Nat) : List Byte :=
  let w := s.freeWord i
  match s.outputTarget r with
  | none => w
  | some x => if voltsHeld (BitVec.ofNat 32 (leNat w)) x.1 x.2 then w else word32 (div32 (int32 x.2) (int32 1000))

/-- A converter's output current in mA: none of one that is off or failed, and each of a sheet within ±10 % of their mean, at most 200 A (R645,
R646, R648); the mean and the shares are free (notes/assumptions/8.md). -/
def State.convMilliamps (s : State) (c : Nat) : Nat :=
  let w (i n : Nat) : Nat := Config.freeNat s.freshCount / 2 ^ (32 * i) % n
  if s.convRuns c then w (c / 4) 181819 * (90 + w (numSheets + c) 21) / 100 else 0

def State.setPower (s : State) (f : PowerSt → PowerSt) : State := { s with power := f s.power }

def odPower : List OdEntry :=
  [ roU8 0x3000 1 scLIVE "POWER_STATE" (fun s => s.power.powerState),
    cmdRec 0x3000 2 "POWER_REQUEST" [1] (fun _ s b => s.opPowerRequest (leNat b)),
    ro 0x3000 3 .record scLIVE "FEEDS" [4, 4, 1, 4, 4, 1] (fun s => s.feedBytes .a ++ s.feedBytes .b),
    ro 0x3000 4 .f32 scLIVE "MODULE_POWER" [4] (fun s => word32 s.modulePower),
    ro 0x3000 5 .f32 scPLAN "POWER_PEAK" [4] (fun s => word32 s.powerPeak),
    num 0x3001 1 .rws scNV "SHEET_CURRENT_LIMIT" .u16 2 (fun s => s.power.sheetLimit) (within 900 1020)
      (fun s v => s.setPower (fun p => { p with sheetLimit := v })),
    num 0x3001 2 .rws scNV "TURN_ON_SLEW" .f32 4 (fun s => s.power.turnOnSlew.toNat) (within 0x3F000000 0x40800000)
      (fun s v => s.setPower (fun p => { p with turnOnSlew := BitVec.ofNat 32 v })),
    num 0x3001 3 .rws scNV "TURN_ON_WAIT" .u16 2 (fun s => s.power.turnOnWait) (within 1 100)
      (fun s v => s.setPower (fun p => { p with turnOnWait := v })),
    roBlob 0x3002 1 scLIVE "REGULATORS" (fun s => allRegs.flatMap s.regBytes),
    roBlob 0x3002 2 scLIVE "TIE_SWITCHES" (fun s => hdr64 0 1344 1
      ++ (upFrom 0 numCores).map (fun n => if s.power.ties.contains n then (1 : Byte) else 0)),
    roBlob 0x3002 3 scLIVE "CONVERTERS" (fun s => (upFrom 0 224).flatMap (fun c =>
      leBytes (if s.power.convFailed.contains c then 1 else 0) 1 ++ zeros 3 ++ word32 (div32 (int32 (s.convMilliamps c)) (int32 1000)))),
    roBlob 0x3400 1 scLIVE "CORE_TEMPS" (fun s => hdr64 0 1344 1 ++ (upFrom 0 numCores).flatMap (fun n => word32 (s.coreTemp n))),
    roBlob 0x3400 2 scLIVE "SHEET_TEMPS" (fun s => hdr64 0 56 8 ++ (upFrom 0 448).flatMap (fun i => word32 (s.sheetTemp i))),
    ro 0x3400 3 .record scLIVE "TEMP_MAX" [4, 4] (fun s => word32 s.tempMax.1 ++ leBytes s.tempMax.2 4),
    roBlob 0x3400 4 scLIVE "RAIL_VOLTAGES" (fun s => (((upFrom 0 224).map (regId 0) ++ allRegs).zipIdx).flatMap (fun x =>
      if s.sheetOn (regSheet x.1) || regKind x.1 = 0 then s.railVolts x.1 x.2 else word32 nan32)),
    roBlob 0x3400 5 scPLAN "DROOP_COUNTS" (fun s => hdr64 0 1344 1 ++ (upFrom 0 numCores).flatMap (fun n => leBytes (Tab.get 0 s.power.droops n) 4)),
    roBlob 0x3400 6 scLIVE "RING_OSCILLATORS" (fun s => hdr64 0 56 8 ++ (upFrom 0 448).flatMap (fun i => leBytes (s.ringCount i) 4)),
    ro 0x3400 7 .record scLIVE "COOLANT" [4, 4] (fun s => word32 s.power.inlet ++ word32 s.power.outlet),
    roU32 0x3400 8 scPLAN "THERMAL_FENCES" (fun s => s.power.thermalFences) ]

/-! ### Reset: 0x3800 (R633, R634) -/

def odReset : List OdEntry :=
  [ roU8 0x3800 1 scLIVE "STRAPS" (fun s => s.reset_.straps),
    roU8 0x3800 2 scLIVE "SLOT_ID" (fun s => s.reset_.slotId),
    roU8 0x3800 3 scLIVE "RESET_CAUSE" (fun s => s.reset_.cause),
    cmd 0x3800 4 "RESET_COLD" (fun p s => s.opReset p .cold),
    cmd 0x3800 5 "RESET_WARM" (fun p s => s.opReset p .warm),
    cmd 0x3800 6 "RESET_FABRIC" (fun _ s => s.opResetFabric),
    cmdRec 0x3800 7 "RESET_CORE" [2] (fun _ s b => s.opResetCore (leNat b)),
    roU8 0x3800 8 scNV "FAILED_STARTS" (fun s => s.reset_.failedStarts),
    cmd 0x3800 9 "DATUM_EXIT" (fun p s => s.opDatumExit p),
    roU32 0x3800 10 scLIVE "START_TIME" (fun s => s.reset_.startTime) ]

/-! ### Events and faults: 0x4000 to 0x4003 (R543, R636) -/

def eventBlob (l : List Event) : List Byte := hdr64 0 l.length 1 ++ l.flatMap Event.bytes

/-- Class A faults since plan load: what is corrected in line (R511). -/
def State.classA (s : State) : Nat :=
  let cores := s.cores.foldl (fun a (x : Nat × CoreSt) => a + x.2.accCorrected) 0
  let hbm := s.hbm.foldl (fun a (x : Nat × StackSt) => a + x.2.counts.corrected) 0
  let routers := s.fabric.counts.foldl (fun a (x : Nat × RouterCounts) => a + x.2.crcRetries + x.2.tableCorrected) 0
  let ports := s.net.counts.foldl (fun a (x : Nat × NetCounts) => a + x.2.retransmissions) 0
  min 0xFFFFFFFF (cores + s.job.sramCorrected + hbm + routers + s.fabric.tablesFixed + ports)

/-- The events that the module logs, with their classes (R541, R543); the names are those of the rules that log them. -/
def eventNames : List (String × Nat) :=
  [ ("SURVEY_DIGEST_MISMATCH", 0), ("SURVEY_MALFORMED", 0), ("FIELD_LIST_FULL", 0), ("RESERVE_SHORT", 0), ("CORE_TRAP", 4),
    ("ACC_UNCORRECTABLE", 2), ("HBM_UNCORRECTABLE", 2), ("SCRUB_UNCORRECTABLE", 0), ("BAD_LINE_MAP_FULL", 3), ("LEDGER_OVERRUN", 4),
    ("CONTROLLER_COUNTER_SATURATED", 4), ("GATHER_FAILOVER", 0), ("HALYARD_OVERFLOW", 4), ("HALYARD_ORPHANED", 0),
    ("HALYARD_MALFORMED", 0), ("HALYARD_EMPTY", 0), ("TILE_MISSING", 0), ("STEP_GAP", 0), ("UPDATE_SKIPPED", 0),
    ("SATURATION_REPLAY", 0), ("SCHEDULE_VALUE", 0), ("PLOTTER_NO_WINDOW", 0), ("ZERO_UPDATE", 0) ]
  ++ [ ("GRAM_FALLBACK", 0), ("MIRROR_PROMOTED", 0), ("OWNERSHIP_LOST", 0), ("PROMOTE_CEILING", 0), ("FORMAT_PROMOTED", 0),
    ("CLASS_B_FAULT", 2), ("CLASS_C_FAULT", 3), ("STEP_RESYNC", 0), ("MODULE_LEFT", 3), ("CHECKPOINT_COMMITTED", 0),
    ("CHECKPOINT_ABORTED", 0), ("PEER_UNKNOWN", 0), ("PEER_LOST", 0), ("PORT_UP", 0), ("PORT_DOWN", 0), ("INPUT_SLOT_BUSY", 0),
    ("PLAN_LOADED", 0), ("PLAN_LOAD_FAULT", 0), ("JOB_ABORTED", 0), ("JOB_STOPPED", 4), ("HOST_DOORBELL_OVERRUN", 0) ]
  ++ [ ("FEED_LOST", 0), ("FEED_RESTORED", 0), ("POWER_FAIL", 0), ("CONVERTER_FAILED", 0), ("RAIL_DEVIATION", 0),
    ("REG_PHASE_FAILED", 0), ("REG_FAILED", 0), ("TIE_REFUSED", 0), ("REG_SHORT", 0), ("DRAIN_LOST", 0), ("TEMP_HIGH", 0),
    ("SENSOR_FAILED", 0), ("COOLANT_RANGE", 0), ("RESET", 5), ("HOST_RESET", 5), ("FABRIC_RESET", 5), ("CORE_RESET", 5),
    ("CLK_REF_ABSENT", 0), ("TRIM_CRC", 0), ("START_TIMEOUT", 0), ("IMAGE_INVALID", 0), ("FW_FALLBACK", 0), ("BUNDLE_REJECTED", 0),
    ("CHUNK_REJECTED", 0) ]

def eventNamesBlob : List Byte :=
  eventNames.flatMap (fun x => leBytes (Config.eventCode x.1) 2 ++ leBytes x.2 1 ++ fit 31 (ascii x.1))

def odEvents : List OdEntry :=
  [ roBlob 0x4000 1 scLIVE "EVENT_LOG" (fun s => eventBlob s.log.ring),
    roBlob 0x4000 2 scNV "NV_LOG" (fun s => eventBlob s.log.nv),
    roU32 0x4000 3 scLIVE "LOG_OVERWRITTEN" (fun s => s.log.overwritten),
    cmd 0x4000 4 "NV_LOG_CLEAR" (fun _ s => s.opNvLogClear),
    roBlob 0x4001 1 scPLAN "FAULT_COUNTS" (fun s =>
      [s.classA, s.job.classB, s.job.classC, s.job.replays, s.job.realigns, s.job.sramCorrected].flatMap (fun x => leBytes x 4)),
    roBlob 0x4003 1 scFIXED "EVENT_NAMES" (fun _ => eventNamesBlob) ]

/-! ### Gazetteer: 0x5000 (R636) -/

/-- A write of GAZ_CONSUMER: it may not pass the producer (R767). -/
def State.setGazConsumer (s : State) (v : Nat) : Wrote :=
  let g := s.gaz
  if (g.producer + 2 ^ 32 - v) % 2 ^ 32 > (g.producer + 2 ^ 32 - g.consumer) % 2 ^ 32 then (s, .valueRange)
  else ({ s with gaz := { g with consumer := v } }, .ok)

/-- COUNTER_SELECT as it stands (R755). -/
def State.counterSelect (s : State) : List Byte :=
  hdr64 0 2876 8 ++ (upFrom 0 numBlocks).flatMap (fun b => (upFrom 0 8).flatMap (fun k =>
    leBytes (if k < blockCounters b then s.gaz.ctl b k else 0) 4))

def SlotTally.account (t : SlotTally) : List Byte :=
  leBytes t.retired 8 ++ leBytes t.wasted 8 ++ leBytes t.starvedFront 8 ++ leBytes t.starvedBack 8

def odGaz : List OdEntry :=
  [ num 0x5000 1 .rwj scSTART "GAZ_MODE" .u8 1 (fun s => s.gaz.mode) (within 0 2) (fun s v => { s with gaz := { s.gaz with mode := v } }),
    num 0x5000 2 .rwj scSTART "GAZ_INTERVAL" .u32 4 (fun s => s.gaz.interval) (within 100 10000000)
      (fun s v => { s with gaz := { s.gaz with interval := v } }),
    ro 0x5000 3 .record scLIVE "GAZ_RING" [1, 8, 4, 4]
      (fun s => leBytes gazRingStack 1 ++ leBytes gazRingBase 8 ++ leBytes 256 4 ++ leBytes s.gaz.producer 4),
    ⟨0x5000, 4, .u32, .rw, scSTART, "GAZ_CONSUMER", [4], fun s => leBytes s.gaz.consumer 4, fun _ s b => s.setGazConsumer (leNat b)⟩,
    blobRw 0x5000 5 .rwj scSTART "COUNTER_SELECT" (fun s => s.counterSelect) (fun s b => s.setCounterSelect b),
    ro 0x5000 6 .record scLIVE "SLOT_ACCOUNT" [8, 8, 8, 8] (fun s => s.gaz.account.account),
    roU32 0x5000 7 scPLAN "GAZ_OVERRUNS" (fun s => s.gaz.overruns) ]

/-! ### Security: 0x6000 (R636, R746); ATTEST and its report are in OdAll -/

def rootKeyBytes (s : State) (k : Nat) : List Byte := fit 32 (Config.rootKey k) ++ leBytes (if bit s.fw.revoked k then 1 else 0) 1 ++ zeros 3

/-- A write of FIELD_AUTH_KEYS: up to 4 keys, each KEY_ID and 32 bytes; not by Chart (R746). -/
def State.setAuthKeys (s : State) (path : Path) (b : List Byte) : Wrote :=
  let ks := (chunks 33 b).map (fun e => ({ id := leAt e 0 1, key := e.drop 1 } : AuthKey))
  let ids := ks.map (fun k => k.id)
  if path = .field then (s, .accessDenied)
  else if b.length % 33 != 0 || ks.length > 4 || ids.contains 0 || ids.eraseDups.length != ids.length then (s, .valueRange)
  else ({ s with fw := { s.fw with authKeys := ks } }, .ok)

def odKeys : List OdEntry :=
  [ roBlob 0x6000 1 scLIVE "ROOT_KEYS" (fun s => (upFrom 0 4).flatMap (rootKeyBytes s)),
    roU8 0x6000 2 scLIVE "ROLLBACK_COUNTER" (fun s => s.fw.rollback),
    roBlob 0x6000 3 scFIXED "IDENTITY_KEY" (fun _ => fit 32 Config.identityKey),
    roBlob 0x6000 4 scFIXED "IDENTITY_CERT" (fun _ => Config.identityCert) ]

def odAuth : List OdEntry :=
  [ ⟨0x6000, 8, .blob, .rwj, scNV, "FIELD_AUTH_KEYS", [],
      fun s => s.fw.authKeys.flatMap (fun k => leBytes k.id 1 ++ sha256 k.key), fun p s b => s.setAuthKeys p b⟩,
    roU64 0x6000 9 scNV "FIELD_AUTH_COUNTER" (fun s => s.fw.authCounter) ]

/-! ### Per-sheet entries: 0x7000 to 0x737F (R638) -/

/-- Cores of a sheet in each state: MAPPED, RESERVE, FENCED, DEFECTIVE. -/
def State.sheetCount (s : State) (k : Nat) (x : CoreState) : List Byte :=
  leBytes ((sheetCores k).filter (fun n => !s.wafer.dark.contains k && s.coreStateOf n = x)).length 1

/-- The engine status words of a core (R81). -/
def CoreSt.statusBytes (c : CoreSt) : List Byte := [c.fq, c.aq, c.vq, c.dq, c.pq].flatMap (fun q => leBytes q.statusWord 4)

def CoreSt.pennantBytes (c : CoreSt) : List Byte := (upFrom 0 32).flatMap (fun i => leBytes (Tab.get 0 c.pen i) 2)

def State.sheetMonitors (s : State) (k : Nat) : List Byte :=
  (sheetCores k).flatMap (fun n => word32 (s.coreTemp n) ++ leBytes (Tab.get 0 s.power.droops n) 4)
    ++ (upFrom (8 * k) 8).flatMap (fun i => word32 (s.sheetTemp i)) ++ (upFrom (8 * k) 8).flatMap (fun i => leBytes (s.ringCount i) 4)

/-- The update that a sheet runs: the commit step of R474 reached is 1 from its start, 2 or 3 once weights and journal are written,
4 once it has taken effect, and 6 while its mirror refresh waits. -/
def State.plotterState (s : State) (k : Nat) : List Byte :=
  match Tab.find s.plotter.running k with
  | some u => leBytes u.layer 2 ++ leBytes u.step 4 ++ leBytes (if u.stage = 0 then 1 else if u.stage = 1 then 3 else if u.stage = 2 then 4 else 6) 1
  | none => zeros 7

/-- Offset and length of a block's segment in a snapshot record (R768). -/
def segLength (b : Nat) : Nat := if b < 1344 then 104 else 8 * (blockCounters b + 1)
def segOffset (b : Nat) : Nat :=
  if b < 1344 then 64 + 104 * b else if b < 2688 then 139840 + 40 * (b - 1344) else if b < 2764 then 193600 + 72 * (b - 2688)
  else 199072 + 40 * (b - 2764)

def State.sheetCounters (s : State) (k : Nat) : List Byte :=
  ((upFrom 0 numBlocks).filter (fun b => blockSheet b = k)).flatMap (fun b => slice s.gaz.lastRecord (segOffset b) (segLength b))

def State.halyardUnit (s : State) (k : Nat) : List Byte :=
  let g := ((upFrom 0 4).find? (fun g => groupSheet g = k)).getD 0
  leBytes (s.halyard.sums.filter (fun o => o.group = g)).length 2 ++ leBytes (min 65535 (Tab.get HalCounts.zero s.halyard.counts g).openPeak) 2
    ++ leBytes (Tab.get 0 s.halyard.lastForwarded g) 4

/-- The entries of sheet `k`; the stack counts only on margin sheets, the halyard unit only on corner sheets. -/
def odSheet (k : Nat) : List OdEntry :=
  let i (j : Nat) : Nat := 0x7000 + 16 * k + j
  [ roU8 (i 0) 1 scFIXED "SHEET_CLASS" (fun _ => sheetClass k),
    roU8 (i 0) 2 scLIVE "SHEET_STATE" (fun s => if s.wafer.dark.contains k then 1 else 0),
    ro (i 0) 3 .record scLIVE "SHEET_CORES" [1, 1, 1, 1]
      (fun s => s.sheetCount k .mapped ++ s.sheetCount k .reserve ++ s.sheetCount k .fenced ++ s.sheetCount k .defective),
    roBlob (i 1) 1 scLIVE "SHEET_REGULATORS" (fun s => (allRegs.filter (fun r => regSheet r = k)).flatMap s.regBytes),
    ro (i 1) 2 .record scLIVE "GOVERNOR" [4, 4, 4]
      (fun s => let g := s.governor k; word32 (int32 g.present) ++ leBytes g.waited 4 ++ leBytes g.halfSlew 4),
    roBlob (i 2) 1 scLIVE "SHEET_MONITORS" (fun s => s.sheetMonitors k),
    roBlob (i 3) 1 scLIVE "ENGINE_STATUS" (fun s => (sheetCores k).flatMap (fun n => (s.core n).statusBytes)),
    roBlob (i 3) 2 scLIVE "PENNANTS" (fun s => (sheetCores k).flatMap (fun n => (s.core n).pennantBytes)),
    ro (i 4) 1 .record scLIVE "PLOTTER_STATE" [2, 4, 1] (fun s => s.plotterState k),
    roBlob (i 5) 1 scLIVE "SHEET_COUNTERS" (fun s => s.sheetCounters k) ]
  ++ (if sheetClass k = 1 then
      [roBlob (i 6) 1 scPLAN "STACK_COUNTS" (fun s =>
        ((upFrom 0 numStacks).filter (fun x => stackSheet x = k)).flatMap (fun x => (s.stack x).counts.bytes))] else [])
  ++ [ roBlob (i 7) 1 scPLAN "FABRIC_COUNTS"
        (fun s => (sheetCores k).flatMap (fun n => (Tab.get RouterCounts.zero s.fabric.counts n).bytes)) ]
  ++ (if sheetClass k = 2 then [ro (i 8) 1 .record scLIVE "HALYARD_UNIT" [2, 2, 4] (fun s => s.halyardUnit k)] else [])

end Sys2Proof.Machine
end

