-- ==== Sys2Proof/Machine/OdAll.lean ====
section
/-!
DEFINITION. The whole object dictionary (R613 to R615), the configuration digests (R637) and attestation (R740 to R742), and an access to an
entry by its operation (R600 to R603, R617 to R623).
-/

namespace Sys2Proof.Machine

/-! ### Attestation -/

/-- Entries that can be written and keep a value: what the dictionary digest is taken over, in ascending index and sub-index. -/
def odStored : List OdEntry :=
  (odPorts ++ odField ++ odFirmware ++ odWafer ++ odStacks ++ odFabric ++ odFormats ++ odHalyard ++ odPlotter ++ odPower ++ odGaz ++ odAuth).filter
    (fun e => e.access = .rw || e.access = .rwj || e.access = .rws)

/-- The dictionary digest (R637). -/
def State.dictionaryDigest (s : State) : List Byte :=
  sha256 (odStored.flatMap (fun e =>
    let v := e.get s
    leBytes e.index 2 ++ leBytes e.sub 1 ++ leBytes v.length 4 ++ v))

/-- CONFIG_DIGESTS (R637). -/
def State.configDigests (s : State) : List Byte :=
  fit 32 Config.surveyDigest ++ (match s.job.plan with | some p => fit 32 p.digest | none => zeros 32)
    ++ sha256 (leBytes s.reset_.straps 1) ++ s.dictionaryDigest

/-- A report up to its signature (R741, R742). -/
def State.attestReport (s : State) (nonce : List Byte) : List Byte :=
  let f := s.fw
  ascii "KWAT" ++ leBytes 1 2 ++ leBytes s.reset_.straps 1 ++ leBytes f.rollback 1 ++ leBytes waferSerial 8 ++ fit 32 nonce
    ++ leBytes f.image.version 4 ++ leBytes (f.revoked % 16) 1 ++ leBytes s.job.jobState 1 ++ leBytes s.moduleId 2
    ++ leBytes f.reportSeq 8 ++ fit 32 f.image.digest ++ fit 32 (f.slot (1 - f.running % 2)).digest ++ s.configDigests ++ zeros 64

/-- A write of ATTEST (R740). -/
def State.opAttest (s : State) (nonce : List Byte) : Wrote :=
  if s.fw.pendingReport.isSome then (s, .busy)
  else ({ s with fw := { s.fw with pendingReport := some (s.attestReport nonce) } }.actionStart 0x6000 5, .ok)

/-- ATTEST. -/
def execAttest (nonce : List Byte) (s : State) : Res := if nonce.length != 32 then .next s else done (s.opAttest nonce).1

/-- ATTEST_SIGNED (R740). -/
def execAttestSigned (s : State) : Res :=
  match s.fw.pendingReport with
  | none => .next s
  | some r =>
    let s := { s with fw := { s.fw with report := r ++ fit 7856 (Config.slhSign r), pendingReport := none,
                                        reportSeq := s.fw.reportSeq + 1 } }
    done (s.actionEnd 0x6000 5 0)

def odAttest : List OdEntry :=
  [ cmdRec 0x6000 5 "ATTEST" (List.replicate 32 1) (fun _ s b => s.opAttest b),
    roBlob 0x6000 6 scLIVE "ATTEST_REPORT" (fun s => s.fw.report),
    roBlob 0x6000 7 scLIVE "CONFIG_DIGESTS" (fun s => s.configDigests) ]

/-! ### The table -/

/-- Every entry but the directory and the entries of sub-index 0, in ascending index and sub-index from 0x1010 on. -/
def odFrom1010 : List OdEntry :=
  odSurvey ++ odPorts ++ odField ++ odFirmware ++ odJob ++ odWafer ++ odStacks ++ odFabric ++ odFormats ++ odHalyard ++ odPlotter ++ odPower
    ++ odReset ++ odEvents ++ odGaz ++ odKeys ++ odAttest ++ odAuth ++ (upFrom 0 numSheets).flatMap odSheet

/-- A directory with no contents, which stands for its own record. -/
def odDirectoryStub : OdEntry := roBlob 0x1001 1 scFIXED "OD_DIRECTORY" (fun _ => [])

/-- Sub-index 0 of an index: the highest sub-index there (R613). -/
def highest (l : List OdEntry) (index : Nat) : OdEntry :=
  let top := l.foldl (fun a e => if e.index = index then max a e.sub else a) 0
  roU8 index 0 scFIXED "HIGHEST_SUB" (fun _ => top)

/-- Each index's entry of sub-index 0 put before its others. -/
def withHighest (all : List OdEntry) : Nat → List OdEntry → List OdEntry
  | _, [] => []
  | last, e :: t => if e.index = last then e :: withHighest all last t else highest all e.index :: e :: withHighest all e.index t

def odStubbed : List OdEntry :=
  let l := odIdentity ++ odDirectoryStub :: odFrom1010
  withHighest l 0 l

/-- A directory record (R615). -/
def OdEntry.dirRecord (e : OdEntry) : List Byte :=
  leBytes e.index 2 ++ leBytes e.sub 1 ++ leBytes e.type.code 1 ++ leBytes e.access.code 1 ++ leBytes e.scope 1
    ++ leBytes (if odAvail e.index e.sub then 1 else 0) 1 ++ zeros 1 ++ fit 24 (ascii e.name)

/-- OD_DIRECTORY (R615). -/
def odDirectory : List Byte := hdr64 0 odStubbed.length 1 ++ odStubbed.flatMap OdEntry.dirRecord

/-- The entry of an index and sub-index, if the manual defines one (R614). -/
def odFind (index sub : Nat) : Option OdEntry :=
  if index = 0x1001 && sub = 1 then some (roBlob 0x1001 1 scFIXED "OD_DIRECTORY" (fun _ => odDirectory))
  else odStubbed.find? (fun e => e.index = index && e.sub = sub)

/-! ### Access (R614, R617 to R623) -/

/-- What an access answers. -/
structure Reply where
  status : Status
  body : List Byte
  deriving DecidableEq, Repr

def Reply.of (st : Status) : Reply := ⟨st, []⟩

/-- Why an entry cannot be reached now (R621), else none. -/
def State.unreachable (s : State) (index sub : Nat) : Option Status := if odAvail index sub then none else s.closed

/-- An access to an entry that exists and can be reached. -/
def State.access (s : State) (index sub : Nat) (f : OdEntry → State × Reply) : State × Reply :=
  match odFind index sub with
  | none => (s, .of .noEntry)
  | some e =>
    match s.unreachable index sub with
    | some st => (s, .of st)
    | none => f e

/-- Why the access code does not permit a write now (R17, R620), else none. -/
def State.forbidden (s : State) (a : OdAccess) : Bool :=
  match a with
  | .ro => true
  | .rw => false
  | .wo => false
  | .rwj => !s.rwj
  | .rws => s.power.powerState < 3
  | .cmd => false

/-- JOB_ABORT and the reset commands act under their own rules while an earlier action is in progress (R623). -/
def noBusyRule (index sub : Nat) : Bool :=
  (index = 0x2000 && sub = 5) || (index = 0x3800 && (sub = 4 || sub = 5 || sub = 6 || sub = 7 || sub = 9))

/-- READ (R601, R619). The free values that a read can return are drawn anew after it. -/
def State.odRead (s : State) (path : Path) (index sub : Nat) : State × Reply :=
  s.access index sub (fun e =>
    if e.access = .wo then (s, .of .accessDenied)
    else
      let t := s.drawn
      if e.type = .blob then (t, ⟨.ok, coded path .u64 [8] (leBytes (e.get s).length 8)⟩)
      else (t, ⟨.ok, coded path e.type e.readFields (e.get s)⟩))

/-- A value in little-endian form goes into an entry, or its action begins (R17, R618, R620, R623); an entry of scope NV is written in a pulse
(R691). -/
def State.odPut (s : State) (path : Path) (e : OdEntry) (v : List Byte) : Wrote :=
  if s.forbidden e.access then (s, .accessDenied)
  else if e.access = .cmd && (s.action e.index e.sub).busy && !noBusyRule e.index e.sub then (s, .busy)
  else
    let x := e.set path s v
    if e.scope = scNV && x.2 = .ok then (x.1.nvBegin s.nvImage, .ok) else x

/-- Bytes of valid UTF-8, `need` continuation bytes of the character in progress still to come; `lo` and `hi` bound the next one. -/
def utf8From : Nat → Nat → Nat → List Byte → Bool
  | 0, _, _, [] => true
  | _ + 1, _, _, [] => false
  | 0, _, _, b :: l =>
    let n := b.toNat
    if n < 0x80 then utf8From 0 0 0 l
    else if 0xC2 ≤ n && n ≤ 0xDF then utf8From 1 0x80 0xBF l
    else if 0xE0 ≤ n && n ≤ 0xEF then utf8From 2 (if n = 0xE0 then 0xA0 else 0x80) (if n = 0xED then 0x9F else 0xBF) l
    else if 0xF0 ≤ n && n ≤ 0xF4 then utf8From 3 (if n = 0xF0 then 0x90 else 0x80) (if n = 0xF4 then 0x8F else 0xBF) l
    else false
  | k + 1, lo, hi, b :: l => lo ≤ b.toNat && b.toNat ≤ hi && utf8From k 0x80 0xBF l

/-- WRITE (R17, R618, R620): the access code comes before the body (notes/assumptions/23.md). -/
def State.odWrite (s : State) (path : Path) (index sub : Nat) (body : List Byte) : State × Reply :=
  s.access index sub (fun e =>
    if s.forbidden e.access then (s, .of .accessDenied)
    else if e.type = .blob then (s, .of .malformed)
    else if e.type = .str && (body.length > 64 || !utf8From 0 0 0 body) then (s, .of .valueRange)
    else if e.type != .str && body.length != e.size then (s, .of .malformed)
    else
      let x := s.odPut path e (coded path e.type e.fields body)
      (x.1, .of x.2))

/-! ### Blocks (R602, R603, R728) -/

/-- Longest body of a message (R600). -/
def maxBody (path : Path) : Nat := if path = .field then 1024 else 4064

def State.snapshot (s : State) (client index sub : Nat) : Option Snapshot :=
  s.fieldNet.snapshots.find? (fun x => x.client = client && x.index = index && x.sub = sub)

def State.dropSnapshot (s : State) (client index sub : Nat) : State :=
  let l := s.fieldNet.snapshots.filter (fun x => !(x.client = client && x.index = index && x.sub = sub))
  { s with fieldNet := { s.fieldNet with snapshots := l } }

/-- READ_BLOCK (R602): without a snapshot, a later offset reads the entry as it stands. -/
def State.odReadBlock (s : State) (path : Path) (client index sub offset : Nat) (body : List Byte) : State × Reply :=
  s.access index sub (fun e =>
    if e.type != .blob || body.length != 2 then (s, .of .malformed)
    else if e.access = .wo then (s, .of .accessDenied)
    else
      let want := min (leNat (coded path .u16 [2] body)) (maxBody path)
      let t := s.drawn
      match (if offset = 0 then none else s.snapshot client index sub) with
      | some x =>
        let t := s.dropSnapshot client index sub
        ({ t with fieldNet := { t.fieldNet with snapshots := t.fieldNet.snapshots ++ [{ x with lastRead := s.micros }] } },
          ⟨.ok, slice x.data offset want⟩)
      | none =>
        let v := e.get s
        if offset != 0 then (t, ⟨.ok, slice v offset want⟩)
        else
          let t := t.dropSnapshot client index sub
          let x : Snapshot := { client := client, index := index, sub := sub, data := v, lastRead := s.micros }
          ({ t with fieldNet := { t.fieldNet with snapshots := t.fieldNet.snapshots ++ [x] } }, ⟨.ok, slice v 0 want⟩))

/-- The session of an entry (of a chunk, for BUNDLE). -/
def State.session (s : State) (index sub chunk : Nat) : Option Session :=
  s.fieldNet.sessions.find? (fun x => x.index = index && x.sub = sub && x.chunk = chunk)

def State.dropSession (s : State) (index sub chunk : Nat) : State :=
  let l := s.fieldNet.sessions.filter (fun x => !(x.index = index && x.sub = sub && x.chunk = chunk))
  { s with fieldNet := { s.fieldNet with sessions := l } }

/-- Bytes join a session. -/
def Session.join (x : Session) (offset : Nat) (data : List Byte) (last : Bool) (now : Nat) : Session :=
  { x with bytes := ((upFrom offset data.length).zip data).foldl (fun (t : Tab Byte) (p : Nat × Byte) => Tab.set t p.1 p.2) x.bytes,
           fin := if last then some (offset + data.length) else x.fin, last := now }

/-- The session's data, once LAST has arrived and every byte before its end has (R603). -/
def Session.whole (x : Session) : Option (List Byte) :=
  match x.fin with
  | none => none
  | some n =>
    let got := x.bytes.filter (fun (p : Nat × Byte) => p.1 < n)
    if got.length = n then some (got.map (fun p => p.2)) else none

/-- A chunk of a block write joins its session; a chunk of another client's is refused (R603). -/
def State.joinSession (s : State) (client index sub chunk offset : Nat) (data : List Byte) (last : Bool) (finish : State → List Byte → Wrote) :
    State × Reply :=
  let new : Session := { index := index, sub := sub, chunk := chunk, client := client, bytes := [], fin := none, last := 0 }
  let x := (s.session index sub chunk).getD new
  if x.client != client then (s, .of .busy)
  else
    let x := x.join offset data last s.micros
    let s := s.dropSession index sub chunk
    match x.whole with
    | some v => let w := finish s v; (w.1, .of w.2)
    | none => ({ s with fieldNet := { s.fieldNet with sessions := s.fieldNet.sessions ++ [x] } }, .of .ok)

/-- A piece of a bundle (R722, R728, R734). -/
def State.bundlePiece (s : State) (path : Path) (client offset : Nat) (data : List Byte) (last : Bool) : State × Reply :=
  let o := offset % 4096
  if o + data.length > 4096 then (s, .of .malformed)
  else
    match s.noBundle path with
    | some st => (s, .of st)
    | none =>
      match s.allow path data.length with
      | none => (s, .of .busy)
      | some s =>
        s.joinSession client 0x1800 3 (offset / 4096) o data last (fun s v =>
          if v.length != 4096 then (s, .malformed) else s.chunk path (offset / 4096) v)

/-- WRITE_BLOCK (R17, R603, R618). -/
def State.odWriteBlock (s : State) (path : Path) (client index sub offset : Nat) (data : List Byte) (last : Bool) : State × Reply :=
  s.access index sub (fun e =>
    if s.forbidden e.access then (s, .of .accessDenied)
    else if e.type != .blob then (s, .of .malformed)
    else if index = 0x1800 && sub = 3 then s.bundlePiece path client offset data last
    else if index = 0x6000 && sub = 8 && path = .field then (s, .of .accessDenied)
    else s.joinSession client index sub 0 offset data last (fun s v => s.odPut path e v))

end Sys2Proof.Machine
end

