-- ==== Sys2Proof/Machine/Chart.lean ====
section
/-!
DEFINITION. The Chart protocol (R597 to R604) with the authentication of field-network writes (R743 to R746), and its rows.
-/

namespace Sys2Proof.Machine

/-! ### Messages -/

/-- Operations (R601). -/
def opREAD : Nat := 1
def opWRITE : Nat := 2
def opREAD_BLOCK : Nat := 3
def opWRITE_BLOCK : Nat := 4
def opDISCOVER : Nat := 6

/-- FLAGS of a request. -/
def chartFlags (c : Chart) : Nat := (if c.auth.isSome then 1 else 0) + (if c.last then 2 else 0) + 4 * c.flagBits

/-- The header of a request with STATUS 0, big-endian (R600). -/
def chartHeader (c : Chart) (op : Nat) : List Byte :=
  leBytes c.version 1 ++ leBytes op 1 ++ leBytes (chartFlags c) 1 ++ zeros 1 ++ beBytes c.txn 2 ++ zeros 2 ++ beBytes c.index 2 ++ leBytes c.sub 1
    ++ zeros 1 ++ beBytes c.offset 4 ++ beBytes c.length 2 ++ zeros 2

/-- The header of a response, big-endian on the field network and little-endian on the host's paths (R600, R605): FLAGS 0, and TXN, INDEX, SUB and
OFFSET those of the request. -/
def responseHeader (c : Chart) (op : Nat) (r : Reply) : List Byte :=
  let n (v k : Nat) : List Byte := if c.path = .field then beBytes v k else leBytes v k
  leBytes 1 1 ++ leBytes (op + 128) 1 ++ zeros 2 ++ n c.txn 2 ++ n r.status.code 2 ++ n c.index 2 ++ leBytes c.sub 1 ++ zeros 1
    ++ n c.offset 4 ++ n r.body.length 2 ++ zeros 2

/-- The header has the form of R600: VERSION 1, FLAGS bits [7:2] 0, and LENGTH the bytes that follow, within the path's bound. -/
def chartFormed (c : Chart) : Bool :=
  c.version = 1 && c.flagBits = 0 && c.length = c.body.length && c.body.length ≤ maxBody c.path

/-- A DISCOVER response body in little-endian form: its fields are 8, 1, 1, 2 and 4 bytes (R601). -/
def State.discoverBody (s : State) : List Byte :=
  leBytes waferSerial 8 ++ leBytes s.nodeId 1 ++ leBytes s.job.jobState 1 ++ leBytes s.moduleId 2 ++ leBytes s.fw.image.version 4

def discoverFields : List Nat := [8, 1, 1, 2, 4]

/-! ### Authentication (R743 to R745) -/

/-- HMAC-SHA-256 (R712) under a key of at most 64 bytes. -/
def hmac (key msg : List Byte) : List Byte :=
  let k := fit 64 key
  sha256 (k.map (· ^^^ 0x5C) ++ sha256 (k.map (· ^^^ 0x36) ++ msg))

/-- A write by Chart needs a trailer, but for BUNDLE (R743). -/
def chartNeedsAuth (c : Chart) (op : Nat) : Bool :=
  c.path = .field && (op = opWRITE || op = opWRITE_BLOCK) && !(c.index = 0x1800 && c.sub = 3)

/-- Key and MAC of a trailer are valid (R744, R745). -/
def State.macOk (s : State) (c : Chart) (op : Nat) : Bool :=
  match c.auth with
  | none => false
  | some t =>
    match s.fw.authKeys.find? (fun k => k.id = t.keyId) with
    | none => false
    | some k => t.mac = hmac k.key (chartHeader c op ++ c.body ++ (leBytes t.keyId 1 ++ zeros 3 ++ beBytes t.counter 8))

def chartCounter (c : Chart) : Nat := match c.auth with | some t => t.counter | none => 0

/-! ### Serving a request -/

def State.fieldCount (s : State) (f : FieldSt → FieldSt) : State := { s with fieldNet := f s.fieldNet }

/-- The responses kept for a client: its last 32 (R604). -/
def keepResponse (l : List Kept) (k : Kept) : List Kept :=
  let own := l.filter (fun x => x.client = k.client)
  let rest := l.filter (fun x => x.client != k.client)
  rest ++ (if own.length < 32 then own else own.drop (own.length - 31)) ++ [k]

/-- The source of the module's messages on a path: the field interface has an address, the host link none (R598). -/
def pathSource (p : Path) : Option NetSource := if p = .field then some fieldSource else none

/-- A response leaves; on the field network it is kept (R604). -/
def State.respond (s : State) (c : Chart) (op : Nat) (r : Reply) : State :=
  let hd := responseHeader c op r
  let s := s.send (.chart (pathSource c.path) c.client c.txn op r.status hd r.body)
  if c.path != .field then s
  else s.fieldCount (fun f => { f with framesSent := satAdd32 f.framesSent 1,
                                       kept := keepResponse f.kept ⟨c.client, c.txn, op, r.status, hd, r.body⟩ })

/-- A write is refused for want of a valid trailer (R743). -/
def State.refuseAuth (s : State) (c : Chart) (op : Nat) : State :=
  (s.fieldCount (fun f => { f with authRefused := satAdd32 f.authRefused 1 })).respond c op (.of .authRequired)

/-- A kept response leaves again (R604). -/
def State.respondAgain (s : State) (k : Kept) : State :=
  (s.send (.chart (some fieldSource) k.client k.txn k.op k.status k.header k.body)).fieldCount
    (fun f => { f with duplicates := satAdd32 f.duplicates 1, framesSent := satAdd32 f.framesSent 1 })

/-- A counter is accepted: FIELD_AUTH_COUNTER is written in an NV pulse before the write executes (R691, R745). -/
def State.acceptCounter (s : State) (c : Chart) : State :=
  { s with fw := { s.fw with authCounter := chartCounter c } }.nvBegin s.nvImage

/-- A request on any path: on the field network the trailer, the kept responses and the counter are tested in that order (R604, R745). -/
def State.serve (s : State) (c : Chart) (op : Nat) (run : State → State × Reply) : State :=
  let answer (t : State) : State :=
    if !chartFormed c then t.respond c op (.of .malformed) else let x := run t; x.1.respond c op x.2
  if c.path != .field then answer s
  else
    let s := s.fieldCount (fun f => { f with framesReceived := satAdd32 f.framesReceived 1, requests := satAdd32 f.requests 1 })
    let needs := chartNeedsAuth c op
    if needs && !s.macOk c op then s.refuseAuth c op
    else
      match s.fieldNet.kept.find? (fun k => k.client = c.client && k.txn = c.txn) with
      | some k => s.respondAgain k
      | none =>
        if needs && chartCounter c ≤ s.fw.authCounter then s.refuseAuth c op
        else
          answer (if needs then s.acceptCounter c else s)

/-- The path of a request can be used now. -/
def State.pathUp (s : State) (path : Path) : Bool :=
  match path with
  | .field => s.awake
  | _ => s.awake && s.host.linkUp && s.hostReachable

/-- A row of the Chart protocol. -/
def chartRow (s : State) (c : Chart) (op : Nat) (run : State → State × Reply) : Res :=
  if !s.pathUp c.path then .next s else done (s.serve c op run)

/-- READ. -/
def execRead (c : Chart) (s : State) : Res := chartRow s c opREAD (fun t => t.odRead c.path c.index c.sub)

/-- WRITE. -/
def execWrite (c : Chart) (s : State) : Res := chartRow s c opWRITE (fun t => t.odWrite c.path c.index c.sub c.body)

/-- READ_BLOCK. -/
def execReadBlock (c : Chart) (s : State) : Res :=
  chartRow s c opREAD_BLOCK (fun t => t.odReadBlock c.path c.client c.index c.sub c.offset c.body)

/-- WRITE_BLOCK. -/
def execWriteBlock (c : Chart) (s : State) : Res :=
  chartRow s c opWRITE_BLOCK (fun t => t.odWriteBlock c.path c.client c.index c.sub c.offset c.body c.last)

/-- DISCOVER, sent to ff02::1 on the field network (R601). -/
def execDiscover (client txn : Nat) (s : State) : Res :=
  let c : Chart := { path := .field, client := client, txn := txn, index := 0, sub := 0, offset := 0, last := false, auth := none, body := [] }
  chartRow s c opDISCOVER (fun t => (t, ⟨.ok, swapFields discoverFields t.discoverBody⟩))

/-- SNAPSHOT_EXPIRY (R602): 10 s pass without a read. -/
def execSnapshotExpiry (client index sub : Nat) (s : State) : Res :=
  match s.snapshot client index sub with
  | none => .next s
  | some x => done ((s.until (x.lastRead + 10000000)).dropSnapshot client index sub)

/-- WRITE_SESSION_IDLE (R603): 10 s pass without a piece; of BUNDLE's sessions, the one that has waited longest. -/
def execWriteSessionIdle (index sub : Nat) (s : State) : Res :=
  match s.fieldNet.sessions.find? (fun x => x.index = index && x.sub = sub) with
  | none => .next s
  | some x => done ((s.until (x.last + 10000000)).dropSession index sub x.chunk)

/-- PRESENCE_INTERVAL (R599). -/
def execPresenceInterval (s : State) : Res :=
  if !s.awake then .next s
  else
    let s := s.until (s.fieldNet.presenceAt + 1000 * s.fieldNet.presenceInterval)
    let s := s.fieldCount (fun f => { f with presenceAt := s.micros, framesSent := satAdd32 f.framesSent 1 })
    done (s.send (.notify fieldSource s.fieldNet.notifyAddr 0 (swapFields discoverFields s.discoverBody)))

/-- PLCA_BEACON_MISSED (R597): the interface falls back to CSMA/CD, or returns to PLCA. -/
def execPlcaBeaconMissed (present : Bool) (s : State) : Res :=
  if !s.awake then .next s
  else done (s.fieldCount (fun f =>
    if present then { f with plcaUp := true } else { f with plcaUp := false, beaconsMissed := satAdd32 f.beaconsMissed 1 }))

/-- OD_WRITE (R620): the write of an entry's value, whole, from a path; a byte string is what a WRITE_BLOCK session has gathered. -/
def execOdWrite (path : Path) (index sub : Nat) (body : List Byte) (s : State) : Res :=
  if !s.pathUp path then .next s
  else
    done (s.access index sub (fun e =>
      if e.type != .blob then s.odWrite path index sub body
      else if index = 0x1800 && sub = 3 then (s, .of .malformed)
      else let x := s.odPut path e body; (x.1, .of x.2))).1

end Sys2Proof.Machine
end

