-- ==== Sys2Proof/Machine/Control.lean ====
section
/-!
DEFINITION. Control instructions (R76, R77, R82 to R84, R297 to R300), the retirement of operations (R75) and remote raises
(R91, R92).
-/

namespace Sys2Proof.Machine

/-- A control instruction takes no slot; one that raises is listed until it retires (R297). -/
def State.controlIssued (s : State) (n : Nat) (q : QName) (w : InstrWord) (key : Nat) : State :=
  let r := raiseOf w
  if r.2.1 = 0 && r.2.2.isNone then s
  else (s.enqueueOp n q w key true).drainControl n q (((s.core n).queue q).ops.length + 1)

/-- Change of a queue. -/
def State.updQueue (s : State) (n : Nat) (q : QName) (f : Queue → Queue) : State :=
  s.updCore n (fun c => c.setQueue q (f (c.queue q)))

/-- PWAIT (R298): waits until its counter covers THRESHOLD, and subtracts it unless PEEK is 1. -/
def execPwait (core : Nat) (q : QName) (s : State) : Res :=
  issue s core q 0x01 never (fun t _ _ => t)

/-- PRAISE (R299): adds INCREMENT when it retires, at its own core or at TARGET. -/
def execPraise (core : Nat) (q : QName) (s : State) : Res :=
  issue s core q 0x02 never (fun t w k => t.controlIssued core q w k)

/-- FENCE (R76, R300). -/
def execFence (core : Nat) (q : QName) (s : State) : Res :=
  issue s core q 0x03 never (fun t w k => t.controlIssued core q w k)

/-- The offset after the ENDLOOP that matches a LOOP whose body starts at `pc`; QLEN when the store holds none. -/
def skipLoop (c : CoreSt) (Q : Queue) : (fuel depth pc : Nat) → Nat
  | 0, _, _ => Q.qlen
  | f + 1, d, pc =>
    if pc ≥ Q.qlen then Q.qlen
    else
      let o := (Memory.read c.istore (16 * (Q.qbase + pc) + 15)).toNat
      if o = 0x04 then skipLoop c Q f (d + 1) (pc + 1)
      else if o = 0x05 then (if d = 0 then pc + 1 else skipLoop c Q f (d - 1) (pc + 1))
      else skipLoop c Q f d (pc + 1)

/-- LOOP on its queue: a count of 0 passes over the body; any other activates a loop (R82, R83). -/
def loopEnter (c : CoreSt) (w : InstrWord) (Q : Queue) : Queue :=
  if loopCount w = 0 then { Q with pc := skipLoop c Q (Q.qlen - Q.pc) 0 Q.pc }
  else { Q with loops := { body := Q.pc, left := loopCount w } :: Q.loops }

/-- LOOP (R82, R83, R300). -/
def execLoop (core : Nat) (q : QName) (s : State) : Res :=
  issue s core q 0x04 never
    (fun t w k => (t.updQueue core q (loopEnter (t.core core) w)).controlIssued core q w k)

/-- ENDLOOP on its queue: back to the body, or on when the last pass has run (R82). -/
def loopEnd (Q : Queue) : Queue :=
  match Q.loops with
  | [] => Q
  | l :: rest => if l.left > 1 then { Q with pc := l.body, loops := { l with left := l.left - 1 } :: rest }
    else { Q with loops := rest }

/-- ENDLOOP (R82, R83, R300). -/
def execEndloop (core : Nat) (q : QName) (s : State) : Res :=
  issue s core q 0x05 never
    (fun t w k => (t.updQueue core q loopEnd).controlIssued core q w k)

/-- A core reports its program complete when all four program queues have halted (R77). -/
def CoreSt.reports (c : CoreSt) : CoreSt :=
  { c with reported := programQueues.all (fun x => decide ((c.queue x).st = .halted)) }

/-- HALT (R77, R300): the queue stops after every earlier operation of it has retired; a queue that its own raise has trapped stays
TRAPPED (R105). -/
def execHalt (core : Nat) (q : QName) (s : State) : Res :=
  issue s core q 0x06 never
    (fun t w k => ((t.controlIssued core q w k).updQueue core q (fun Q =>
      if Q.st = .trapped then Q else { Q with st := .halted })).updCore core CoreSt.reports)

/-- The remote raises in flight from one core to another, oldest first (R92). -/
def FlightSt.raisesOf (f : FlightSt) (src dst : Nat) : List RaiseMsg := f.raises.filter (fun r => r.src = src && r.dst = dst)

/-- REMOTE_RAISE (R91, R92, R381): the nth of the remote raises from a core arrives at another; what is in order takes effect. Toward or
from a fenced core it is discarded (R96). -/
def execRemoteRaise (src : Nat) (msg : Arrived) (s : State) : Res :=
  withCore src (withCore msg.dst
    (let dst := msg.dst
     let x := arrive RaiseMsg.place (fun p (r : RaiseMsg) => { r with place := p }) (fun r => r.src = src && r.dst = dst)
       (fun r => r.dst = dst) msg.nth s.flight.raises
     let t := ({ s with flight := { s.flight with raises := x.1 } }.reorderWait dst x.2.2).landed (x.2.1.map RaiseMsg.pkt)
     if s.coreStateOf src = .fenced || s.coreStateOf dst = .fenced then done t
     else done (x.2.1.foldl (fun u r => u.raise dst r.idx r.inc none) t)))

end Sys2Proof.Machine
end

