-- ==== Sys2Proof/Machine/Engine.lean ====
section
/-!
DEFINITION. Fetch and array instructions (R109, R110, R123 to R152, R263 to R277) and the sampling of triangulated tiles
(R197 to R199).
-/

namespace Sys2Proof.Machine

/-! ### Triangulation samples -/

/-- The sampling word of R198: KEYED in every mode, OP_SEQ 2³¹ plus the MMUL's ordinal, LANE 255, SOURCE 1, DRAW 0. -/
def State.sampleWord (s : State) (n ordinal : Nat) : Nat :=
  let r := s.running.getD .free
  genWord r.seed (({ seed := r.seed, hi := r.step, lo := 2 ^ 31 + ordinal, module := s.moduleId,
                     logical := (s.logicalOf n).getD 0, source := 1, free := false } : DrawKey).counter 255 0)

/-- The layer whose triangulation entry covers an MMUL of a core, by ordinal (R198). -/
def State.triLayer (s : State) (n ordinal : Nat) : Option PlanLayer :=
  match s.logicalOf n with
  | some l => s.planLayers.find? (fun x => x.tri.tiles.any (fun t => t.core = l && t.ordinal = ordinal))
  | none => none

/-- The row that a sampled tile copies: tile row m of an MMUL as values (R199, R201, R226). -/
def sampledRow (modes : Nat) (c : CoreSt) (f : MmulF) (m : Nat) : List Word32 :=
  let r := f.base + m * f.w
  (upFrom 0 f.n).map (fun j =>
    (readFmt modes (if isIntPair f.wf then 1 else if f.w = 2 then 2 else 0) (c.accGet r j)
      (if f.w = 2 then c.accGet (r + 1) j else 0)).1)

/-- An MMUL's rows have all entered: its tile is sampled when the low k bits of the sampling word are 0 (R197, R198). -/
def State.sampleTile (s : State) (n : Nat) (w : InstrWord) : State :=
  let f := mmulF w
  let ord := (s.core n).mmulCount - 1
  match s.triLayer n ord with
  | none => s
  | some l =>
    let k := l.tri.rate.getD s.fmt.triRate
    let word := s.sampleWord n ord
    if f.wf = 0 || k = 31 || f.m = 0 || f.n = 0 || word % 2 ^ k != 0 then s
    else s.updCore n (fun c => { c with tri := c.tri ++
      [{ layer := l.layer, ordinal := ord, wf := f.wf, af := f.af, n := f.n, m := field word 32 16 % f.m,
         row := sampledRow s.fmt.subnormal c f (field word 32 16 % f.m) }] })

/-! ### The pump -/

/-- Rows that count RETIRED add K·N each to MACS_RETIRED, two of them in a cycle that carries two (R121, R756); `cycles` is how many
cycles of the array input they took. -/
def State.countMacs (s : State) (n qual : Nat) (f : MmulF) (rows cycles : Nat) : State :=
  if isDouble f.wf f.af then
    (s.count n evMACS qual (2 * (f.k * f.n)) (rows - cycles)).count n evMACS qual (f.k * f.n) (2 * cycles - rows)
  else s.count n evMACS qual (f.k * f.n) rows

/-- Fetch and the array of a core run on as far as they can (R69, R109, R110). -/
def State.pumpCore (s : State) (n : Nat) : State :=
  let c := s.core n
  let x := c.pump s.fmt.subnormal pumpFuel 0
  let s1 := s.setCore n x.1
  match c.mmulRun with
  | none => s1
  | some r =>
    let s2 := s1.countMacs n 2 (mmulF r.word) x.2.2 (x.1.tally.sub c.tally).retired
    match x.2.1 with
    | .form => s2.trap n .array cOPERAND_FORM
    | .bad row pair => s2.accBad n row pair
    | .ok => if x.1.mmulRun.isNone then s2.sampleTile n r.word else s2

/-- The Plotter queue's array operations of a core run on as far as they can (R98, R102, R103); its rows count in PLOTTER_ROWS of its
sheet. -/
def State.pumpPlotter (s : State) (n : Nat) : State :=
  let c := s.core n
  let x := c.pumpPlot s.fmt.subnormal pumpFuel 0
  let s1 := s.setCore n x.1
  match c.plotRun with
  | none => s1
  | some r =>
    let s2 := (s1.countMacs n 16 (mmulF r.word) x.2.2 (x.1.tally.sub c.tally).retired).count (blkPlotter (sheetOf n)) evPLOTTER_ROWS 0 1 x.2.2
    match x.2.1 with
    | .bad row pair => s2.accBad n row pair
    | _ => s2

/-! ### Fetch instructions -/

/-- FLOAD and FCONV after issue: the descriptor is read, and the rows move into staging (R109, R273). -/
def State.startFload (s : State) (n : Nat) (q : QName) (w : InstrWord) (key : Nat) : State :=
  if (floadF w).m = 0 then s.enqueueOp n q w key true
  else
    let s := s.enqueueOp n q w key false
    (s.updCore n (fun c => { c with floadRun := c.floadRun ++
      [{ word := w, desc := Memory.readN c.act (floadF w).desc 64, row := 0, key := key }] })).pumpCore n

/-- FLOAD (R266 to R274). -/
def execFload (core : Nat) (q : QName) (s : State) : Res :=
  issue s core q 0x10 never (fun t w k => t.startFload core q w k)

/-- FCONV (R144 to R149, R266 to R274). -/
def execFconv (core : Nat) (q : QName) (s : State) : Res :=
  issue s core q 0x11 never (fun t w k => t.startFload core q w k)

/-- FWGT (R70, R98, R102, R110, R263 to R265): loads the shadow set once MSWAP has promoted it; of the Plotter queue, the Plotter set. -/
def execFwgt (core : Nat) (q : QName) (s : State) : Res :=
  issue s core q 0x12 never (fun t w k =>
    let t := t.enqueueOp core q w k false
    if q = .plotter then (t.updCore core (fun c => { c with plotFwgt := c.plotFwgt ++ [(w, k)] })).pumpPlotter core
    else (t.updCore core (fun c => { c with fwgtWait := c.fwgtWait ++ [(w, k)] })).pumpCore core)

/-! ### Array instructions -/

/-- MMUL after issue (R123 to R152); with K = 0 and N = 0 it retires at once (R153; DEDUCED: notes/assumptions/36.md). -/
def State.startMmul (s : State) (n : Nat) (q : QName) (w : InstrWord) (key : Nat) : State :=
  let f := mmulF w
  let s := s.updCore n (fun c => { c with mmulCount := c.mmulCount + 1 })
  if f.m = 0 ∨ f.n = 0 then s.enqueueOp n q w key true
  else if f.k = 0 then
    match mmulZeroRows f (upFrom 0 f.m) (s.core n) with
    | .ok c => ((s.setCore n c).enqueueOp n q w key true).sampleTile n w
    | .bad c row pair => ((s.setCore n c).enqueueOp n q w key false).accBad n row pair
  else ((s.enqueueOp n q w key false).updCore n (fun c => { c with mmulRun := some { word := w, row := 0, key := key } })).pumpCore n

/-- A Plotter MMUL after issue: its rows use the Plotter weight set, come from the Plotter staging slot, and are no tile of the array
queue (R98, R103, R198). -/
def State.startPlotMmul (s : State) (n : Nat) (w : InstrWord) (key : Nat) : State :=
  let f := mmulF w
  if f.m = 0 ∨ f.n = 0 then s.enqueueOp n .plotter w key true
  else if f.k = 0 then
    match mmulZeroRows f (upFrom 0 f.m) (s.core n) with
    | .ok c => (s.setCore n c).enqueueOp n .plotter w key true
    | .bad c row pair => ((s.setCore n c).enqueueOp n .plotter w key false).accBad n row pair
  else ((s.enqueueOp n .plotter w key false).updCore n (fun c =>
    { c with plotRun := some { word := w, row := 0, key := key } })).pumpPlotter n

/-- MMUL (R98, R256, R275, R276). -/
def execMmul (core : Nat) (q : QName) (s : State) : Res :=
  issue s core q 0x20 never (fun t w k =>
    if q = .plotter then t.startPlotMmul core w k else t.startMmul core q w k)

/-- MSWAP (R70, R277). Of the Plotter queue it moves nothing: R98 has one Plotter weight set, and FWGT loads it
(DEDUCED: notes/assumptions/16.md). -/
def execMswap (core : Nat) (q : QName) (s : State) : Res :=
  issue s core q 0x21 never (fun t w k =>
    let t := t.enqueueOp core q w k true
    if q = .plotter then t else (t.updCore core CoreSt.swapSets).pumpCore core)

end Sys2Proof.Machine
end

