-- ==== Sys2Proof/Machine/Exit.lean ====
section
/-!
DEFINITION. The gradient exit: DEXIT's conversion (R230 to R240), its codes (R425, R426, R446), merging inside the wafer (R442 to
R445, R796), the own partial at the halyard unit (R447) and the gradient ledger (R343 to R349).
-/

namespace Sys2Proof.Machine

/-! ### Codes -/

/-- DEXIT_CODES_READY (R446): Dispatch holds the codes of the DEXIT in front of its queue. -/
def execDexitCodesReady (core : Nat) (s : State) : Res :=
  withCore core
    (let c := s.core core
     let w := c.fetch .dispatch
     if c.dq.st = .idle || c.dq.pc ≥ c.dq.qlen || opcodeOf w != 0x43 || c.codes.isSome then .next s
     else
       match s.codeRange core (dexitF w).htab with
       | none => .next s
       | some (k, a, len) =>
         if s.stackFull k then .next s else
         let r := s.readHbm k a len (.dload core)
         match r.2 with
         | some d => done (r.1.updCore core (fun c => { c with codes := some (d.map (fun b => b.toNat)) }))
         | none => done r.1)

/-! ### Conversion -/

/-- E_b (R425, R426). -/
def blockExpOf (e : HalEntry) (mu code : Nat) : Int := if code = 0 then e.eDefault else (code : Int) - 127 + mu

/-- μ of an entry (R439). -/
def HalEntry.mu (e : HalEntry) (dflt : Nat) : Nat := if e.margin = 4 then dflt else e.margin

/-- The value of a DEXIT entry (R227, R232), with the flush. -/
def dexitValue (modes : Nat) (c : CoreSt) (f : DexitF) (i j : Nat) : Fp × Flushes :=
  if f.efmt = 1 then
    let x := (c.accGet (f.base + i) j).toInt
    (.fin (decide (x < 0)) x.natAbs f.toff, 0)
  else
    let v := if f.efmt = 2 then readFmt modes 2 (c.accGet (f.base + 2 * i) j) (c.accGet (f.base + 2 * i + 1) j)
      else readFmt modes 0 (c.accGet (f.base + i) j) 0
    (val32 v.1, v.2)

/-- Contribution q of a value, with what it counts as a saturation and as non-finite (R233 to R235). -/
def contribOf (rnd : Rnd) (eb : Int) (v : Fp) : Int × Nat × Nat :=
  match v with
  | .fin neg m e =>
    let q := roundAt rnd m (e + (22 - eb)) 0
    if q > 8388607 then (sgn neg 8388607, 1, 0) else (sgn neg q, 0, 0)
  | _ => (0, 0, 1)

/-- A_b of a block's values (R236). -/
def amaxCode (l : List Fp) : Nat :=
  let a := amaxOf l
  if a.1 = 0 then 0 else (clampInt 1 254 (floorLog2 a.1 a.2 + 127)).toNat

/-- Block b of a DEXIT (R231, R233 to R237); a calibration pass sends its code and counts without words (R430). -/
def dexitBlock (modes : Nat) (c : CoreSt) (f : DexitF) (r : LaneRnd) (eb : Int) (words : Bool) (b : Nat) : DexBlock × Flushes :=
  let rows := upFrom (8 * b) (min 8 (f.m - 8 * b))
  let vs := rows.map (fun i => (i, (upFrom 0 f.n).map (fun j => (j, dexitValue modes c f i j))))
  let qs := vs.map (fun x => x.2.map (fun y => contribOf (r.at (128 + y.1) x.1 x.1 0) eb y.2.1))
  let flat := qs.flatten
  let last : Bool := 8 * b + 8 ≥ f.m
  ({ idx := b, code := amaxCode (vs.flatMap (fun x => x.2.map (fun y => y.2.1))),
     sat := (flat.map (fun q => q.2.1)).foldl (· + ·) 0,
     nonfin := (flat.map (fun q => q.2.2)).foldl (· + ·) 0,
     rows := if words then qs.map (fun x => x.map (fun q => q.1)) else [],
     contribs := if last then 1 else 0, tokens := if last then f.tokens else 0, last := last },
    (vs.flatMap (fun x => x.2.map (fun y => y.2.2))).foldl orFlush 0)

/-! ### DEXIT -/

/-- Discarded, logged, and the job stops with PLAN_FAULT (R349). -/
def State.ledgerOverrun (s : State) (k tile : Nat) : State :=
  (s.event "LEDGER_OVERRUN" clsPROGRAM srcStack k [tile]).askStop stPLAN_FAULT

/-- Where the blocks of a DEXIT go (R345, R442, R447). -/
def State.dexitDest (s : State) (n : Nat) (f : DexitF) (e : HalEntry) (tile : Nat) : Option ContribDest :=
  if e.nextKind = 0 then some (.core (s.phys e.nextCore))
  else if e.nextKind = 1 then (s.chainEntry e.chain).map (fun c => .unit c.group)
  else (s.ledgerTile ((s.logicalOf n).getD 0) f.htab (tile - e.tileFirst)).bind (fun t =>
    (s.regions[t.region]?).map (fun r => .ledger r.stack))

/-- The words of a block as its flits carry them: 48 bits between cores and to a halyard unit (R442). -/
def DexBlock.data (b : DexBlock) : List Byte := (b.rows.flatten).flatMap (fun w => leBytes ((w % 2 ^ 48).toNat) 6)

/-- Virtual channel of contributions: VC3 between cores and to a ledger, VC4 to a halyard unit (R345, R442, R447). -/
def ContribDest.vc : ContribDest → Nat
  | .unit _ => 4
  | _ => 3

/-- A message in flight takes further blocks, when it is the one of a tile for a ledger that still lacks blocks (R347). -/
def joinContrib (m : ContribMsg) : List ContribMsg → List ContribMsg
  | [] => [m]
  | x :: l =>
    if (match m.dest with | .ledger _ => true | _ => false) && { x with blocks := [], pkts := [] } = { m with blocks := [], pkts := [] }
        && !x.blocks.any (fun b => b.last) then
      { x with blocks := x.blocks ++ m.blocks, pkts := x.pkts ++ m.pkts } :: l
    else x :: joinContrib m l

/-- Blocks leave a core for a destination, each in a packet of its own (R359, R442); without a route they are discarded (R386). -/
def State.sendBlocks (s : State) (n htab : Nat) (e : HalEntry) (tile : Nat) (dest : ContribDest) (blocks : List DexBlock) : State :=
  let data := blocks.map DexBlock.data
  let go (dst : Nat) (track : List (Nat × Nat)) (t : State) : State :=
    let m : ContribMsg := { src := n, dest := dest, htab := htab, layer := e.layer, tile := tile, chain := e.chain,
                            step := t.stepCurrent, attempt := t.stepAttempt, round := if t.job.calibrating then 0 else 1,
                            m := e.m, n := e.n, blocks := blocks, pkts := t.packets n dest.vc n dst track data }
    let t := t.numbered n dest.vc data.length
    { t with flight := { t.flight with contribs := joinContrib m t.flight.contribs } }
  match dest with
  | .core d => s.routed n d data.length (go d [])
  | .unit g => s.toTarget n (44 + g) 4 data.length go
  | .ledger k => s.toTarget n k 3 data.length go

/-- Two blocks with the same index added (R433, R435, R444). -/
def DexBlock.add (a b : DexBlock) : DexBlock :=
  { idx := a.idx, code := max a.code b.code, sat := satAdd16 a.sat b.sat, nonfin := satAdd16 a.nonfin b.nonfin,
    rows := zipAdd (zipAdd (fun x y => word48 (x + y))) a.rows b.rows, contribs := a.contribs + b.contribs,
    tokens := a.tokens + b.tokens, last := a.last }

/-- First byte of a slot of a merge area: as many bytes as 8 rows of N words take, in 64-byte units (R439, R443; DESIGN CHOICE:
notes/assumptions/11.md). -/
def HalEntry.slotAddr (e : HalEntry) (k : Nat) : Nat := 64 * e.mergeAddr + k * (64 * ceilDiv (48 * e.n) 64)

/-- Bytes of the stream buffer, addresses past its end counted from its start. -/
def CoreSt.sbufWrite (c : CoreSt) (a : Nat) (l : List Byte) : CoreSt :=
  CoreSt.renewSram { c with sbuf := (l.zip (upFrom a l.length)).foldl (fun m x => Memory.write m (x.2 % memBytes true) x.1) c.sbuf }
    memSbuf (a % memBytes true) l.length

def CoreSt.sbufRead (c : CoreSt) (a n : Nat) : List Byte := (upFrom a n).map (fun i => Memory.read c.sbuf (i % memBytes true))

/-- The words of a block, as its merge slot holds them (R442, R443). -/
def CoreSt.mergeWords (c : CoreSt) (u : MergeBlk) : List (List Int) :=
  (upFrom 0 u.rows).map (fun i => (upFrom 0 u.cols).map (fun j => signed (leNat (c.sbufRead (u.addr + 6 * (u.cols * i + j)) 6)) 48))

/-- What the merge area of a DEXIT holds for its block: the oldest block there when that is for another layer or tile, else the one with
the block's index (R444, R796). -/
def CoreSt.mergeHead (c : CoreSt) (p : DexPend) (idx : Nat) : Option MergeBlk :=
  match c.merge.find? (fun x => x.htab = p.htab) with
  | none => none
  | some u =>
    if u.layer != p.layer || u.tile != p.tile then some u
    else c.merge.find? (fun x => x.htab = p.htab && x.layer = p.layer && x.tile = p.tile && x.blk.idx = idx)

/-- The next block of the core's oldest waiting DEXIT is merged with its upstream block, if that has arrived, and sent on (R444);
a block of another layer or tile is discarded and stops the job (R796). -/
def State.mergeStep (s : State) (n : Nat) : Option State :=
  let c := s.core n
  match c.dexits with
  | [] => none
  | p :: rest =>
    match p.blocks with
    | [] => none
    | b :: bs =>
      match c.mergeHead p b.idx with
      | none => none
      | some u =>
        let s := s.setCore n { c with merge := c.merge.erase u }
        if u.layer != p.layer || u.tile != p.tile then
          some ((s.event "HALYARD_MALFORMED" clsPROGRAM srcCore n [p.layer, p.tile]).askStop stPLAN_FAULT)
        else
          let up := { u.blk with rows := c.mergeWords u }
          let d := match s.entryOf n p.htab with
            | some e => (s.dexitDest n { base := 0, m := p.m, n := p.n, efmt := 0, toff := 0, rmode := 0, rbits := 0, ledger := false,
                                          htab := p.htab, tokens := 0 } e p.tile).map (fun d => (e, d))
            | none => none
          match d with
          | none => some s
          | some (e, dest) =>
            let s := s.sendBlocks n p.htab e p.tile dest [b.add up]
            if bs.isEmpty then
              let s := s.updCore n (fun c => { c with dexits := rest })
              some (if b.last then s.finishOp n .dispatch p.key else s)
            else some (s.updCore n (fun c => { c with dexits := { p with blocks := bs } :: rest }))

/-- Merging goes on while upstream blocks are there. -/
def State.mergeAll (s : State) (n : Nat) : Nat → State
  | 0 => s
  | f + 1 => match s.mergeStep n with | some t => t.mergeAll n f | none => s

/-- The blocks of a DEXIT's tile from what its rows hold, the flushes, and the index past the last whole block: all of them, or, when
accumulator row `bad` cannot be read, what the rows before it come to (R230, R234, R235, R245). -/
def State.exitBlocks (s : State) (n : Nat) (x : VcWait) (e : HalEntry) (bad : Option Nat) : List (DexBlock × Flushes) × Nat :=
  let f := dexitF x.word
  let r : LaneRnd := { mode := f.rmode, bits := rbitsOf s.fmt.randomBits f.rbits, key := s.drawKey n x.seq 0 }
  let rows := match bad with
    | some row => (row - f.base) / (if f.efmt = 2 then 2 else 1)
    | none => f.m
  ((upFrom 0 (ceilDiv rows 8)).map (fun b =>
    dexitBlock s.fmt.subnormal (s.core n) { f with m := if 8 * b + 8 ≤ rows then f.m else rows } r
      (blockExpOf e (e.mu s.halyard.margin) (x.codes.getD b 0)) (!s.job.calibrating) b),
   if bad.isSome then rows / 8 else ceilDiv rows 8)

/-- The DEXIT converts its rows and hands its blocks on, or merges them with its upstream blocks (R230 to R240, R442, R444). From a row
that cannot be read on it stays unfinished (R245). -/
def State.exitNow (s : State) (n : Nat) (x : VcWait) : State :=
  let f := dexitF x.word
  match s.entryOf n f.htab with
  | none => s
  | some e =>
    match s.dexitDest n f e x.tile with
    | none => s.ledgerOverrun 0 x.tile
    | some dest =>
      let wpr := if f.efmt = 2 then 2 else 1
      let scan := (s.core n).accScan f.base (f.m * wpr) wpr f.n
      let s := (s.count n evACC_READS 0 1 f.m).updCore n (fun c => c.addCorrected scan.1)
      let bs := s.exitBlocks n x e (scan.2.map (fun p => p.1))
      let all := bs.1.map (fun y => y.1)
      let s := s.updCore n (fun c => (c.addFlush (bs.1.foldl (fun a y => orFlush a y.2) 0)).addDexit
        ((all.map (fun b => b.sat)).foldl (· + ·) 0) ((all.map (fun b => b.nonfin)).foldl (· + ·) 0))
      let rows := match scan.2 with | some p => (p.1 - f.base) / wpr | none => f.m
      let s := s.drew n { mode := f.rmode, bits := rbitsOf s.fmt.randomBits f.rbits, key := s.drawKey n x.seq 0 } f.n rows rows
      let blocks := all.take bs.2
      let s :=
        if e.upstream then
          (s.updCore n (fun c => { c with dexits := c.dexits ++
            [{ htab := f.htab, layer := e.layer, tile := x.tile, m := e.m, n := e.n, blocks := blocks, key := x.key }] })).mergeAll n
            (blocks.length + 1)
        else s.sendBlocks n f.htab e x.tile dest blocks
      match scan.2 with
      | some p => s.accBad n p.1 p.2
      | none => if e.upstream then s else s.finishOp n .dispatch x.key

/-- The Dispatch operations that wait for VC4 credits go on in their order as far as there are any (R111, R242). -/
def State.runVc4 (s : State) (n : Nat) : Nat → State
  | 0 => s
  | fuel + 1 =>
    match (s.core n).vc4 with
    | [] => s
    | x :: rest =>
      if s.vc4Full n x.word then s
      else
        let s := s.updCore n (fun c => { c with vc4 := rest })
        (if opcodeOf x.word = 0x43 then s.exitNow n x
         else (s.sendData n x.word x.key).finishOp n .dispatch x.key).runVc4 n fuel

/-- An operation joins those that wait for VC4 credits. -/
def State.waitVc4 (s : State) (n : Nat) (x : VcWait) : State :=
  let s := s.updCore n (fun c => { c with vc4 := c.vc4 ++ [x] })
  s.runVc4 n (s.core n).vc4.length

/-- DEXIT after issue (R230, R436, R437, R446). -/
def State.startDexit (s : State) (n : Nat) (q : QName) (w : InstrWord) (key : Nat) : State :=
  let f := dexitF w
  let c := s.core n
  let s := ((s.enqueueOp n q w key false).updCore n (fun c => { c with codes := none })).tableRead (.halyard n f.htab)
  match s.entryOf n f.htab with
  | none => s
  | some e =>
    let tile := e.tileAt (Tab.get 0 c.dexitCount f.htab)
    let s := s.updCore n (fun c => { c with dexitCount := Tab.upd 0 c.dexitCount f.htab (· + 1) })
    let x : VcWait := { word := w, key := key, codes := c.codes.getD [], seq := (((s.core n).queue q).opSeq + 2 ^ 31 - 1) % 2 ^ 31, tile := tile }
    if s.entryFaulty e then s.ledgerOverrun 0 tile
    else if e.nextKind = 1 then s.waitVc4 n x
    else s.exitNow n x

/-- DEXIT (R71, R230 to R243, R294, R436 to R447). -/
def execDexit (core : Nat) (q : QName) (s : State) : Res :=
  issue s core q 0x43 (fun w => (dexitF w).rmode = 2) (fun t w k =>
    t.startDexit core q w k)

/-- DSEND (R71, R288 to R291): its data leaves at once, but on VC4 waits for credits (R111). -/
def execDsend (core : Nat) (q : QName) (s : State) : Res :=
  issue s core q 0x40 never (fun t w k =>
    if (dsendF w).vc = 4 then
      (t.enqueueOp core q w k false).waitVc4 core { word := w, key := k, codes := [], seq := 0, tile := 0 }
    else (t.enqueueOp core q w k true).sendData core w k)

/-- OPERATION_RETIRE (R75, R87): the oldest operation of the queue retires, when it is finished, and raises its pennant; Dispatch
operations that have waited for VC4 credits go on first. -/
def execOperationRetire (core : Nat) (q : QName) (s : State) : Res :=
  withCore core
    (let s := if q = .dispatch then s.runVc4 core (s.core core).vc4.length else s
     done (s.retireOp core q))

/-! ### Arrivals -/

/-- The slot of a core's merge area that the first block of a message takes is free (R443). -/
def State.slotFree (s : State) (core : Nat) (m : ContribMsg) : Bool :=
  match s.entryOf core m.htab, m.blocks.head? with
  | some e, some b => e.mergeSlots != 0 && !(s.core core).merge.any (fun x => x.htab = m.htab && x.blk.idx % e.mergeSlots = b.idx % e.mergeSlots)
  | _, _ => false

/-- The next message with blocks for a core's merge area: of the oldest ones of each sender and entry, the first whose slot is free: without
its slot's credit a block does not leave its sender, and holds back none of another sender or entry (R442, R443). -/
def State.nextMerge (s : State) (core : Nat) : List (Nat × Nat) → List ContribMsg → Option ContribMsg
  | _, [] => none
  | seen, m :: l =>
    if m.dest != .core core || m.blocks.isEmpty || seen.contains (m.src, m.htab) then s.nextMerge core seen l
    else if s.slotFree core m then some m
    else s.nextMerge core ((m.src, m.htab) :: seen) l

/-- HALYARD_MERGE_BLOCK (R442 to R444, R796): the next block on its way to a core enters slot b mod MERGE_SLOTS of its merge area, and merging
goes on as far as blocks are there. -/
def execHalyardMergeBlock (core : Nat) (s : State) : Res :=
  withCore core
    (match s.nextMerge core [] s.flight.contribs with
    | none => .next s
    | some m =>
      match s.entryOf core m.htab, m.blocks.head? with
      | some e, some b =>
        let l := match m.blocks with
          | _ :: [] => s.flight.contribs.erase m
          | _ => s.flight.contribs.map (fun x => if x = m then { x with blocks := x.blocks.drop 1, pkts := x.pkts.drop 1 } else x)
        let s := { s with flight := { s.flight with contribs := l } }.landed (m.pkts.take 1)
        let u : MergeBlk := { htab := m.htab, layer := m.layer, tile := m.tile, addr := e.slotAddr (b.idx % e.mergeSlots), rows := b.rows.length,
                              cols := (b.rows.headD []).length, blk := { b with rows := [] } }
        let s := s.updCore core (fun c => { c.sbufWrite u.addr b.data with merge := c.merge ++ [u] })
        done (s.mergeAll core (s.core core).merge.length)
      | _, _ => .next s)

/-- HALYARD_OWN_PARTIAL (R447, R449, R450, R455, R458): the last block of the module's own partial has been written at the halyard
unit; at its bound the unit takes none. -/
def execHalyardOwnPartial (group layer tile step : Nat) (s : State) : Res :=
  withGroup group
    (let here (m : ContribMsg) : Bool := decide (m.dest = .unit group) && m.layer = layer && m.tile = tile && m.step = step
     let mine (m : ContribMsg) : Bool := here m && (s.flight.contribs.find? here).map (fun x => x.round) = some m.round
     let ms := s.flight.contribs.filter mine
     let bs := ms.flatMap (fun m => m.blocks)
     match ms.head? with
     | none => .next s
     | some m =>
       if bs.length < ceilDiv m.m 8 || !s.unitTakes (s.unitOf group m.chain) then .next s
       else
         let s := { s with flight := { s.flight with contribs := s.flight.contribs.filter (fun x => !mine x) } }.landed (ms.flatMap ContribMsg.pkts)
         done (s.ownComplete layer tile step m.round m.chain m.m m.n (ownOfBlocks bs)))

/-! ### Ledger (R343 to R349) -/

/-- First byte and stack of a ledger tile. -/
def State.ledgerPlace (s : State) (t : LedgerTile) : Nat × Nat :=
  match s.regions[t.region]? with
  | some r => (r.stack, r.start + 64 * t.offset)
  | none => (0, 0)

/-- The header area of a ledger tile (R344). -/
structure LedgerHdr where
  step : Nat
  attempt : Nat
  count : Nat
  tokens : Nat
  sat : Nat
  nonfin : Nat
  amax : List Nat
  deriving DecidableEq, Repr

def ledgerHdrOf (l : List Byte) : LedgerHdr :=
  { step := leAt l 0 4, attempt := leAt l 4 1, count := leAt l 5 1, tokens := leAt l 8 8, sat := leAt l 0x10 2,
    nonfin := leAt l 0x12 2, amax := (slice l 0x40 512).map (fun b => b.toNat) }

def LedgerHdr.bytes (h : LedgerHdr) (expect : Nat) : List Byte :=
  leBytes h.step 4 ++ leBytes h.attempt 1 ++ leBytes h.count 1 ++ leBytes expect 1 ++ zeros 1 ++ leBytes h.tokens 8
    ++ leBytes h.sat 2 ++ leBytes h.nonfin 2 ++ zeros 44 ++ (upFrom 0 512).map (fun i => BitVec.ofNat 8 (h.amax.getD i 0))

/-- INT32 rows of a ledger tile as bytes, columns N to 127 at 0 (R344). -/
def ledgerRows (m : Nat) (rows : List (List Int)) : List Byte :=
  ((upFrom 0 (8 * ceilDiv m 8)).map (fun i => (upFrom 0 128).flatMap (fun j =>
    leBytes (((rows.getD i []).getD j 0 % 2 ^ 32).toNat) 4))).flatten

/-- The sums of a ledger tile, M rows of N columns. -/
def ledgerSums (l : List Byte) (m n : Nat) : List (List Int) :=
  (upFrom 0 m).map (fun i => (upFrom 0 n).map (fun j => signed (leAt l (512 * i + 4 * j) 4) 32))

/-- LEDGER_CONTRIBUTION (R345 to R349, R455): the oldest whole contribution on its way to a stack controller is added to its ledger tile, or
takes the place of another step's or attempt's; the last expected one hands the tile over. -/
def execLedgerContribution (stack : Nat) (s : State) : Res :=
  withStack stack
    (match s.flight.contribs.find? (fun m => decide (m.dest = .ledger stack) && m.blocks.any (fun b => b.last)) with
    | none => .next s
    | some c =>
      let gone := { s with flight := { s.flight with contribs := s.flight.contribs.erase c } }
      let t? := (s.entryOf c.src c.htab).bind (fun e => s.ledgerTile ((s.logicalOf c.src).getD 0) c.htab (c.tile - e.tileFirst))
      match t? with
      | none => done (gone.ledgerOverrun stack c.tile)
      | some t =>
        let p := s.ledgerPlace t
        let nb := ceilDiv c.m 8
        let r := s.readHbm stack p.2 (576 + 4096 * nb) .adder
        match r.2 with
        | none => done r.1
        | some d =>
          let gone := { r.1 with flight := gone.flight }
          let h := ledgerHdrOf (d.take 576)
          let same : Bool := h.step = c.step && h.attempt = c.attempt
          if c.m != t.m || c.n != t.n || (same && h.count ≥ t.expect) then done (gone.ledgerOverrun stack c.tile)
          else if (if same then h.count + 1 else 1) = t.expect && !s.unitTakes (s.unitOf 0 c.chain) then .next s
          else
            let gone := gone.landed c.pkts
            let own := ownOfBlocks c.blocks
            let rows := (c.blocks.mergeSort (fun x y => x.idx ≤ y.idx)).flatMap (fun b => b.rows)
            let old := ledgerSums (d.drop 576) c.m c.n
            let h' : LedgerHdr :=
              if same then
                { step := c.step, attempt := c.attempt, count := h.count + 1, tokens := (h.tokens + own.tokens) % 2 ^ 40,
                  sat := satAdd16 h.sat own.saturations, nonfin := satAdd16 h.nonfin own.nonfinite,
                  amax := zipAdd max (h.amax.take nb) own.codes }
              else { step := c.step, attempt := c.attempt, count := 1, tokens := own.tokens, sat := own.saturations,
                     nonfin := own.nonfinite, amax := own.codes }
            let sums := if same then zipAdd (zipAdd (· + ·)) old rows else rows
            let s1 := gone.writeHbm stack p.2 (h'.bytes t.expect ++ ledgerRows c.m sums) .adder
            let s1 := s1.updStack stack (fun x => { x with counts := { x.counts with ledgerAdds := satAdd32 x.counts.ledgerAdds 1 } })
            let s1 := s1.count (blkStack stack) evLEDGER_ELEMENTS 0 64 (c.m * c.n / 64)
            if h'.count = t.expect then
              done (s1.ownComplete c.layer c.tile c.step c.round c.chain c.m c.n
                { contributors := t.expect, tokens := h'.tokens, gaps := 0, saturations := h'.sat, nonfinite := h'.nonfin, skips := 0,
                  excluded := 0, codes := h'.amax.take nb, words := if c.round = 0 then [] else sums.flatten })
            else done s1)

end Sys2Proof.Machine
end

