-- ==== Sys2Proof/Machine/Host.lean ====
section
/-!
DEFINITION. The host link (R579 to R595, R605, R610, R611): Window C registers, mailbox, command and completion rings, event ring, Window D,
and their rows.
-/

namespace Sys2Proof.Machine

/-! ### Reachability -/

/-- Window C answers. -/
def State.hostUp (s : State) : Bool := s.host.linkUp && s.hostReachable

/-- Doorbells and rings are active: not in Datum mode (R581). -/
def State.rings (s : State) : Bool := s.hostUp && s.reset_.ready

def State.setHost (s : State) (f : HostSt → HostSt) : State := { s with host := f s.host }

/-- A stack's HBM serves the host: in Run and Hold, and while the stack is powered (R594, R667, R671). -/
def State.stackServed (s : State) (k : Nat) : Bool := s.reset_.ready && s.power.powerState ≤ 1 && s.regRuns (regId 4 k)

/-! ### Configuration space (R579 to R581) -/

/-- What the function reports (R580) and the sizes of its BARs, 0 for one that it does not have (R581). -/
def pciClass : Nat := 0x120000
def pciRevision : Nat := 0xB0
def barBytes (bar : Nat) : Nat := if bar = 0 then 2 ^ 26 else if bar = 2 then 2 ^ 36 else 0

/-- The attribute bits of a BAR: 64-bit memory, prefetchable for BAR 2; 0 for one that it does not have (R581). -/
def barBits (bar : Nat) : Nat := if bar = 0 then 0x4 else if bar = 2 then 0xC else 0

/-- A 32-bit read of configuration space: IDs, class and revision (R580), the BARs before the host has placed them (R581), the Command register,
power management control and status with No_Soft_Reset 1, and Uncorrectable Error Status (R579). Offsets PRESUMED: those of PCI Express; those of
the capabilities are the model's own (notes/assumptions/24.md). -/
def State.configRead (s : State) (offset : Nat) : Nat :=
  if offset = 0x00 then Config.pciIds % 2 ^ 32
  else if offset = 0x04 then (match s.host.busMaster with | .on => 6 | _ => 2)
  else if offset = 0x08 then 256 * pciClass + pciRevision
  else if 0x10 ≤ offset && offset < 0x28 then barBits ((offset - 0x10) / 4)
  else if offset = 0x44 then s.host.pcie.dState + 8
  else if offset = 0x104 then s.host.pcie.aer
  else 0

/-! ### Reads of Window C (R582, R583) -/

/-- A host register as it reads; reserved fields read 0, and so does the write-only MB_DOORBELL. -/
def State.hostRegister (s : State) (offset : Nat) : Nat :=
  let h := s.host
  let b (x : Bool) : Nat := if x then 1 else 0
  let on (d : Drain) : Nat := match d with | .off => 0 | .on => 1 | .draining e => b e
  if offset = 0x000 then s.job.jobState
  else if offset = 0x004 then 8 * b h.wdBlocked + 4 * b h.cplIndex + 2 * b h.mbOverrun + b h.cmdOverrun
  else if offset = 0x008 then h.cmdProducer
  else if offset = 0x00C then h.cmdConsumer
  else if offset = 0x010 then h.cplProducer
  else if offset = 0x014 then h.cplConsumer
  else if offset = 0x018 then h.evtProducer
  else if offset = 0x01C then h.evtConsumer
  else if offset = 0x024 then 65536 * h.mbStatus + b h.mbBusy
  else if offset = 0x028 then h.wdStack
  else if offset = 0x02C then 2 * on h.evtEn + on h.cmdEn
  else 0

/-- Areas of Window C that hold memory: mailbox, rings, MSI-X table. -/
def memoryArea (o : Nat) : Bool :=
  (0x10000 ≤ o && o < 0x12000) || (0x100000 ≤ o && o < 0x140000) || (0x200000 ≤ o && o < 0x210000)
    || (0x300000 ≤ o && o < 0x340000) || (0x1000000 ≤ o && o < 0x1000400)

/-- A 32-bit read of Window C; a reserved range reads 0. -/
def State.windowCRead (s : State) (offset : Nat) : Nat :=
  if offset < 0x1000 then s.hostRegister offset
  else if offset = 0x1001000 then s.host.msixPending % 2 ^ 32
  else if offset = 0x1001004 then s.host.msixPending / 2 ^ 32
  else if memoryArea offset then leNat (Memory.readN s.host.windowC offset 4) else 0

/-! ### Indices and doorbells (R586, R591) -/

def idxDiff (a b : Nat) : Nat := (a + 65536 - b % 65536) % 65536

/-- A write of CMD_PRODUCER (R586). -/
def State.writeCmdProducer (s : State) (value : Word32) : Res :=
  if !s.rings then .next s
  else
    let p := value.toNat % 65536
    let h := s.host
    let d := idxDiff p h.cmdConsumer
    if d ≤ 4096 && idxDiff h.cmdProducer h.cmdConsumer ≤ d then done (s.setHost (fun h => { h with cmdProducer := p }))
    else
      done ((s.setHost (fun h => { h with cmdOverrun := true, doorbellOverruns := satAdd32 h.doorbellOverruns 1 })).info
        "HOST_DOORBELL_OVERRUN" [p])

/-- CMD_PRODUCER. -/
def execCmdProducer (value : Word32) (s : State) : Res := s.writeCmdProducer value

/-- A write of CPL_CONSUMER (R591). -/
def State.writeCplConsumer (s : State) (value : Word32) : Res :=
  if !s.rings then .next s
  else
    let v := value.toNat % 65536
    let h := s.host
    if idxDiff v h.cplConsumer ≤ idxDiff h.cplProducer h.cplConsumer then done (s.setHost (fun h => { h with cplConsumer := v }))
    else done (s.setHost (fun h => { h with cplIndex := true }))

/-- CPL_CONSUMER. -/
def execCplConsumer (value : Word32) (s : State) : Res := s.writeCplConsumer value

/-- A write of EVT_CONSUMER (R591, R592): room in the event ring lets the copy go on. -/
def State.writeEvtConsumer (s : State) (value : Word32) : Res :=
  if !s.rings then .next s
  else
    let v := value.toNat % 65536
    let h := s.host
    if idxDiff v h.evtConsumer ≤ idxDiff h.evtProducer h.evtConsumer then
      let s := s.setHost (fun h => { h with evtConsumer := v })
      done (s.copyEvents (copyFuel s))
    else done (s.setHost (fun h => { h with cplIndex := true }))

/-- EVT_CONSUMER. -/
def execEvtConsumer (value : Word32) (s : State) : Res := s.writeEvtConsumer value

/-! ### Completions (R585, R593) -/

/-- Vector 0 is raised for what has completed. -/
def State.signalCompletions (s : State) : State := (s.setHost (fun h => { h with unsignalled := 0 })).vector 0

/-- A completion entry is written (R585, R591) and signalled as R593 says. -/
def State.complete (s : State) (c : HostCmd) (st : Status) (result : Nat) : State :=
  let entry := leBytes c.tag 4 ++ leBytes st.code 2 ++ zeros 2 ++ leBytes result 8
  let s := s.setHost (fun h =>
    { h with windowC := Memory.writeN h.windowC (0x200000 + 16 * (h.cplProducer % 4096)) entry,
             cplProducer := (h.cplProducer + 1) % 65536, cmdsCompleted := satAdd32 h.cmdsCompleted 1,
             unsignalledAt := if h.unsignalled = 0 then s.micros else h.unsignalledAt, unsignalled := h.unsignalled + 1 })
  if c.notify || s.host.unsignalled ≥ s.host.coalesceCount then s.signalCompletions else s

/-- CPL_COALESCE_TIME (R593). -/
def execCplCoalesceTime (s : State) : Res :=
  let h := s.host
  if h.unsignalled = 0 || h.coalesceTime = 0 || !s.rings then .next s
  else done ((s.until (h.unsignalledAt + h.coalesceTime)).signalCompletions)

/-! ### Commands (R584, R587 to R589) -/

/-- The command slot of an index. -/
def State.slotOf (s : State) (index : Nat) : HostCmd :=
  let b := Memory.readN s.host.windowC (0x100000 + 64 * (index % 4096)) 64
  let f (o n : Nat) : Nat := leAt b o n
  let op := f 0 1
  let dma : Bool := op = 2 || op = 3
  let bad : Bool := op > 4 || f 1 1 > 1 || f 2 2 != 0 || f 0x19 7 != 0 || f 0x34 12 != 0
    || f 0x10 8 = 0 || f 0x18 1 > 43 || (dma && f 0x10 8 > 2 ^ 32)
  { opcode := op, notify := bit (f 1 1) 0, tag := f 4 4, hostAddr := f 8 8, length := f 0x10 8, stack := f 0x18 1, hbmAddr := f 0x20 8,
    respAddr := f 0x28 8, respLen := f 0x30 4, bad := bad, index := index, wait := none, outcome := none }

/-- The next command can be taken (R587). -/
def State.canTake (s : State) : Bool :=
  let h := s.host
  s.rings && h.cmdEn = .on && h.cmdConsumer != h.cmdProducer && h.inflight.length < 16
    && h.inflight.length + idxDiff h.cplProducer h.cplConsumer < 4096

/-- CMD_CONSUMER advances past the command that is taken. -/
def State.taken (s : State) : State := s.setHost (fun h => { h with cmdConsumer := (h.cmdConsumer + 1) % 65536 })

/-- A command of an opcode is taken; without bus mastering it completes ABORTED (R611), malformed ones MALFORMED (R589). -/
def takeRow (s : State) (ok : HostCmd → Bool) (run : State → HostCmd → State) : Res :=
  let c := s.slotOf s.host.cmdConsumer
  if !s.canTake || !ok c then .next s
  else if s.host.busMaster != .on then done (s.taken.complete c .aborted 0)
  else if c.bad then done (s.taken.complete c .malformed 0)
  else done (run s.taken c)

/-- NOP (R588); a slot with a reserved opcode is taken here too, and completes MALFORMED (R589). -/
def execNop (s : State) : Res := takeRow s (fun c => c.opcode = 0 || c.opcode > 4) (fun t c => t.complete c .ok 0)

/-- CMD_FENCE (R588): every earlier command has completed. -/
def execCmdFence (s : State) : Res := takeRow s (fun c => c.opcode = 4 && s.host.inflight.isEmpty) (fun t c => t.complete c .ok 0)

/-- The input slots that a range of a stack meets: slot number (R419, R795). -/
def State.slotsMet (s : State) (k a n : Nat) : List Nat :=
  match s.job.plan with
  | none => []
  | some p => (upFrom 0 2).filter (fun i =>
      match p.inputSlot i with
      | some x => x.1.stack = k && a < x.2.1 + x.2.2 && x.2.1 < a + n
      | none => false)

/-- A record of a slot that is met is INPUT or RUNNING. -/
def State.slotBusy (s : State) (l : List Nat) : Bool :=
  l.any (fun i => (s.record i).st = .input || (s.record i).st = .running)

/-- COMPLETE records of the slots become FREE (R419). -/
def State.freeSlots (s : State) (l : List Nat) : State :=
  l.foldl (fun t i => if (t.record i).st = .complete then t.setRec i { t.record i with st := .free } else t) s

/-- Why a DMA command moves nothing (R589, R671), else none. -/
def State.dmaRefused (s : State) (c : HostCmd) : Option Status :=
  if c.hbmAddr + c.length > planSpace || !s.stackServed c.stack then some .accessDenied else none

/-- A command goes into flight. -/
def State.fly (s : State) (c : HostCmd) (outcome : Option (Status × Nat)) : State :=
  s.setHost (fun h => { h with inflight := h.inflight ++ [{ c with outcome := outcome }] })

/-- DMA_TO_HBM (R589), at a stack whose controller issues (R111): `data` is what the host's memory holds at HOST_ADDR. -/
def execDmaToHbm (data : List Byte) (s : State) : Res :=
  takeRow s (fun c => c.opcode = 2 && !s.stackFull c.stack && (c.bad || s.host.busMaster != .on || (s.dmaRefused c).isSome || data.length = c.length)) (fun t c =>
    let l := t.slotsMet c.stack c.hbmAddr c.length
    match t.dmaRefused c with
    | some st => t.complete c st 0
    | none =>
      if t.slotBusy l then t.complete c .slotBusy 0
      else (((t.freeSlots l).writeHbm c.stack c.hbmAddr data .host).send (.hostRead c.hostAddr c.length)).fly c (some (.ok, c.length)))

/-- DMA_FROM_HBM is in flight: the data goes to the host once every line can be read (R311, R315). -/
def State.dmaRead (s : State) (c : HostCmd) : State :=
  let r := s.readStart c.stack c.hbmAddr c.length
  if r.2.lost.isEmpty then (r.1.send (.hostWrite c.hostAddr r.2.data)).fly c (some (.ok, c.length))
  else
    let w : LineWait := { stack := c.stack, addr := c.hbmAddr, data := r.2.data, need := r.2.lost }
    (r.1.fly { c with wait := some w } none).wantLines c.stack r.2.lost .host

/-- DMA_FROM_HBM (R589), at a stack whose controller issues (R111). -/
def execDmaFromHbm (s : State) : Res :=
  takeRow s (fun c => c.opcode = 3 && !s.stackFull c.stack) (fun t c =>
    match t.dmaRefused c with
    | some st => t.complete c st 0
    | none => t.dmaRead c)

/-- A drain that has nothing left in flight ends (R610, R611). -/
def HostSt.endDrains (h : HostSt) : HostSt :=
  let fin (d : Drain) : Drain :=
    match d with
    | .draining true => .on
    | .draining false => .off
    | d => d
  if h.inflight.isEmpty then { h with cmdEn := fin h.cmdEn, busMaster := fin h.busMaster } else h

/-- A command leaves flight with its completion. -/
def State.land (s : State) (c : HostCmd) (st : Status) (result : Nat) : State :=
  ((s.setHost (fun h => { h with inflight := h.inflight.erase c })).complete c st result).setHost HostSt.endDrains

/-- DMA_COMPLETE (R585, R315): a read whose lines no mirror has given completes DATA_ERROR; one that waits for lines is not done. -/
def execDmaComplete (tag : Word32) (s : State) : Res :=
  match s.host.inflight.find? (fun c => c.tag = tag.toNat) with
  | none => .next s
  | some c =>
    if !s.hostUp then .next s
    else
      match c.outcome with
      | some o => done (s.land c o.1 o.2)
      | none => .next s

/-! ### Chart by the host: mailbox and OD_REQUEST (R590, R605) -/

/-- The clients that the mailbox and the command ring are: above every IPv6 address. -/
def mailboxClient : Nat := 2 ^ 128
def ringClient : Nat := 2 ^ 128 + 1

/-- Executes a little-endian Chart message (R600, R606). A message out of form completes MALFORMED. -/
def State.hostMessage (s : State) (path : Path) (client : Nat) (m : List Byte) : State × Reply :=
  let f (o n : Nat) : Nat := leAt m o n
  let body := slice m 20 (f 0x10 2)
  let bad : Bool := f 0 1 != 1 || f 1 1 ≥ 128 || f 2 1 ≥ 4 || f 0x10 2 > maxBody path || body.length != f 0x10 2
  let op := f 1 1
  if bad then (s, .of .malformed)
  else if op = opREAD then s.odRead path (f 8 2) (f 10 1)
  else if op = opWRITE then s.odWrite path (f 8 2) (f 10 1) body
  else if op = opREAD_BLOCK then s.odReadBlock path client (f 8 2) (f 10 1) (f 12 4) body
  else if op = opWRITE_BLOCK then s.odWriteBlock path client (f 8 2) (f 10 1) (f 12 4) body (bit (f 2 1) 1)
  else if op = opDISCOVER then (s, ⟨.ok, s.discoverBody⟩)
  else (s, .of .malformed)

/-- The response message to a little-endian request. -/
def hostResponse (m : List Byte) (r : Reply) : List Byte :=
  leBytes 1 1 ++ leBytes (leAt m 1 1 % 128 + 128) 1 ++ zeros 2 ++ fit 2 (slice m 4 2) ++ leBytes r.status.code 2 ++ fit 2 (slice m 8 2)
    ++ fit 1 (slice m 10 1) ++ zeros 1 ++ fit 4 (slice m 12 4) ++ leBytes r.body.length 2 ++ zeros 2 ++ r.body

/-- OD_REQUEST (R588, R590): `request` is what the host's memory holds at HOST_ADDR. -/
def execOdRequest (request : List Byte) (s : State) : Res :=
  takeRow s (fun c => c.opcode = 1 && s.host.inflight.isEmpty && (c.bad || s.host.busMaster != .on || request.length = c.length)) (fun t c =>
    let x := t.hostMessage .ring ringClient request
    let r := hostResponse request x.2
    if r.length > c.respLen then x.1.complete c .malformed 0
    else (x.1.send (.hostWrite c.respAddr r)).complete c .ok r.length)

/-- A write of MB_DOORBELL (R605). -/
def State.writeMbDoorbell (s : State) : Res :=
  if !s.hostUp then .next s
  else if s.host.mbBusy then done (s.setHost (fun h => { h with mbOverrun := true }))
  else
    let m := Memory.readN s.host.windowC 0x10000 0x1000
    let x := (s.setHost (fun h => { h with mbBusy := true })).hostMessage .mailbox mailboxClient m
    let r := hostResponse m x.2
    done ((x.1.setHost (fun h => { h with windowC := Memory.writeN h.windowC 0x11000 r, mbStatus := x.2.status.code, mbBusy := false })).vector 3)

/-- MB_DOORBELL. -/
def execMbDoorbell (s : State) : Res := s.writeMbDoorbell

/-! ### Enables (R610, R611) -/

/-- A function is enabled, or its drain begins; `busy` while it has work in flight. -/
def Drain.write (d : Drain) (value busy : Bool) : Drain :=
  match d, value with
  | .draining _, v => .draining v
  | _, true => .on
  | .on, false => if busy then .draining false else .off
  | .off, false => .off

/-- A write of CMD_EN. -/
def State.writeCmdEn (s : State) (value : Bool) : State := s.setHost (fun h => { h with cmdEn := h.cmdEn.write value (!h.inflight.isEmpty) })

/-- A write of EVT_EN: a record being copied is copied at once. -/
def State.writeEvtEn (s : State) (value : Bool) : State :=
  let s := s.setHost (fun h => { h with evtEn := h.evtEn.write value false })
  s.copyEvents (copyFuel s)

/-- CMD_EN. -/
def execCmdEn (value : Bool) (s : State) : Res := if !s.rings then .next s else done (s.writeCmdEn value)

/-- EVT_EN. -/
def execEvtEn (value : Bool) (s : State) : Res := if !s.rings then .next s else done (s.writeEvtEn value)

/-- BUS_MASTER_ENABLE: a bit of the Command register. -/
def execBusMasterEnable (value : Bool) (s : State) : Res :=
  if !s.hostUp then .next s
  else done (s.setHost (fun h => { h with busMaster := h.busMaster.write value (!h.inflight.isEmpty) }))

/-- Commands in flight complete ABORTED, with the bytes that they have moved (R585). -/
def State.abortFlight (s : State) : State :=
  s.host.inflight.foldl (fun t c => t.land c .aborted (match c.outcome with | some o => o.2 | none => 0)) s

/-- The Completion Timeout passes, and is reported (R579, R610). -/
def State.completionTimeout (s : State) : State :=
  (s.elapse s.host.pcie.completionTimeout).setHost (fun h => { h with pcie := { h.pcie with aer := h.pcie.aer ||| 2 ^ 14 } })

/-- CMD_DRAIN_TIMEOUT (R610): function 0 the command ring, 1 the event ring, 2 bus mastering. -/
def execCmdDrainTimeout (function : Nat) (s : State) : Res :=
  let draining (d : Drain) : Bool :=
    match d with
    | .draining _ => true
    | _ => false
  if function = 0 && draining s.host.cmdEn then done ((s.elapse (1000 * s.host.drainTimeout)).abortFlight)
  else if function = 2 && draining s.host.busMaster then done s.completionTimeout.abortFlight
  else .next s

/-! ### Other registers and Window C memory (R582, R583) -/

/-- Areas of Window C that the host writes: mailbox request, command ring, MSI-X table. -/
def hostArea (o : Nat) : Bool :=
  (0x10000 ≤ o && o < 0x11000) || (0x100000 ≤ o && o < 0x140000) || (0x1000000 ≤ o && o < 0x1000400)

/-- HOST_REGISTER_WRITE: every register of R583 and the areas of Window C; other offsets are reserved or read-only. -/
def execHostRegisterWrite (offset : Nat) (value : Word32) (s : State) : Res :=
  let v := value.toNat
  if !s.hostUp || offset ≥ barBytes 0 then .next s
  else if offset = 0x008 then s.writeCmdProducer value
  else if offset = 0x014 then s.writeCplConsumer value
  else if offset = 0x01C then s.writeEvtConsumer value
  else if offset = 0x020 then s.writeMbDoorbell
  else if offset = 0x02C then if !s.rings then .next s else done ((s.writeCmdEn (bit v 0)).writeEvtEn (bit v 1))
  else if offset = 0x004 then
    done (s.setHost (fun h => { h with wdBlocked := h.wdBlocked && !bit v 3, cplIndex := h.cplIndex && !bit v 2,
                                       mbOverrun := h.mbOverrun && !bit v 1, cmdOverrun := h.cmdOverrun && !bit v 0 }))
  else if offset = 0x028 then done (s.setHost (fun h => { h with wdStack := v % 64 }))
  else if offset % 4 = 0 && hostArea offset then done (s.setHost (fun h => { h with windowC := Memory.writeN h.windowC offset (leBytes v 4) })).unmask
  else .next s

/-! ### Window D (R594) -/

/-- An access of Window D is refused. -/
def State.wdRefused (s : State) (offset n : Nat) : Bool := s.host.wdStack > 43 || offset + n > dataSpace || !s.stackServed s.host.wdStack

/-- A Window D read starts: it is answered when every line can be read, and waits for its mirror data otherwise (R311, R315). -/
def State.windowRead (s : State) (k a n : Nat) : State :=
  let r := s.readStart k a n
  let w : LineWait := { stack := k, addr := a, data := r.2.data, need := r.2.lost }
  if r.2.lost.isEmpty then r.1.answerRead w
  else { r.1 with host := { r.1.host with reads := r.1.host.reads ++ [w] } }.wantLines k r.2.lost .host

/-- WINDOW_D_READ: at 512 requests of the stack the controller issues no more, and the read waits in the link (R111, R339). -/
def execWindowDRead (offset length : Nat) (s : State) : Res :=
  if !s.hostUp then .next s
  else if s.wdRefused offset length then
    done ((s.setHost (fun h => { h with wdRefused := satAdd32 h.wdRefused 1 })).send (.windowData (List.replicate length 0xFF)))
  else if s.stackFull s.host.wdStack then .next s
  else done (s.windowRead s.host.wdStack offset length)

/-- A Window D write is discarded. -/
def State.wdDiscard (s : State) : State :=
  s.setHost (fun h => { h with wdBlocked := true, wdDiscarded := satAdd32 h.wdDiscarded 1 })

/-- WINDOW_D_WRITE (R419, R594). -/
def execWindowDWrite (offset : Nat) (data : List Byte) (s : State) : Res :=
  let k := s.host.wdStack
  if !s.hostUp then .next s
  else if s.wdRefused offset data.length || offset + data.length > planSpace then done s.wdDiscard
  else
    let l := s.slotsMet k offset data.length
    if s.slotBusy l then done (s.wdDiscard.event "INPUT_SLOT_BUSY" clsINFO srcStack k l)
    else done ((s.freeSlots l).writeHbm k offset data .host)

end Sys2Proof.Machine
end

