-- ==== Sys2Proof/Machine/Job.lean ====
section
/-!
DEFINITION. Commands of job control: plan load and unload, step inputs, job start and abort, steps and their boundaries, checkpoints and
spares.
-/

namespace Sys2Proof.Machine

/-- PLAN_LOAD (R401, R403, R671). -/
def execPlanLoad (stack address length : Nat) (s : State) : Res := done (s.opPlanLoad stack address length).1

/-- PLAN_LOAD_COMPLETE (R403 steps 4 to 8): a hardware error leaves no plan. -/
def execPlanLoadComplete (fault : Bool) (s : State) : Res :=
  match s.job.loading with
  | some l =>
    match l.plan with
    | some p => if fault then done ((s.endLoad .planLoadFault 0).info "PLAN_LOAD_FAULT" []) else done (s.applyPlan l p)
    | none => .next s
  | none => .next s

/-- PLAN_UNLOAD (R424, R609). -/
def execPlanUnload (s : State) : Res := done s.opPlanUnload.1

/-- STEP_INPUT (R418, R419, R521). -/
def execStepInput (step tokens bytes : Nat) (s : State) : Res := done (s.opStepInput step tokens bytes).1

/-- JOB_START (R630). -/
def execJobStart (s : State) : Res := done s.opJobStart.1

/-- JOB_ABORT (R607). -/
def execJobAbort (s : State) : Res := done s.opJobAbort.1

/-- STEP_START (R416): the step whose inputs have been posted starts. A realignment has its own release (R519 step 5). -/
def execStepStart (s : State) : Res :=
  if s.startable && s.job.resync = 0 then done (s.startStep s.job.next) else .next s

/-- STEP_BOUNDARY (R415, R431). -/
def execStepBoundary (s : State) : Res :=
  match s.running with
  | none => .next s
  | some r =>
    if s.job.jobState != jsRUNNING || s.job.batch.stage != .idle || s.job.release != .none || !s.atBoundary then .next s
    else if s.job.calibrating then done (s.endCalibration r)
    else done (s.endStep r)

/-- CHECKPOINT_ARM (R531, R533). -/
def execCheckpointArm (step : Nat) (dest : List Byte) (port : Nat) (s : State) : Res := done (s.opCheckpointArm step dest port).1

/-- CHECKPOINT_SEAL (R534). -/
def execCheckpointSeal (s : State) : Res := done s.opCheckpointSeal.1

/-- SPARE_ADOPT (R529). -/
def execSpareAdopt (module stack address length : Nat) (s : State) : Res := done (s.opSpareAdopt module stack address length).1

end Sys2Proof.Machine
end

