-- ==== Sys2Proof/Machine/Reset.lean ====
section
/-!
DEFINITION. Resets and start-up: the meanings of the rows of chapter 17, of PERST and HOST_LINK_DOWN.
-/

namespace Sys2Proof.Machine

/-! ### Reset sources (R685) -/

/-- MRST (R685, R786): held low for at least 1 µs. -/
def execMrst (heldNs : Nat) (s : State) : Res :=
  if heldNs < 1000 then .next s else done (s.askReset rcMRST .cold)

/-- WATCHDOG. -/
def execWatchdog (s : State) : Res := done (s.askReset rcWATCHDOG .warm)

/-- CRITICAL_CONTROL (R511). -/
def execCriticalControl (s : State) : Res := done (s.askReset rcCRITICAL_CONTROL .cold)

/-- START_TIMEOUT (R706): after 180 s from reset release, those not counted in which a pushed image was awaited or a thermal hold lasted. -/
def execStartTimeout (s : State) : Res :=
  let r := s.reset_
  if r.ready || r.datum || r.awaitPush || r.thermalHold || !s.power.cartouche then .next s
  else done (((s.until (180000000 + r.excluded)).info "START_TIMEOUT" []).askReset rcSTART_TIMEOUT .cold)

/-- RESET_COLD. -/
def execResetCold (path : Path) (s : State) : Res := done (s.opReset path .cold).1

/-- RESET_WARM. -/
def execResetWarm (path : Path) (s : State) : Res := done (s.opReset path .warm).1

/-- DATUM_EXIT. -/
def execDatumExit (path : Path) (s : State) : Res := done (s.opDatumExit path).1

/-! ### Assertion and deferral -/

/-- RESET_ASSERT (R682, R691, R692): held while an NV pulse lasts, for at most 120 µs. -/
def execResetAssert (s : State) : Res :=
  if s.reset_.pending.isNone || !s.power.cartouche then .next s
  else if s.nv.pulse.isSome && !s.nv.overrun s.micros then .next s
  else done s.nvEnd.assertReset

/-- NV_PULSE_END (R691, R692): a reset that was held asserts. -/
def execNvPulseEnd (s : State) : Res := if s.nv.pulse.isNone then .next s else done s.nvEnd.assertReset

/-! ### Start -/

/-- The next release step can complete. -/
def State.starting (s : State) : Bool :=
  let r := s.reset_
  !r.ready && !r.startFailed && !r.datum && s.power.cartouche

/-- RELEASE_STEP (R695): the next domain is released 256 always-on cycles later. Step 2 goes on once FAILED_STARTS has been written (R704). -/
def execReleaseStep (r : StepReport) (s : State) : Res :=
  if !s.starting || (s.reset_.releaseStep = 2 && s.nv.pulse.isSome) then .next s
  else
    let s := s.releaseStep r
    done { s with aon := s.aon + 256 }

/-- THERMAL_HOLD (R707): 60 s, and then until the inlet reads 35 °C or less. -/
def execThermalHold (inlet : Word32) (s : State) : Res :=
  let r := s.reset_
  if !s.starting || !r.thermalHold || r.releaseStep != 2 then .next s
  else
    let s := { s with power := { s.power with inlet := inlet } }
    let s := s.until (r.waitFrom.getD 0 + 60000000)
    if numLe inlet (int32 35) then done ({ s with reset_ := { s.reset_.waited s.micros with thermalHold := false } }.beginBoot) else done s

/-- CLK_REF_ABSENT (R694): the reference that CLK_MODE selects has been absent for 10 ms; the fast PLLs lock to the on-module one. -/
def execClkRefAbsent (s : State) : Res :=
  let r := s.reset_
  if s.starting && r.releaseStep = 5 && (r.clkMode = 1 || r.clkMode = 2) && !r.pllOnModule then
    done ({ s.elapse 10000 with reset_ := { r with pllOnModule := true } }.info "CLK_REF_ABSENT" [r.clkMode])
  else .next s

/-! ### Fabric, Core and Host link resets -/

/-- RESET_FABRIC. -/
def execResetFabric (s : State) : Res := done s.opResetFabric.1

/-- FABRIC_RESET_COMPLETE (R373, R683): the links have passed their self-test but for those named, routing over the up routers stands
again, and the distance table is measured; a batch whose reload the reset has cut short begins again (DESIGN CHOICE:
notes/assumptions/21.md). -/
def execFabricResetComplete (wires : List (Nat × Nat)) (badLinks : List Nat) (s : State) : Res :=
  if !s.reset_.fabricReset then .next s
  else
    let s := { s with reset_ := { s.reset_ with fabricReset := false } }.testLinks wires badLinks
    let r := if s.power.powerState ≥ 3 || !s.power.railsUp.contains 3 then Routing.empty else s.mesh.routing s.segmentDown s.fabric.neatPenalty
    let s := { s with fabric := { s.fabric with routing := r, tableErr := s.fabric.tableErr.filter TableAt.standing, epoch := (s.fabric.epoch + 1) % 2 ^ 32 } }.measure
    let s := s.actionEnd 0x3800 6 0
    done (if s.job.batch.stage = .reload then s.startBatch s.job.batch.next else s)

/-- RESET_CORE. -/
def execResetCore (core : Nat) (s : State) : Res := done (s.opResetCore core).1

/-- CORE_RESET_COMPLETE (R46, R683): a core that fails its self-test is fenced. -/
def execCoreResetComplete (ok : Bool) (s : State) : Res :=
  match s.reset_.coreReset with
  | none => .next s
  | some n =>
    let s := { s with reset_ := { s.reset_ with coreReset := none } }
    let s := if ok || s.badCore n then s else ((s.permanent n).setCoreState n .fenced).nextEpoch
    done (s.actionEnd 0x3800 7 0)

/-- PERST (R686, R688): the job runs on. -/
def execPerst (s : State) : Res :=
  let s := { s with host := s.host.perst s.hostReachable }
  done (s.event "HOST_RESET" clsRESET srcModule 0 [])

/-- HOST_LINK_DOWN (R511, R581): the job runs on. -/
def execHostLinkDown (s : State) : Res := done { s with host := { s.host with linkUp := false } }

end Sys2Proof.Machine
end

