-- ==== Sys2Proof/Machine/Streams.lean ====
section
/-!
DEFINITION. Stream units at work (R327 to R337, R355), releases of held copy writes (R340), and copies that are asked for (R466).
-/

namespace Sys2Proof.Machine

/-- LWAIT_GRANT (R331): the counter covers the unit's threshold, which the grant subtracts. -/
def execLwaitGrant (stack unit : Nat) (s : State) : Res :=
  withUnit stack unit
    (let x := s.unit stack unit
     let d := s.streamDesc stack unit x.pos
     if x.st = .lwait && (s.stack stack).counter d.lwaitIdx ≥ d.lwaitThr then
       done ((s.counterTake stack d.lwaitIdx d.lwaitThr).beginRepeat stack unit d x)
     else .next s)

/-- REMOTE_WAIT (R332, R333): a receiver's pennant covers the credit threshold in an ACLK in which no local queue is granted a wait on it;
the grant subtracts the threshold, and the tile can go when every receiver has granted. -/
def execRemoteWait (stack unit core : Nat) (s : State) : Res :=
  withUnit stack unit (withCore core
    (let x := s.unit stack unit
     let d := s.streamDesc stack unit x.pos
     match s.logicalOf core with
     | none => .next s
     | some l =>
       if x.st = .credits && x.pend.contains l && x.asks.any (fun y => y.1 = l) && (s.core core).pennant d.cwaitIdx ≥ d.cwaitThr
           && !s.localGrant core d.cwaitIdx then
         let s := s.landed ((x.asks.filter (fun y => y.1 = l)).map (fun y => y.2))
         let s := s.updCore core (fun c => c.setPennant d.cwaitIdx (c.pennant d.cwaitIdx - d.cwaitThr))
         let pend := x.pend.erase l
         done (s.setUnit stack unit { x with pend := pend, asks := x.asks.filter (fun y => y.1 != l),
                                             st := if pend.isEmpty then .ready else .credits })
       else .next s))

/-- Bytes of a source tile: N columns of the form's image, or N rows (R264, R324, R325: a transposed read sends source row c as
column c, byte for byte). -/
def StreamDesc.tileBytes (d : StreamDesc) : Nat := if d.op = 3 then 0 else d.n * columnBytes d.form

/-- Layer and tile whose place an address of a KEEP region is: the placement's, else those of the tile kept there last. -/
def State.keptTile (s : State) (k a : Nat) : Option (Nat × Nat) :=
  match s.itemAt k a with
  | some x => some (x.1, x.2.2)
  | none => ((s.stack k).keep.find? (fun x => x.addr = a)).map (fun x => (x.layer, x.tile))

/-- A read of a KEEP region meets no tile of the current step: layer and tile of its place, where they are known (R355). -/
def State.staleKeep (s : State) (k a : Nat) : Option (Option (Nat × Nat)) :=
  match s.regionAt k a with
  | some r =>
    if r.kind != 5 then none
    else
      match s.keptTile k a with
      | none => some none
      | some t => if (s.stack k).keep.any (fun x => x.addr = a && x.step = s.stepCurrent && x.layer = t.1 && x.tile = t.2) then none
        else some (some t)
  | none => none

/-- The tile is gathered again through the gather entry that keeps it (R353, R355). -/
def State.regather (s : State) (k : Nat) (lay tile : Nat) : State :=
  match s.entryFor k lay tile (fun e => e.keepBwd) with
  | none => s
  | some (e, i) =>
    let g : GatherMsg := { kind := 1, aux := e.wire, tag := 0, layer := lay, step := s.stepCurrent - 1, first := tile, count := 1 }
    if s.net.gathers.any (fun o => o.g = g) then s else s.askHolders k i e g true

/-- A tile leaves a stack's station for a receiver in packets on VC1 (R334, R359, R361); without a route it is discarded (R386). -/
def State.sendTile (s : State) (stack unit : Nat) (d : StreamDesc) (rep core : Nat) (data : List Byte) : State :=
  let l := packetData data
  let src := stationSource (targetStation stack)
  s.fromStation (targetStation stack) core l.length (fun here track t =>
    let ps := t.packets src 1 here core track l
    let t := t.numbered src 1 l.length
    { t with flight := { t.flight with tiles := t.flight.tiles ++
      [{ stack := stack, unit := unit, dst := core, addr := d.sbaddr + rep % (max 1 d.sbslots) * d.sbstep, data := data, pen := d.dpen,
         rep := rep, pkts := ps, lost := [] }] } })

/-- STREAM_TILE_SEND (R330, R334, R335, R339, R355): the source tile is read and leaves for every receiver. A read of a place of a KEEP
region that no tile is known for waits (notes/assumptions/24.md). -/
def execStreamTileSend (stack unit : Nat) (s : State) : Res :=
  withUnit stack unit
    (let x := s.unit stack unit
     let d := s.streamDesc stack unit x.pos
     if x.st != .ready || (d.op != 3 && s.stackFull stack) then .next s
     else
       let a := d.src + x.rep * d.tstride
       match (if d.op = 3 then none else s.staleKeep stack a) with
       | some (some r) => done (s.regather stack r.1 r.2)
       | some none => .next s
       | none =>
         let r := s.readHbm stack a d.tileBytes (.stream unit)
         match r.2 with
         | none => done r.1
         | some data =>
           let s := r.1
           let rs := s.receivers d
           let s := { s with job := { s.job with reading := if d.op = 3 then s.job.reading else max s.job.reading s.stepCurrent } }
           let s := rs.foldl (fun t l => t.sendTile stack unit d x.rep (t.phys l) data) s
           let x := { x with rep := x.rep + 1, out := x.out + rs.length }
           if x.rep < d.rep then done (s.beginRepeat stack unit d x) else done (s.setUnit stack unit { x with st := .sending }))

/-- What a receiver writes of a tile: the data of the packets that have come, each at its place (R386). -/
def TileMsg.writeTo (m : TileMsg) (c : CoreSt) : CoreSt :=
  if m.lost.isEmpty then c.writeMem true m.addr m.data
  else
    let l := packetData m.data
    ((l.zip (upFrom 0 l.length)).filter (fun x => !m.lost.contains x.2)).foldl (fun c x => c.writeMem true (m.addr + packetBytes * x.2) x.1) c

/-- The packets of a tile that come to its receiver. -/
def TileMsg.came (m : TileMsg) : List Packet :=
  ((m.pkts.zip (upFrom 0 m.pkts.length)).filter (fun (x : Packet × Nat) => !m.lost.contains x.2)).map (fun (x : Packet × Nat) => x.1)

/-- The last byte of a tile has come. -/
def TileMsg.ends (m : TileMsg) : Bool := !m.lost.contains (m.pkts.length - 1)

/-- STREAM_TILE_DELIVERED (R334): the oldest tile of a unit on its way to a core is written, and its pennant raised. -/
def execStreamTileDelivered (stack unit core : Nat) (s : State) : Res :=
  withUnit stack unit (withCore core
    (match s.flight.tiles.find? (fun m => m.stack = stack && m.unit = unit && m.dst = core) with
    | none => .next s
    | some m =>
      let l := s.flight.tiles.erase m
      let s := { s with flight := { s.flight with tiles := l } }.landed m.came
      let s := s.setUnit stack unit { s.unit stack unit with out := (s.unit stack unit).out - 1 }
      let s := if l.any (fun y => y.stack = stack && y.unit = unit && y.rep = m.rep) then s
        else s.count (blkStack stack) evTILES_SENT 0 1 1
      if s.coreStateOf core = .fenced then done s
      else
        let s := s.updCore core m.writeTo
        match m.pen with
        | some p => if m.ends then done (s.raise core p 1 none) else done s
        | none => done s))

/-- STREAM_DESCRIPTOR_END (R327, R328): the last tile is delivered; the LRAISE is made and the next descriptor begins. -/
def execStreamDescriptorEnd (stack unit : Nat) (s : State) : Res :=
  withUnit stack unit
    (let x := s.unit stack unit
     let d := s.streamDesc stack unit x.pos
     if x.st = .sending && x.out = 0 then
       let s := if d.lraiseInc = 0 then s else s.counterRaise stack d.lraiseIdx d.lraiseInc
       done (s.enterDesc stack unit (x.pos + 1))
     else .next s)

/-- STREAM_COPY_WRITE_RELEASE (R340): the release counter covers its threshold and the held writes proceed. -/
def execStreamCopyWriteRelease (stack layer : Nat) (s : State) : Res :=
  withStack stack (done ((s.releaseCopies stack layer).askAllMerges))

/-- The layer whose arrival counter a unit waits on (R341, R466). -/
def State.waitedLayer (s : State) (k u : Nat) : Option Nat :=
  let x := s.unit k u
  if x.st != .lwait then none
  else
    match s.job.plan with
    | some p => (p.copyCtrs.find? (fun c => c.stack = k && c.arrival = (s.streamDesc k u x.pos).lwaitIdx)).map (fun c => c.layer)
    | none => none

/-- The requests for a placement of a layer's copy (R554, R559). -/
def State.placeRequests (s : State) (l : PlanLayer) (p : Placement) : List GatherMsg :=
  let n := match s.tilesIn l p.part with | some k => min p.count (k - p.first) | none => p.count
  gatherPieces { kind := if p.part = 2 then 3 else p.part, aux := if p.part = 0 then s.rungOf l else if p.part = 1 then s.backForm l else 0,
                 tag := 0, layer := l.layer, step := s.stepCurrent - 1, first := p.first, count := n }
    (if p.part = 0 then 128 * columnBytes (s.rungOf l) else if p.part = 1 then 128 * 256 else 64 * p.stride)

/-- The requests for a layer's copy: every placement in a STREAM region whose stack does not hold the
state of the step before (R463, R466). -/
def State.copyRequests (s : State) (l : PlanLayer) : List GatherMsg :=
  ((s.copyPlaces l).filter (fun p => p.count != 0 && !s.isHeld l.layer (s.placeAddr p p.first).1 p.part (s.stepCurrent - 1))).flatMap
    (s.placeRequests l)

/-- The layer's copy is asked of a module, with the modules to ask after it (R466). -/
def State.askCopy (s : State) (l : PlanLayer) (m : Nat) (rest : List Nat) : State :=
  (s.copyRequests l).foldl (fun t g => t.askGather m g rest (.copy l.layer)) s

/-- DOWNHAUL_TIMEOUT (R466): the layer's copy is asked of OWNER, then of MIRROR; of MIRROR alone after a takeover (R502). -/
def execDownhaulTimeout (stack unit : Nat) (s : State) : Res :=
  withUnit stack unit
    (match s.waitedLayer stack unit with
    | none => .next s
    | some lay =>
      match s.planLayer lay with
      | none => .next s
      | some l =>
        let x := s.unit stack unit
        let s := s.until (x.since + 1000 * s.halyard.downTimeout)
        let s := s.setUnit stack unit { x with since := s.micros }
        match (if s.halyard.takenOver.contains lay then [l.mirror] else [l.owner, l.mirror]).filter s.reachable with
        | [] => done s
        | m :: rest => done (s.askCopy l m rest))

end Sys2Proof.Machine
end

