-- ==== Sys2Proof/Machine/Triangulate.lean ====
section
/-!
DEFINITION. Triangulation results (R200, R201): TRIANGULATION_COMPLETE forms the reference row of one of a core's samples and tests it.
-/

namespace Sys2Proof.Machine

/-- Where the part of a weight row of a layer lies that a column block of 128 columns covers: in the backward copy, row by row (R324). -/
def State.backRow (s : State) (l : PlanLayer) (cols row block : Nat) : Option (Nat × Nat × Nat) :=
  let tile := row / 128 * ceilDiv cols 128 + block
  let pitch := if s.backForm l = fBF16 then 256 else 132
  (l.placed 1 tile).map (fun p => let a := s.placeAddr p tile
    (a.1, a.2 + row % 128 * pitch, pitch))

/-- The parts of the weight rows that a sample of n columns needs, row by row, each row over the column blocks that it spans; none where the
plan places one of them on no stack of this module. -/
def State.triRanges (s : State) (l : PlanLayer) (t : TriTile) (n : Nat) : Option (List (List (Nat × Nat × Nat))) :=
  match s.schedLayer l.layer with
  | none => none
  | some r =>
    let first := t.col0 / 128
    let rows := (upFrom t.row0 t.k).map (fun i => (upFrom first ((t.col0 + n - 1) / 128 - first + 1)).map (s.backRow l r.cols i))
    if rows.all (fun x => x.all (fun y => y.isSome)) then some (rows.map (fun x => x.filterMap id)) else none

/-- A weight row's elements with their block scales, from its parts. -/
def triWeights (md form : Nat) (parts : List (List Byte)) : List (Fp × Flushes) :=
  parts.flatMap (fun b => let v := Vec.ofBytes form 128 b
    (upFrom 0 128).map (v.val md))

/-- The reference row (R200): BF16 activations times the backward copy's weights, G = 16, FP32; each word times 2^e. -/
def triReference (md : Nat) (acts : List (Fp × Flushes)) (weights : List (List (Fp × Flushes))) (o n : Nat) (e : Int) :
    List (Word32 × Flushes) :=
  (upFrom o n).map (fun j =>
    let x := dotGroups md 16 acts (weights.map (fun w => w.getD j (.fin false 0 0, 0)))
    let y := flush32 md (toFp32 ((val32 x.1).scale e))
    (y.1, orFlush x.2 y.2))

/-- The sampled row's BF16 activations (R200). -/
def triActs (md : Nat) (c : CoreSt) (t : TriTile) (m : Nat) : List (Fp × Flushes) :=
  (upFrom 0 t.k).map (fun i => readElem md fBF16 (leNat (c.actBytesAt (t.addr + m * t.pitch + 2 * i) 2)))

/-- −(t_W + t_A), each for a plain form only (R196, R200). -/
def triExp (c : CoreSt) (l : PlanLayer) (t : TriTile) (x : TriSample) : Int :=
  let e (form entry : Nat) : Int := if isScaled form then (Tab.get ScaleEntry.zero c.scales entry).t else 0
  0 - (e x.wf l.tent + e x.af t.tent)

/-- max |x| over the finite words of a row. -/
def rowMax (l : List Word32) : Word32 := l.foldl maxAbs 0

/-- The alarm test of R201 on the copied row and the reference: y holds a non-finite value, r is all zero and y is not, or e is above the
threshold; a difference past the FP32 range is above every threshold. For a reference that is not finite itself R201 states no e: the answer
is then `anyAnswer`. e is formed in FP32 with one rounding to nearest even for each operation (DEDUCED: notes/assumptions/36.md). -/
def triAlarm (thr : Word32) (y r : List Word32) (anyAnswer : Bool) : Bool :=
  if !y.all isFin32 then true
  else if !r.all isFin32 then anyAnswer
  else
    let diff := (y.zip r).map (fun p => sub32 p.1 p.2)
    let rm := rowMax r
    if rm = 0 then rowMax y != 0 else !diff.all isFin32 || numLt thr (div32 (rowMax diff) rm)

/-- TRIANGULATION_COMPLETE (R200, R201, R771): the weights of the sample's tile, named by the ordinal of its last MMUL, are read through the stack controllers, the reference
row is formed, and the alarm counted. A line without data is fetched first; a sample whose tile this module holds no copy of stays until it
is dropped (R202). The weights go through the Plotter weight set, while no Plotter program uses it, and each BF16 row of 128 positions
takes 4 cycles of the array input (R120, R200, R757; DEDUCED: notes/assumptions/36.md). -/
def execTriangulationComplete (core ordinal : Nat) (s : State) : Res :=
  withCore core
    (match (s.core core).tri.find? (fun y => y.ordinal = ordinal) with
    | none => .next s
    | some x =>
      match s.planLayer x.layer with
      | none => .next s
      | some l =>
        match l.tri.tiles.find? (fun t => some t.core = s.logicalOf core && t.ordinal = x.ordinal) with
        | none => .next s
        | some t =>
          match (if (s.core core).pq.st = .run then none else s.triRanges l t x.n) with
          | none => .next s
          | some rs =>
            let a := s.readEach rs.flatten (.stream core)
            if !a.2.all (fun b => b.isSome) then done a.1
            else
              let md := s.fmt.subnormal
              let c := s.core core
              let ws := (chunks (max 1 (rs.headD []).length) (a.2.map (fun b => b.getD []))).map (triWeights md (s.backForm l))
              let r := triReference md (triActs md c t x.m) ws (t.col0 % 128) x.n (triExp c l t x)
              let f := a.1.fresh
              let thr := l.tri.threshold.getD s.fmt.triThreshold
              let set : WSet := { form := some (s.backForm l), n := x.n, cols := (a.2.map (fun b => b.getD [])).drop (rs.flatten.length - 128) }
              let bad := triAlarm thr x.row (r.map (fun p => p.1)) (f.1 % 2 = 1)
              done (f.2.updCore core (fun c => CoreSt.enter { c.addFlush (r.foldl (fun m p => orFlush m p.2) 0) with
                plotSet := set, tri := c.tri.filter (fun y => y.ordinal != ordinal), alarms := if bad then Tab.upd 0 c.alarms x.layer (· + 1) else c.alarms } true (4 * ceilDiv t.k 128))))

end Sys2Proof.Machine
end

