-- ==== Sys2Proof/Machine/Vector.lean ====
section
/-!
DEFINITION. Vector instructions (R278 to R287) at issue.
-/

namespace Sys2Proof.Machine

/-- OP_SEQ that the instruction just issued took (R176, R262). -/
def State.tookSeq (s : State) (n : Nat) (q : QName) : Nat := (((s.core n).queue q).opSeq + 2 ^ 31 - 1) % 2 ^ 31

/-- The rounding of an operation's lanes (R171, R173, R176). -/
def State.laneRnd (s : State) (n : Nat) (q : QName) (mode rbits : Nat) : LaneRnd :=
  { mode := mode, bits := rbitsOf s.fmt.randomBits rbits, key := s.drawKey n (s.tookSeq n q) (if q = .plotter then 1 else 0) }

/-- A vector operation after issue: with no rows it has nothing to do (R278); otherwise its rows are read in ascending order and its results
written, with the words that they draw. From an accumulator row that cannot be read on, it has no values and stays unfinished (R245): `f k`
and `words k` are what its first k rows do. -/
def State.vectorOp (s : State) (n : Nat) (q : QName) (w : InstrWord) (key : Nat) (src : SrcF) (m : Nat)
    (words : Nat → State → State) (f : Nat → CoreSt → CoreSt) : State :=
  if m = 0 then s.enqueueOp n q w key true
  else
    let s := s.enqueueOp n q w key false
    let s := if src.acc then s.count n evACC_READS 0 1 m else s
    let scan := srcScan (s.core n) src m
    let s := s.updCore n (fun c => c.addCorrected scan.1)
    match scan.2 with
    | some (r, p) => (words ((r - field src.addr 0 12) / src.w) (s.updCore n (f ((r - field src.addr 0 12) / src.w)))).accBad n r p
    | none => (words m (s.updCore n (f m))).finishOp n q key

/-- VOP (R279, R280, R791). -/
def execVop (core : Nat) (q : QName) (s : State) : Res :=
  issue s core q 0x30 (fun w => (vopF w).rmode = 2) (fun t w k =>
    let f := vopF w
    let r := t.laneRnd core q f.rmode 0
    t.vectorOp core q w k f.src f.m (fun k u => if f.bf16 then u.drew core r 128 k k else u)
      (fun k => vopRows t.fmt.subnormal r f (upFrom 0 k)))

/-- VRED (R281). -/
def execVred (core : Nat) (q : QName) (s : State) : Res :=
  issue s core q 0x31 never (fun t w k =>
    let f := vredF w
    t.vectorOp core q w k f.src f.m (fun _ u => u) (fun k c =>
      if f.axis && k < f.m then c
      else
        let x := vredBytes t.fmt.subnormal c { f with m := k }
        (c.writeAct f.d x.1).addFlush x.2))

/-- Words that the first k rows of a VQUANT draw: with pennants, the four lanes that begin a block round 2 times for each row, and every lane
of an image once more for each of its blocks (R180, R283, R284); an image is converted from all its rows. -/
def State.vquantWords (s : State) (n : Nat) (r : LaneRnd) (f : VquantF) (k : Nat) : State :=
  if f.image then (if k < f.m then s else s.drew n r 128 (colOrd f.form k) k)
  else if f.form = 8 then (s.drew n r 124 k k).drew n r 4 (2 * k) k
  else s.drew n r 128 k k

/-- VQUANT (R282 to R284). -/
def execVquant (core : Nat) (q : QName) (s : State) : Res :=
  issue s core q 0x32 (fun w => (vquantF w).rmode = 2) (fun t w k =>
    let f := vquantF w
    let r := t.laneRnd core q f.rmode f.rbits
    t.vectorOp core q w k f.src f.m (fun k u => u.vquantWords core r f k) (fun k c =>
      if f.image then (if k < f.m then c else vquantImage t.fmt.subnormal r c f)
      else vquantRows t.fmt.subnormal r f (upFrom 0 k) c))

/-- VTSTORE (R285, R286). -/
def execVtstore (core : Nat) (q : QName) (s : State) : Res :=
  issue s core q 0x33 (fun w => (vtstoreF w).rmode = 2) (fun t w k =>
    let f := vtstoreF w
    let r := t.laneRnd core q f.rmode f.rbits
    t.vectorOp core q w k f.src f.m (fun k u => if k < f.m || f.form = 11 then u else u.drew core r 128 k k) (fun k c =>
      if k < f.m then c
      else
        let a := readRows t.fmt.subnormal c f.src f.m
        (vtstoreRows t.fmt.subnormal r f a.1 (upFrom 0 128) c).addFlush a.2))

/-- VRAND (R287): no operand but its generator words. -/
def execVrand (core : Nat) (q : QName) (s : State) : Res :=
  issue s core q 0x34 (fun _ => true) (fun t w k =>
    let f := vrandF w
    let r := t.laneRnd core q 2 3
    t.vectorOp core q w k { acc := false, addr := 0, rfmt := 0, dsc := 0 } f.m (fun k u => u.drew core r 128 k k)
      (fun k => vrandRows r f (upFrom 0 k)))

end Sys2Proof.Machine
end

