-- ==== Sys2Proof/Machine/Dispatch.lean ====
section
/-!
DEFINITION. Dispatch of a command to its meaning: one arm per row of the table. The meanings leave the queue of waiting commands
alone.
-/

namespace Sys2Proof.Machine

/-- The effect of a command on everything but the queue (log 1). -/
def exec (i : Instr) (s : State) : Host.Outcome State Fault Refusal :=
  match i with
  | .pwait core q => Sys2Proof.Machine.execPwait core q s
  | .praise core q => Sys2Proof.Machine.execPraise core q s
  | .fence core q => Sys2Proof.Machine.execFence core q s
  | .loop core q => Sys2Proof.Machine.execLoop core q s
  | .endloop core q => Sys2Proof.Machine.execEndloop core q s
  | .halt core q => Sys2Proof.Machine.execHalt core q s
  | .fload core q => Sys2Proof.Machine.execFload core q s
  | .fconv core q => Sys2Proof.Machine.execFconv core q s
  | .fwgt core q => Sys2Proof.Machine.execFwgt core q s
  | .mmul core q => Sys2Proof.Machine.execMmul core q s
  | .mswap core q => Sys2Proof.Machine.execMswap core q s
  | .vop core q => Sys2Proof.Machine.execVop core q s
  | .vred core q => Sys2Proof.Machine.execVred core q s
  | .vquant core q => Sys2Proof.Machine.execVquant core q s
  | .vtstore core q => Sys2Proof.Machine.execVtstore core q s
  | .vrand core q => Sys2Proof.Machine.execVrand core q s
  | .dsend core q => Sys2Proof.Machine.execDsend core q s
  | .dstore core q => Sys2Proof.Machine.execDstore core q s
  | .dload core q => Sys2Proof.Machine.execDload core q s
  | .dexit core q => Sys2Proof.Machine.execDexit core q s
  | .drecv core q => Sys2Proof.Machine.execDrecv core q s
  | .operationRetire core q => Sys2Proof.Machine.execOperationRetire core q s
  | .remoteRaise src msg => Sys2Proof.Machine.execRemoteRaise src msg s
  | .dsendArrival src msg vc => Sys2Proof.Machine.execDsendArrival src msg vc s
  | .remoteWait stack unit core => Sys2Proof.Machine.execRemoteWait stack unit core s
  | .dexitCodesReady core => Sys2Proof.Machine.execDexitCodesReady core s
  | .halyardMergeBlock core => Sys2Proof.Machine.execHalyardMergeBlock core s
  | .triangulationComplete core ordinal => Sys2Proof.Machine.execTriangulationComplete core ordinal s
  | .lwaitGrant stack unit => Sys2Proof.Machine.execLwaitGrant stack unit s
  | .streamTileSend stack unit => Sys2Proof.Machine.execStreamTileSend stack unit s
  | .streamTileDelivered stack unit core => Sys2Proof.Machine.execStreamTileDelivered stack unit core s
  | .streamDescriptorEnd stack unit => Sys2Proof.Machine.execStreamDescriptorEnd stack unit s
  | .streamCopyWriteRelease stack layer => Sys2Proof.Machine.execStreamCopyWriteRelease stack layer s
  | .ledgerContribution stack => Sys2Proof.Machine.execLedgerContribution stack s
  | .mirrorTimeout stack line => Sys2Proof.Machine.execMirrorTimeout stack line s
  | .hbmWritebackVerify stack line ok => Sys2Proof.Machine.execHbmWritebackVerify stack line ok s
  | .patrolScrub stack => Sys2Proof.Machine.execPatrolScrub stack s
  | .linkCrcMismatch link again => Sys2Proof.Machine.execLinkCrcMismatch link again s
  | .selftestTrigger link => Sys2Proof.Machine.execSelftestTrigger link s
  | .linkSelftestComplete link failedWires sidebandFailed => Sys2Proof.Machine.execLinkSelftestComplete link failedWires sidebandFailed s
  | .escapeWaitExpiry router dest head => Sys2Proof.Machine.execEscapeWaitExpiry router dest head s
  | .criticalState table => Sys2Proof.Machine.execCriticalState table s
  | .classBFault f => Sys2Proof.Machine.execClassBFault f s
  | .routingDrainComplete => Sys2Proof.Machine.execRoutingDrainComplete s
  | .routingTablesBuilt => Sys2Proof.Machine.execRoutingTablesBuilt s
  | .routingWriteComplete => Sys2Proof.Machine.execRoutingWriteComplete s
  | .routingReadbackComplete ok => Sys2Proof.Machine.execRoutingReadbackComplete ok s
  | .owedUpdatesDone => Sys2Proof.Machine.execOwedUpdatesDone s
  | .replayRelease => Sys2Proof.Machine.execReplayRelease s
  | .realignRelease => Sys2Proof.Machine.execRealignRelease s
  | .coreSelfTestComplete core ok => Sys2Proof.Machine.execCoreSelfTestComplete core ok s
  | .classCFault f => Sys2Proof.Machine.execClassCFault f s
  | .stepBoundary => Sys2Proof.Machine.execStepBoundary s
  | .stepStart => Sys2Proof.Machine.execStepStart s
  | .halyardOwnPartial group layer tile step => Sys2Proof.Machine.execHalyardOwnPartial group layer tile step s
  | .halyardSum src group m => Sys2Proof.Machine.execHalyardSum src group m s
  | .halyardDeadline group layer tile step => Sys2Proof.Machine.execHalyardDeadline group layer tile step s
  | .halyardHopHold group layer tile step => Sys2Proof.Machine.execHalyardHopHold group layer tile step s
  | .downhaul src iface m => Sys2Proof.Machine.execDownhaul src iface m s
  | .downhaulTimeout stack unit => Sys2Proof.Machine.execDownhaulTimeout stack unit s
  | .updateWaitExpiry layer step => Sys2Proof.Machine.execUpdateWaitExpiry layer step s
  | .plotterUpdateStart sheet => Sys2Proof.Machine.execPlotterUpdateStart sheet s
  | .updateComputed sheet => Sys2Proof.Machine.execUpdateComputed sheet s
  | .updateReadbackComplete sheet => Sys2Proof.Machine.execUpdateReadbackComplete sheet s
  | .journalCopyComplete sheet => Sys2Proof.Machine.execJournalCopyComplete sheet s
  | .takeoverWaitExpiry layer tile step => Sys2Proof.Machine.execTakeoverWaitExpiry layer tile step s
  | .alarms src layer step value => Sys2Proof.Machine.execAlarms src layer step value s
  | .takeover src layer stepTag => Sys2Proof.Machine.execTakeover src layer stepTag s
  | .leave src => Sys2Proof.Machine.execLeave src s
  | .join src => Sys2Proof.Machine.execJoin src s
  | .peoloFrame iface f => Sys2Proof.Machine.execPeoloFrame iface f s
  | .ack iface f => Sys2Proof.Machine.execAck iface f s
  | .ackDelayExpiry peer => Sys2Proof.Machine.execAckDelayExpiry peer s
  | .rtoExpiry peer seq => Sys2Proof.Machine.execRtoExpiry peer seq s
  | .pacingWindow peer => Sys2Proof.Machine.execPacingWindow peer s
  | .heartbeatSend => Sys2Proof.Machine.execHeartbeatSend s
  | .heartbeat src b => Sys2Proof.Machine.execHeartbeat src b s
  | .peerLost peer => Sys2Proof.Machine.execPeerLost peer s
  | .gatherReq src g => Sys2Proof.Machine.execGatherReq src g s
  | .gatherReqReady stack tag => Sys2Proof.Machine.execGatherReqReady stack tag s
  | .gatherData src g data => Sys2Proof.Machine.execGatherData src g data s
  | .portLinkUp iface => Sys2Proof.Machine.execPortLinkUp iface s
  | .portLinkDown iface => Sys2Proof.Machine.execPortLinkDown iface s
  | .neighborSolicitation iface target => Sys2Proof.Machine.execNeighborSolicitation iface target s
  | .cblPresN port level => Sys2Proof.Machine.execCblPresN port level s
  | .perst => Sys2Proof.Machine.execPerst s
  | .cmdProducer value => Sys2Proof.Machine.execCmdProducer value s
  | .cplConsumer value => Sys2Proof.Machine.execCplConsumer value s
  | .evtConsumer value => Sys2Proof.Machine.execEvtConsumer value s
  | .mbDoorbell => Sys2Proof.Machine.execMbDoorbell s
  | .cmdEn value => Sys2Proof.Machine.execCmdEn value s
  | .evtEn value => Sys2Proof.Machine.execEvtEn value s
  | .busMasterEnable value => Sys2Proof.Machine.execBusMasterEnable value s
  | .cmdDrainTimeout function => Sys2Proof.Machine.execCmdDrainTimeout function s
  | .hostRegisterWrite offset value => Sys2Proof.Machine.execHostRegisterWrite offset value s
  | .nop => Sys2Proof.Machine.execNop s
  | .odRequest request => Sys2Proof.Machine.execOdRequest request s
  | .dmaToHbm data => Sys2Proof.Machine.execDmaToHbm data s
  | .dmaFromHbm => Sys2Proof.Machine.execDmaFromHbm s
  | .cmdFence => Sys2Proof.Machine.execCmdFence s
  | .dmaComplete tag => Sys2Proof.Machine.execDmaComplete tag s
  | .cplCoalesceTime => Sys2Proof.Machine.execCplCoalesceTime s
  | .windowDRead offset length => Sys2Proof.Machine.execWindowDRead offset length s
  | .windowDWrite offset data => Sys2Proof.Machine.execWindowDWrite offset data s
  | .read c => Sys2Proof.Machine.execRead c s
  | .write c => Sys2Proof.Machine.execWrite c s
  | .readBlock c => Sys2Proof.Machine.execReadBlock c s
  | .writeBlock c => Sys2Proof.Machine.execWriteBlock c s
  | .discover client txn => Sys2Proof.Machine.execDiscover client txn s
  | .snapshotExpiry client index sub => Sys2Proof.Machine.execSnapshotExpiry client index sub s
  | .writeSessionIdle index sub => Sys2Proof.Machine.execWriteSessionIdle index sub s
  | .presenceInterval => Sys2Proof.Machine.execPresenceInterval s
  | .odWrite path index sub body => Sys2Proof.Machine.execOdWrite path index sub body s
  | .fieldDefectsClear => Sys2Proof.Machine.execFieldDefectsClear s
  | .flushFlagsClear => Sys2Proof.Machine.execFlushFlagsClear s
  | .accFlagsClear => Sys2Proof.Machine.execAccFlagsClear s
  | .planLoad stack address length => Sys2Proof.Machine.execPlanLoad stack address length s
  | .planUnload => Sys2Proof.Machine.execPlanUnload s
  | .stepInput step tokens bytes => Sys2Proof.Machine.execStepInput step tokens bytes s
  | .jobStart => Sys2Proof.Machine.execJobStart s
  | .jobAbort => Sys2Proof.Machine.execJobAbort s
  | .plotterFlagsClear => Sys2Proof.Machine.execPlotterFlagsClear s
  | .checkpointArm step dest port => Sys2Proof.Machine.execCheckpointArm step dest port s
  | .checkpointSeal => Sys2Proof.Machine.execCheckpointSeal s
  | .spareAdopt module stack address length => Sys2Proof.Machine.execSpareAdopt module stack address length s
  | .powerRequest target => Sys2Proof.Machine.execPowerRequest target s
  | .powerTransitionComplete => Sys2Proof.Machine.execPowerTransitionComplete s
  | .resetCold path => Sys2Proof.Machine.execResetCold path s
  | .resetWarm path => Sys2Proof.Machine.execResetWarm path s
  | .resetFabric => Sys2Proof.Machine.execResetFabric s
  | .resetCore core => Sys2Proof.Machine.execResetCore core s
  | .datumExit path => Sys2Proof.Machine.execDatumExit path s
  | .nvLogClear => Sys2Proof.Machine.execNvLogClear s
  | .counterSelect blob => Sys2Proof.Machine.execCounterSelect blob s
  | .bundle path offset data => Sys2Proof.Machine.execBundle path offset data s
  | .bundleAbandon => Sys2Proof.Machine.execBundleAbandon s
  | .fwSwap path => Sys2Proof.Machine.execFwSwap path s
  | .fwConfirm => Sys2Proof.Machine.execFwConfirm s
  | .confirmExpiry => Sys2Proof.Machine.execConfirmExpiry s
  | .confirmStore => Sys2Proof.Machine.execConfirmStore s
  | .attest nonce => Sys2Proof.Machine.execAttest nonce s
  | .attestSigned => Sys2Proof.Machine.execAttestSigned s
  | .feedStateChange feed state => Sys2Proof.Machine.execFeedStateChange feed state s
  | .feedReconnect feed => Sys2Proof.Machine.execFeedReconnect feed s
  | .feedPresNRise feed => Sys2Proof.Machine.execFeedPresNRise feed s
  | .feedPresNFall feed => Sys2Proof.Machine.execFeedPresNFall feed s
  | .powerFail => Sys2Proof.Machine.execPowerFail s
  | .converterFailed conv => Sys2Proof.Machine.execConverterFailed conv s
  | .railDeviation rail => Sys2Proof.Machine.execRailDeviation rail s
  | .regPhaseFailed phase => Sys2Proof.Machine.execRegPhaseFailed phase s
  | .regFailed reg railVoltageOk => Sys2Proof.Machine.execRegFailed reg railVoltageOk s
  | .fencedCoreDrain core => Sys2Proof.Machine.execFencedCoreDrain core s
  | .regShort reg railVoltageOk => Sys2Proof.Machine.execRegShort reg railVoltageOk s
  | .turnOnRequest reg => Sys2Proof.Machine.execTurnOnRequest reg s
  | .turnOnAdmitted sheet present => Sys2Proof.Machine.execTurnOnAdmitted sheet present s
  | .turnOnWait sheet => Sys2Proof.Machine.execTurnOnWait sheet s
  | .sensorSample r => Sys2Proof.Machine.execSensorSample r s
  | .droopExcursion core => Sys2Proof.Machine.execDroopExcursion core s
  | .mrst heldNs => Sys2Proof.Machine.execMrst heldNs s
  | .watchdog => Sys2Proof.Machine.execWatchdog s
  | .criticalControl => Sys2Proof.Machine.execCriticalControl s
  | .startTimeout => Sys2Proof.Machine.execStartTimeout s
  | .resetAssert => Sys2Proof.Machine.execResetAssert s
  | .nvPulseEnd => Sys2Proof.Machine.execNvPulseEnd s
  | .releaseStep r => Sys2Proof.Machine.execReleaseStep r s
  | .thermalHold inlet => Sys2Proof.Machine.execThermalHold inlet s
  | .clkRefAbsent => Sys2Proof.Machine.execClkRefAbsent s
  | .captureMessage block => Sys2Proof.Machine.execCaptureMessage block s
  | .gazInterval => Sys2Proof.Machine.execGazInterval s
  | .gazetteerSweep => Sys2Proof.Machine.execGazetteerSweep s
  | .planLoadComplete fault => Sys2Proof.Machine.execPlanLoadComplete fault s
  | .fabricResetComplete wires badLinks => Sys2Proof.Machine.execFabricResetComplete wires badLinks s
  | .coreResetComplete ok => Sys2Proof.Machine.execCoreResetComplete ok s
  | .cartoucheHoldupEnd => Sys2Proof.Machine.execCartoucheHoldupEnd s
  | .hostLinkDown => Sys2Proof.Machine.execHostLinkDown s
  | .turnOnRampComplete reg => Sys2Proof.Machine.execTurnOnRampComplete reg s
  | .plcaBeaconMissed present => Sys2Proof.Machine.execPlcaBeaconMissed present s

end Sys2Proof.Machine
end

