-- ==== Sys2Proof/Machine/Step.lean ====
section
/-!
DEFINITION. A step takes the command at the front of the queue; on an empty queue one always-on cycle passes
(notes/assumptions/3.md).
-/

namespace Sys2Proof.Machine

/-- The block idles: one cycle of the always-on clock (R13, R541). DESIGN CHOICE: notes/assumptions/3.md. -/
def idle (s : State) : State := { s with aon := s.aon + 1 }

/-- One step: the command in front is executed with the queue's rest. -/
def step (s : State) : Host.Outcome State Fault Refusal :=
  match s.pending with
  | [] => .next (idle s)
  | c :: rest => exec c { s with pending := rest }

/-- The command that a table word spells, put in front of the queue; the table gives no bits, so no word spells one. -/
def State.withFetchWord (s : State) (nbits w : Nat) : State :=
  match decodeTableWord nbits w with
  | some c => { s with pending := c :: s.pending }
  | none => s

end Sys2Proof.Machine
end

