-- ==== Sys2Proof/WellFormed.lean ====
section
/-!
DEFINITION. Well-formed commands: every operand names a place that the wafer has, and every field fits the width that its rule gives it.
-/

namespace Sys2Proof

open Machine

/-! ### Fields of messages (R459, R553, R556) -/

/-- A sum: the widths of R459, one code per block of 8 rows, and M·N words in round 1. -/
def SumMsg.wf (b : SumMsg) : Bool :=
  b.layer < 65536 && b.tile < 65536 && b.step < 2 ^ 32 && b.round < 2 && b.contributors < 2 ^ 24 && b.tokens < 2 ^ 40 && b.gaps < 256
    && b.saturations < 65536 && b.nonfinite < 65536 && b.chain < 65536 && b.m < 65536 && b.n < 256 && b.skips < 256 && b.excluded < 256
    && b.codes.length = ceilDiv b.m 8 && b.codes.all (fun c => c < 256) && b.words.length = b.round * b.m * b.n
    && b.words.all (fun w => decide (-(2 ^ 47 : Int) ≤ w) && decide (w < 2 ^ 47))

/-- A DOWNHAUL body. -/
def DownMsg.wf (b : DownMsg) : Bool :=
  b.layer < 65536 && b.part < 4 && b.step < 2 ^ 32 && b.first < 2 ^ 32 && b.count < 2 ^ 32

/-- A GATHER_REQ body: KIND 0 to 5. -/
def GatherMsg.wf (g : GatherMsg) : Bool :=
  g.kind < 6 && g.aux < 256 && g.tag < 65536 && g.layer < 65536 && g.step < 2 ^ 32 && g.first < 2 ^ 32 && g.count < 2 ^ 32

/-- A HEARTBEAT body. -/
def BeatMsg.wf (b : BeatMsg) : Bool :=
  b.reading < 2 ^ 32 && b.current < 2 ^ 32 && b.attempt < 256 && b.role < 256 && b.flags < 256 && b.ports < 2 ^ 32 && b.eventSeq < 2 ^ 32

/-- The fields of a Peolo header, and at most 8,192 payload bytes (R553). -/
def Frame.wf (f : Frame) : Bool :=
  f.version < 256 && f.type < 256 && f.flags < 256 && f.src < 65536 && f.dst < 65536 && f.job < 2 ^ 64 && f.seq < 2 ^ 32 && f.ack < 2 ^ 32
    && f.sack < 2 ^ 32 && f.msgId < 2 ^ 32 && f.frag < 65536 && f.fragCount < 65536 && f.tag < 65536 && f.payload.length ≤ 8192

/-- A module code (R549). -/
def moduleCode (m : Nat) : Bool := m < 65536

/-! ### Chart (R600, R744) -/

/-- A Chart request: a client is an IPv6 address on the field network, and a trailer comes by that path alone. -/
def Chart.wf (c : Chart) : Bool :=
  c.client < 2 ^ 128 + 2 && c.txn < 65536 && c.index < 65536 && c.sub < 256 && c.offset < 2 ^ 32 && c.body.length < 65536
    && (c.path = .field || c.auth.isNone)
    && (match c.auth with | none => true | some t => t.keyId < 256 && t.counter < 2 ^ 64 && t.mac.length = 32)

/-- Index and sub-index of an entry (R619). -/
def entryNo (index sub : Nat) : Bool := index < 65536 && sub < 256

/-! ### Operating reports -/

/-- Sensor readings: cores, sheet sensors 0 to 447 (R675). -/
def Sample.wf (r : Sample) : Bool :=
  r.coreTemps.all (fun x => x.1 < numCores) && r.sheetTemps.all (fun x => x.1 < 448) && r.ringOsc.all (fun x => x.1 < 448)

/-- The parts that a release step names exist. -/
def StepReport.wf (r : StepReport) : Bool :=
  r.bootSrc < 4 && r.clkMode < 4 && r.slotId < 16 && r.badCores.all (fun n => n < numCores) && r.badRouters.all (fun n => n < numCores)
    && r.badLinks.all linkExists && r.badStacks.all (fun k => k < numStacks) && r.badConverters.all (fun k => k < 224)
    && r.badPorts.all (fun p => p < 32) && r.wires.all (fun x => linkExists x.1 && x.2 < 2048) && r.tornDefects.all (fun k => k < 2) && r.badImages.all (fun k => k < 2)

def coreNo (n : Nat) : Bool := n < numCores
def stackNo (k : Nat) : Bool := k < numStacks
def unitNo (u : Nat) : Bool := u < 4
def sheetNo (n : Nat) : Bool := n < numSheets
def groupNo (g : Nat) : Bool := g < 4
def ifaceNo (i : Nat) : Bool := i < 64
def portNo (p : Nat) : Bool := p < 32
/-- A 64-byte line of a stack's data space (R304). -/
def lineNo (l : Nat) : Bool := 64 * l < dataSpace
/-- A layer, tile and step number as R459 carries them. -/
def layerNo (l : Nat) : Bool := l < 65536
def tileNo (t : Nat) : Bool := t < 65536
def stepNo (t : Nat) : Bool := t < 2 ^ 32
/-- A regulator whose KIND the row can name (R650). -/
def regNo (r : Nat) : Bool := regExists r && regKind r != 0
/-- A regulator that the turn-on governor admits (R663). -/
def governedNo (r : Nat) : Bool := regExists r && turnOnBudget (regKind r) != 0

/-- A well-formed command. -/
def Instr.wf : Instr → Bool
  | .pwait n _ => coreNo n
  | .praise n _ => coreNo n
  | .fence n _ => coreNo n
  | .loop n _ => coreNo n
  | .endloop n _ => coreNo n
  | .halt n _ => coreNo n
  | .fload n _ => coreNo n
  | .fconv n _ => coreNo n
  | .fwgt n _ => coreNo n
  | .mmul n _ => coreNo n
  | .mswap n _ => coreNo n
  | .vop n _ => coreNo n
  | .vred n _ => coreNo n
  | .vquant n _ => coreNo n
  | .vtstore n _ => coreNo n
  | .vrand n _ => coreNo n
  | .dsend n _ => coreNo n
  | .dstore n _ => coreNo n
  | .dload n _ => coreNo n
  | .dexit n _ => coreNo n
  | .drecv n _ => coreNo n
  | .operationRetire n _ => coreNo n
  | .remoteRaise a x => coreNo a && coreNo x.dst
  | .dsendArrival a x vc => coreNo a && coreNo x.dst && vc < 5
  | .remoteWait k u n => stackNo k && unitNo u && coreNo n
  | .dexitCodesReady n => coreNo n
  | .halyardMergeBlock n => coreNo n
  | .triangulationComplete n _ => coreNo n
  | .lwaitGrant k u => stackNo k && unitNo u
  | .streamTileSend k u => stackNo k && unitNo u
  | .streamTileDelivered k u n => stackNo k && unitNo u && coreNo n
  | .streamDescriptorEnd k u => stackNo k && unitNo u
  | .streamCopyWriteRelease k l => stackNo k && layerNo l
  | .ledgerContribution k => stackNo k
  | .mirrorTimeout k l => stackNo k && lineNo l
  | .hbmWritebackVerify k l _ => stackNo k && lineNo l
  | .patrolScrub k => stackNo k
  | .linkCrcMismatch l _ => linkExists l
  | .selftestTrigger l => linkExists l
  | .linkSelftestComplete l w _ => linkExists l && w.all (fun x => x < 2048)
  | .escapeWaitExpiry r d h => coreNo r && coreNo d && h.chan ≤ 4
  | .criticalState _ => true
  | .classBFault f => faultBPlace f
  | .routingDrainComplete => true
  | .routingTablesBuilt => true
  | .routingWriteComplete => true
  | .routingReadbackComplete _ => true
  | .owedUpdatesDone => true
  | .replayRelease => true
  | .realignRelease => true
  | .coreSelfTestComplete n _ => coreNo n
  | .classCFault f => faultCPlace f
  | .stepBoundary => true
  | .stepStart => true
  | .halyardOwnPartial g l t n => groupNo g && layerNo l && tileNo t && stepNo n
  | .halyardSum src g m => moduleCode src && groupNo g && m.wf
  | .halyardDeadline g l t n => groupNo g && layerNo l && tileNo t && stepNo n
  | .halyardHopHold g l t n => groupNo g && layerNo l && tileNo t && stepNo n
  | .downhaul src i m => moduleCode src && ifaceNo i && m.wf
  | .downhaulTimeout k u => stackNo k && unitNo u
  | .updateWaitExpiry l n => layerNo l && stepNo n
  | .plotterUpdateStart n => sheetNo n
  | .updateComputed n => sheetNo n
  | .updateReadbackComplete n => sheetNo n
  | .journalCopyComplete n => sheetNo n
  | .takeoverWaitExpiry l t n => layerNo l && tileNo t && stepNo n
  | .alarms src l n _ => moduleCode src && layerNo l && stepNo n
  | .takeover src l n => moduleCode src && layerNo l && stepNo n
  | .leave src => moduleCode src
  | .join src => moduleCode src
  | .peoloFrame i f => ifaceNo i && f.wf
  | .ack i f => ifaceNo i && f.wf && f.type = 0
  | .ackDelayExpiry p => moduleCode p
  | .rtoExpiry p n => moduleCode p && n < 2 ^ 32
  | .pacingWindow p => moduleCode p
  | .heartbeatSend => true
  | .heartbeat src b => moduleCode src && b.wf
  | .peerLost p => moduleCode p
  | .gatherReq src g => moduleCode src && g.wf
  | .gatherReqReady k t => stackNo k && t < 65536
  | .gatherData src g _ => moduleCode src && g.wf
  | .portLinkUp i => ifaceNo i
  | .portLinkDown i => ifaceNo i
  | .neighborSolicitation i t => ifaceNo i && t.length = 16
  | .cblPresN p _ => portNo p
  | .perst => true
  | .cmdProducer _ => true
  | .cplConsumer _ => true
  | .evtConsumer _ => true
  | .mbDoorbell => true
  | .cmdEn _ => true
  | .evtEn _ => true
  | .busMasterEnable _ => true
  | .cmdDrainTimeout f => f < 3
  | .hostRegisterWrite o _ => o < 2 ^ 26 && o % 4 = 0
  | .nop => true
  | .odRequest _ => true
  | .dmaToHbm _ => true
  | .dmaFromHbm => true
  | .cmdFence => true
  | .dmaComplete _ => true
  | .cplCoalesceTime => true
  | .windowDRead o n => o + n ≤ 2 ^ 36
  | .windowDWrite o d => o + d.length ≤ 2 ^ 36
  | .read c => c.wf
  | .write c => c.wf
  | .readBlock c => c.wf
  | .writeBlock c => c.wf
  | .discover c t => c < 2 ^ 128 && t < 65536
  | .snapshotExpiry c i j => c < 2 ^ 128 + 2 && entryNo i j
  | .writeSessionIdle i j => entryNo i j
  | .presenceInterval => true
  | .odWrite _ i j _ => entryNo i j
  | .fieldDefectsClear => true
  | .flushFlagsClear => true
  | .accFlagsClear => true
  | .planLoad k a n => k < 256 && a < 2 ^ 64 && n < 2 ^ 64
  | .planUnload => true
  | .stepInput n t b => stepNo n && t < 2 ^ 64 && b < 2 ^ 64
  | .jobStart => true
  | .jobAbort => true
  | .plotterFlagsClear => true
  | .checkpointArm n d p => stepNo n && d.length = 16 && p < 65536
  | .checkpointSeal => true
  | .spareAdopt m k a n => m < 65536 && k < 256 && a < 2 ^ 64 && n < 2 ^ 64
  | .powerRequest t => t < 256
  | .powerTransitionComplete => true
  | .resetCold _ => true
  | .resetWarm _ => true
  | .resetFabric => true
  | .resetCore n => n < 65536
  | .datumExit _ => true
  | .nvLogClear => true
  | .counterSelect b => b.length < 2 ^ 32
  | .bundle _ o d => o % 4096 = 0 && d.length = 4096
  | .bundleAbandon => true
  | .fwSwap _ => true
  | .fwConfirm => true
  | .confirmExpiry => true
  | .confirmStore => true
  | .attest n => n.length = 32
  | .attestSigned => true
  | .feedStateChange _ mv => mv < 2 ^ 17
  | .feedReconnect _ => true
  | .feedPresNRise _ => true
  | .feedPresNFall _ => true
  | .powerFail => true
  | .converterFailed c => c < 224
  | .railDeviation x => regNo x.reg
  | .regPhaseFailed x => regNo x.reg
  | .regFailed r _ => regNo r
  | .fencedCoreDrain n => coreNo n
  | .regShort r _ => regNo r
  | .turnOnRequest r => governedNo r
  | .turnOnAdmitted n _ => sheetNo n
  | .turnOnWait n => sheetNo n
  | .sensorSample r => r.wf
  | .droopExcursion n => coreNo n
  | .mrst _ => true
  | .watchdog => true
  | .criticalControl => true
  | .startTimeout => true
  | .resetAssert => true
  | .nvPulseEnd => true
  | .releaseStep r => r.wf
  | .thermalHold _ => true
  | .clkRefAbsent => true
  | .captureMessage b => b < numBlocks
  | .gazInterval => true
  | .gazetteerSweep => true
  | .planLoadComplete _ => true
  | .fabricResetComplete w b => w.all (fun x => linkExists x.1 && x.2 < 2048) && b.all linkExists
  | .coreResetComplete _ => true
  | .cartoucheHoldupEnd => true
  | .hostLinkDown => true
  | .turnOnRampComplete r => regExists r
  | .plcaBeaconMissed _ => true

end Sys2Proof
end

