-- ==== Sys2Proof/Safety.lean ====
section
/-!
DEFINITION. What the statements call a sound state: byte memories in canonical form, and job control with nothing left over from an
earlier command. And the conditions under which an instruction at a queue's program counter issues (R74, R79, R86, R95, R108, R252).
-/

namespace Sys2Proof.Machine

/-! ### Sound states -/

/-- A core's byte memories are in canonical form. -/
abbrev CoreSt.memOk (c : CoreSt) : Prop := Memory.wf c.act = true ∧ Memory.wf c.sbuf = true ∧ Memory.wf c.istore = true

/-- Every byte memory of the module is in canonical form: activation store, stream buffer and instruction store of every core, the data
space of every stack, and Window C. -/
abbrev State.memOk (s : State) : Prop :=
  (∀ p ∈ s.cores, p.2.memOk) ∧ (∀ p ∈ s.hbm, Memory.wf p.2.mem = true) ∧ Memory.wf s.host.windowC = true

/-- No command has left anything for job control to act on. -/
abbrev State.quiet (s : State) : Prop :=
  s.job.wantStop = none ∧ s.job.wantB = [] ∧ s.job.wantC = []

/-- Every line of a stack reads as it was written: no symbol errors, no bad cells, no report of the inner code, no merge and no read that
waits (R306, R308, R310, R311). -/
abbrev StackSt.clean (x : StackSt) : Prop := x.bad = [] ∧ x.stuck = [] ∧ x.inner = [] ∧ x.merges = [] ∧ x.reads = []

/-- The same of a stack of the module. -/
abbrev State.clean (s : State) (k : Nat) : Prop := (s.stack k).clean

/-! ### Issue -/

/-- Queue `q` of core `n` can issue (R74, R104): the core exists, its queue has been released and has neither halted nor trapped, and its
program counter lies in its program (R79). -/
abbrev State.issues (s : State) (n : Nat) (q : QName) : Prop :=
  n < numCores ∧ (s.core n).stopped = false ∧ ((s.core n).queue q).st ≠ .idle ∧ ((s.core n).queue q).st ≠ .halted
    ∧ ((s.core n).queue q).st ≠ .trapped ∧ ((s.core n).queue q).pc < ((s.core n).queue q).qlen

/-- The instruction in front of a queue. -/
def State.atFront (s : State) (n : Nat) (q : QName) : InstrWord := (s.core n).fetch q

/-- Its wait is covered (R86), and the queue has a slot for an operation (R74). -/
abbrev State.granted (s : State) (n : Nat) (q : QName) (w : InstrWord) : Prop :=
  ((waitOf w).2.1 = 0 ∨ (waitOf w).2.1 ≤ (s.core n).pennant (waitOf w).1)
    ∧ (isControl (opcodeOf w) = true ∨ ((s.core n).queue q).inflight < slotsOf q)

/-- None of a list of decode traps holds (R252). -/
abbrev noTrap (l : Causes) : Prop := ∀ p ∈ l, p.2 = false

/-- An instruction with an opcode of the table stands in front of its own program queue, and can issue: no queue that comes before takes
the counter of its wait (R89), no bound beyond the core stalls it (R111), and the core's memories hold no error (R511). -/
abbrev State.ready (s : State) (n : Nat) (q : QName) (op : Nat) : Prop :=
  s.issues n q ∧ opcodeOf (s.atFront n q) = op ∧ opcodeListed op = true ∧ wrongQueue op q = false ∧ s.granted n q (s.atFront n q)
    ∧ q ≠ .plotter ∧ s.outranked n q = false ∧ s.stalled n (s.atFront n q) = false ∧ (s.core n).sramErr = []

/-- An instruction that the sheet's Plotter has fed stands in front of a core's Plotter queue, and can issue (R101, R108, R250): the queue
runs, the wait is covered by the queue's own counters, a slot of its kind is free, no program vector operation goes first (R99), and the
core's memories hold no error (R511). -/
abbrev State.plotReady (s : State) (n op : Nat) : Prop :=
  n < numCores ∧ (s.core n).pq.st ≠ .idle ∧ (s.core n).pq.st ≠ .halted ∧ (s.core n).pq.st ≠ .trapped ∧ (s.core n).pq.pc < (s.core n).pq.qlen
    ∧ opcodeOf (s.atFront n .plotter) = op
    ∧ ((waitOf (s.atFront n .plotter)).2.1 = 0
      ∨ (waitOf (s.atFront n .plotter)).2.1 ≤ (s.core n).pennantOf .plotter (waitOf (s.atFront n .plotter)).1)
    ∧ (s.core n).pq.full .plotter op = false ∧ s.yields n .plotter = false ∧ (s.core n).sramErr = []

/-- The pennant counters once an issue has consumed its wait (R86). -/
def CoreSt.waited (c : CoreSt) (w : InstrWord) (i : Nat) : Nat :=
  c.pennant i - (if (waitOf w).2.2 = true ∧ (waitOf w).1 = i then (waitOf w).2.1 else 0)

/-- The pennant counters once it has also made its raise at its own core (R87, R90, R299). -/
def CoreSt.raised (c : CoreSt) (w : InstrWord) (i : Nat) : Nat :=
  c.waited w i + (if (raiseOf w).1 = i then (raiseOf w).2.1 else 0)

/-- The command at the ring's consumer index is taken, in form and under bus mastering (R587, R589, R611). -/
abbrev State.takes (s : State) (c : HostCmd) : Prop :=
  s.canTake = true ∧ s.slotOf s.host.cmdConsumer = c ∧ c.bad = false ∧ s.host.busMaster = .on

/-- No peer can be declared lost: no plan stands, or its PEER_TABLE lists no other module (R574). -/
abbrev State.noPeers (s : State) : Prop := s.job.plan = none ∨ ∀ p ∈ s.net.peers, p.present = false ∨ p.module = destModule

/-- What waits once a source has asked for a reset: the widest scope, the first of equals; a Cartouche that has stopped has none of them
(R685, R687). -/
def State.heldReset (s : State) (code : Nat) (scope : Scope) : Option (Nat × Scope) :=
  match s.power.cartouche, s.reset_.pending with
  | true, none => some (code, scope)
  | true, some p => if p.2.rank < scope.rank then some (code, scope) else some p
  | false, p => p

/-! ### Ways through the fabric (R382 to R386) -/

/-- The packets of a core have a way to the station of a column of its target table on a channel. -/
abbrev State.reachesTarget (s : State) (n t vc : Nat) : Prop :=
  targetEntry (Tab.get noTarget s.fabric.routing.target (48 * n + t)) < numStations
    ∧ (neatTrack s.segmentDown (targetEntry (Tab.get noTarget s.fabric.routing.target (48 * n + t))) (targetStation t)).isSome = true
    ∧ neatCarries vc = true ∧ s.dropAt n (targetAttach (Tab.get noTarget s.fabric.routing.target (48 * n + t))) = none

/-- The packets of a station have a way to a core. -/
abbrev State.reachesCore (s : State) (k n : Nat) : Prop :=
  (s.stationWay k n).isSome = true ∧ ∀ x, s.stationWay k n = some x → s.dropAt x.1 n = none

/-- The blocks of a core have a way to where they go. -/
def State.reachesDest (s : State) (n : Nat) : ContribDest → Prop
  | .core d => s.dropAt n d = none
  | .unit g => s.reachesTarget n (44 + g) 4
  | .ledger k => s.reachesTarget n k 3

/-- Every entry of the gather lists has a holder that answers (R353). -/
abbrev State.gathersHeld (s : State) : Prop :=
  ∀ k < numStacks, ∀ e ∈ s.gatherList k, ∃ m ∈ e.holder :: s.otherHolders e.layer e.holder, s.reachable m = true

/-! ### Frames -/

/-- Of the fabric, nothing but packet numbers, counts and the turns of station ports has changed. -/
abbrev State.onlyTraffic (s t : State) : Prop :=
  t.fabric = { s.fabric with seqNo := t.fabric.seqNo, counts := t.fabric.counts, tablesFixed := t.fabric.tablesFixed, band := t.fabric.band }

/-- Nothing but core `n` has changed. -/
def State.onlyCore (s t : State) (n : Nat) : Prop := t = { s with cores := t.cores } ∧ ∀ m, m ≠ n → t.core m = s.core m

/-- Nothing but stack `k` has changed. -/
def State.onlyStack (s t : State) (k : Nat) : Prop := t = { s with hbm := t.hbm } ∧ ∀ m, m ≠ k → t.stack m = s.stack m

/-- One record has been logged, of the event with a name, and nothing has changed but the log and what its copies touch (R541, R592, R599). -/
def State.told (s t : State) (name : String) : Prop :=
  t = { s with log := t.log, nv := t.nv, host := t.host, fieldNet := t.fieldNet, out := t.out } ∧ t.log.seq = (s.log.seq + 1) % 2 ^ 32
    ∧ ∃ e, t.log.ring.getLast? = some e ∧ e.name = name ∧ e.seq = s.log.seq

/-- What has left the module, with the solicitation that resolves a frame's next hop (R548). -/
def State.afterSolicit (s : State) (o : List Out) : Prop := o = s.out ∨ ∃ i a b, o = s.out ++ [.neighborSolicit i a b]

/-- Of a core, nothing but its queues, pennants and counters has changed, and one more instruction has issued. -/
def CoreSt.onlyIssue (c d : CoreSt) : Prop :=
  d = { c with fq := d.fq, aq := d.aq, vq := d.vq, dq := d.dq, pq := d.pq, pen := d.pen, issueSeq := c.issueSeq + 1,
               counters := d.counters, wrapped := d.wrapped }

/-- The queues of a core but one have not changed. -/
def CoreSt.otherQueues (c d : CoreSt) (q : QName) : Prop := ∀ p, p ≠ q → d.queue p = c.queue p

/-- An instruction with an operation has issued: its wait is consumed (R86), its queue moves on (R253), and its operation stands last in
the queue with the raise that it carries (R75, R87), finished or not. -/
def State.tookOp (s t : State) (n : Nat) (q : QName) (fin : Bool) : Prop :=
  (t.core n).issueSeq = (s.core n).issueSeq + 1 ∧ (s.core n).otherQueues (t.core n) q
    ∧ (∀ i, (t.core n).pennant i = (s.core n).waited (s.atFront n q) i)
    ∧ (t.core n).queue q = { (s.core n).queue q with
        pc := ((s.core n).queue q).pc + 1
        st := .run
        opSeq := ((t.core n).queue q).opSeq
        ops := ((t.core n).queue q).ops }
    ∧ ((t.core n).queue q).ops.length = ((s.core n).queue q).ops.length + 1
    ∧ ((t.core n).queue q).ops.getLast? = some
        { opcode := opcodeOf (s.atFront n q), raiseIdx := raiseIndexOf (s.atFront n q), raiseInc := raiseIncrementOf (s.atFront n q),
          seq := (s.core n).issueSeq, done := fin, key := (s.core n).issueSeq, control := false, remote := none }

/-- The program queues of a core have been released at the first instruction of their programs (R78). -/
def CoreSt.released (c : CoreSt) : Prop :=
  c.stopped = false ∧ ∀ q ∈ programQueues, (c.queue q).st = .run ∧ (c.queue q).pc = 0 ∧ (c.queue q).ops = [] ∧ (c.queue q).loops = []

/-- What a vector operation may change in its core besides what issue changes: the activation store, and the counts and flags of
conversions. -/
def CoreSt.vectorFrame (c d : CoreSt) : Prop :=
  d = { c with vq := d.vq, pen := d.pen, issueSeq := d.issueSeq, act := d.act, scales := d.scales, flush := d.flush, qsat := d.qsat,
               qnonfinite := d.qnonfinite, encerr := d.encerr, accCorrected := d.accCorrected, counters := d.counters,
               wrapped := d.wrapped }

/-- Bytes of a memory outside a range read as before. -/
def Memory.sameOutside (m m' : Memory) (a n : Nat) : Prop := ∀ b, b < a ∨ a + n ≤ b → Memory.read m' b = Memory.read m b

end Sys2Proof.Machine
end

