-- ==== Sys2Proof/Certificates/Slice0/Obligations.lean ====
section
/-!
DEFINITION. The statements. Those about a next state assume a quiet state (`State.quiet`), in which no earlier command has left job
control anything to do; every step leaves the state so (Obligations.StepsKeepStateSound). Those that read bytes back assume memories in
canonical form (`State.memOk`), which every step keeps too.
-/

open Sys2Proof Sys2Proof.Machine

/-! ### Control instructions (R75 to R77, R82, R83, R86, R87, R91, R298 to R300) -/

/-- R86, R298: a PWAIT whose counter covers its threshold issues; the threshold is subtracted unless PEEK is 1 (`waitOf`), the program
counter moves on by one, and nothing else of the module changes. -/
def Obligations.PwaitConsumes : Prop :=
  ∀ (s : State) (n : Nat) (q : QName), s.quiet → s.ready n q 0x01 → noTrap (pwaitCauses (s.atFront n q)) →
    ∃ t, exec (.pwait n q) s = .next t ∧ s.onlyCore t n ∧ (s.core n).onlyIssue (t.core n) ∧ (s.core n).otherQueues (t.core n) q
      ∧ (t.core n).queue q = { (s.core n).queue q with pc := ((s.core n).queue q).pc + 1, st := .run }
      ∧ ∀ i, (t.core n).pennant i = (s.core n).waited (s.atFront n q) i

/-- R75, R76, R77, R87, R299, R300: PRAISE at its own core, FENCE and HALT on a queue whose earlier operations have all retired issue and
retire at once: the wait is consumed, the raise is made, the program counter moves on, HALT leaves its queue HALTED, and the core reports
when all four program queues have halted. Nothing else of the module changes. -/
def Obligations.ControlRetiresAtOnce : Prop :=
  ∀ (s : State) (n : Nat) (q : QName) (w : InstrWord), s.quiet → s.atFront n q = w → ((s.core n).queue q).ops = [] →
    (raiseOf w).2.2 = none → (s.core n).raised w (raiseOf w).1 ≤ 65535 →
    (s.ready n q 0x02 → noTrap (praiseCauses s.planCores w) →
      ∃ t, exec (.praise n q) s = .next t ∧ s.onlyCore t n ∧ (s.core n).onlyIssue (t.core n) ∧ (s.core n).otherQueues (t.core n) q
        ∧ (t.core n).queue q = { (s.core n).queue q with pc := ((s.core n).queue q).pc + 1, st := .run }
        ∧ ∀ i, (t.core n).pennant i = (s.core n).raised w i)
    ∧ (s.ready n q 0x03 → noTrap (fenceCauses w) → fenceReady q (s.core n) w = true →
      ∃ t, exec (.fence n q) s = .next t ∧ s.onlyCore t n ∧ (s.core n).onlyIssue (t.core n) ∧ (s.core n).otherQueues (t.core n) q
        ∧ (t.core n).queue q = { (s.core n).queue q with pc := ((s.core n).queue q).pc + 1, st := .run }
        ∧ ∀ i, (t.core n).pennant i = (s.core n).raised w i)
    ∧ (s.ready n q 0x06 → noTrap (bareCauses w) →
      ∃ t, exec (.halt n q) s = .next t ∧ s.onlyCore t n
        ∧ (s.core n).onlyIssue { t.core n with reported := (s.core n).reported } ∧ (s.core n).otherQueues (t.core n) q
        ∧ (t.core n).queue q = { (s.core n).queue q with pc := ((s.core n).queue q).pc + 1, st := .halted }
        ∧ ((t.core n).reported = true ↔ ∀ p ∈ programQueues, ((t.core n).queue p).st = .halted)
        ∧ ∀ i, (t.core n).pennant i = (s.core n).raised w i)

/-- R82, R83: LOOP with a count activates a loop at the next instruction with that count of passes, a count of 0 passes over the body;
ENDLOOP goes back to the body of the innermost loop while passes are left, and leaves it after the last. On a queue without earlier
operations; nothing but the core changes. -/
def Obligations.LoopsCount : Prop :=
  ∀ (s : State) (n : Nat) (q : QName) (w : InstrWord), s.quiet → s.atFront n q = w → ((s.core n).queue q).ops = [] →
    (s.core n).raised w (raiseOf w).1 ≤ 65535 →
    (s.ready n q 0x04 → noTrap (loopCauses w) → loopCount w ≠ 0 → ((s.core n).queue q).loops.length < 4 →
      ∃ t, exec (.loop n q) s = .next t ∧ s.onlyCore t n ∧ (s.core n).onlyIssue (t.core n) ∧ (s.core n).otherQueues (t.core n) q
        ∧ (t.core n).queue q = { (s.core n).queue q with
            pc := ((s.core n).queue q).pc + 1
            st := .run
            loops := { body := ((s.core n).queue q).pc + 1, left := loopCount w } :: ((s.core n).queue q).loops }
        ∧ ∀ i, (t.core n).pennant i = (s.core n).raised w i)
    ∧ (s.ready n q 0x04 → noTrap (loopCauses w) → loopCount w = 0 →
      ∃ t, exec (.loop n q) s = .next t ∧ s.onlyCore t n ∧ (s.core n).onlyIssue (t.core n) ∧ (s.core n).otherQueues (t.core n) q
        ∧ ((t.core n).queue q).loops = ((s.core n).queue q).loops
        ∧ ((t.core n).queue q).pc = skipLoop (s.core n) ((s.core n).queue q) (((s.core n).queue q).qlen - (((s.core n).queue q).pc + 1)) 0
            (((s.core n).queue q).pc + 1)
        ∧ ∀ i, (t.core n).pennant i = (s.core n).raised w i)
    ∧ (∀ l rest, s.ready n q 0x05 → noTrap (bareCauses w) → ((s.core n).queue q).loops = l :: rest →
      ∃ t, exec (.endloop n q) s = .next t ∧ s.onlyCore t n ∧ (s.core n).onlyIssue (t.core n) ∧ (s.core n).otherQueues (t.core n) q
        ∧ ((t.core n).queue q).pc = (if l.left > 1 then l.body else ((s.core n).queue q).pc + 1)
        ∧ ((t.core n).queue q).loops = (if l.left > 1 then { l with left := l.left - 1 } :: rest else rest)
        ∧ ∀ i, (t.core n).pennant i = (s.core n).raised w i)

/-- R75, R87, R91, R92, R299, R359, R381: the oldest operation of a queue, once finished, retires and makes its raise; a PRAISE of another
core on an empty queue leaves as a remote raise, one packet with the next number of its source, on its way to the physical core that the map
gives; a remote raise that arrives in order adds its increment at its core, one that arrives early is held. -/
def Obligations.RaisesArrive : Prop :=
  ∀ (s : State), s.quiet →
    (∀ n q o, n < numCores → ((s.core n).queue q).ops = [o] → o.done = true → o.remote = none → (q = .dispatch → (s.core n).vc4 = []) →
      (s.core n).pennant o.raiseIdx + o.raiseInc ≤ 65535 →
      ∃ t, exec (.operationRetire n q) s = .next t ∧ s.onlyCore t n ∧ (s.core n).otherQueues (t.core n) q
        ∧ (t.core n).queue q = { (s.core n).queue q with ops := [] }
        ∧ (∀ i, (t.core n).pennant i = (s.core n).pennant i + (if o.raiseIdx = i then o.raiseInc else 0))
        ∧ t.core n = { s.core n with fq := (t.core n).fq, aq := (t.core n).aq, vq := (t.core n).vq, dq := (t.core n).dq,
                                     pq := (t.core n).pq, pen := (t.core n).pen })
    ∧ (∀ n q w target, s.atFront n q = w → s.ready n q 0x02 → noTrap (praiseCauses s.planCores w) → ((s.core n).queue q).ops = [] →
      (raiseOf w).2.2 = some target → s.dropAt n (s.phys target) = none →
      ∃ t p, exec (.praise n q) s = .next t ∧ t = { s with cores := t.cores, flight := t.flight, fabric := t.fabric }
        ∧ (∀ m, m ≠ n → t.core m = s.core m) ∧ (s.core n).onlyIssue (t.core n)
        ∧ ((t.core n).queue q).pc = ((s.core n).queue q).pc + 1
        ∧ p.vc = 0 ∧ p.dst = s.phys target ∧ p.seq = Tab.get 0 s.fabric.seqNo (5 * n) % 1024 ∧ p.flits = 1 ∧ p.last = true
        ∧ t.fabric = { s.fabric with seqNo := t.fabric.seqNo, counts := t.fabric.counts, tablesFixed := t.fabric.tablesFixed }
        ∧ Tab.get 0 t.fabric.seqNo (5 * n) = (Tab.get 0 s.fabric.seqNo (5 * n) + 1) % 1024
        ∧ t.flight = { s.flight with raises := s.flight.raises ++
            [{ src := n, dst := s.phys target, idx := (raiseOf w).1, inc := (raiseOf w).2.1, pkt := p, place := .flying }] })
    ∧ (∀ src dst r rest, src < numCores → dst < numCores → s.flight.raisesOf src dst = r :: rest →
      (∀ x ∈ s.flight.raises, x.place = .flying) → s.coreStateOf src ≠ .fenced →
      s.coreStateOf dst ≠ .fenced → (s.core dst).pennant r.idx + r.inc ≤ 65535 →
      ∃ t, exec (.remoteRaise src ⟨dst, 0⟩) s = .next t
        ∧ t = { s with cores := t.cores, flight := t.flight, gaz := { s.gaz with blocks := t.gaz.blocks } }
        ∧ (∀ m, m ≠ dst → t.core m = s.core m) ∧ t.core dst = { s.core dst with pen := (t.core dst).pen }
        ∧ (∀ i, (t.core dst).pennant i = (s.core dst).pennant i + (if r.idx = i then r.inc else 0))
        ∧ t.flight = { s.flight with raises := s.flight.raises.erase r })
    ∧ (∀ src dst nth x, src < numCores → dst < numCores → (s.flight.raisesOf src dst)[nth]? = some x → nth ≠ 0 →
      (∀ y ∈ s.flight.raises, y.place = .flying) →
      ∃ t, exec (.remoteRaise src ⟨dst, nth⟩) s = .next t ∧ t = { s with flight := t.flight }
        ∧ t.flight.raises = setNth (fun r => r.src = src && r.dst = dst) (fun y => { y with place := .early }) nth s.flight.raises
        ∧ t.flight = { s.flight with raises := t.flight.raises })

/-- R104, R105: a program queue whose program counter has left its program (PC_RANGE, R79), or whose instruction no table row lists (OPCODE,
R250), while no other queue of the core stands at a trap (R254), traps: the queue is TRAPPED, the core stops, and outside a job nothing but this core, the log and what reports the event changes. -/
def Obligations.QueueTraps : Prop :=
  ∀ (s : State) (n : Nat) (q : QName), s.quiet → n < numCores → (s.core n).stopped = false →
    ((s.core n).queue q).st = .run → s.inJob = false → q ≠ .plotter → (∀ p, p ≠ q → ∀ k, s.stand n p ≠ .trap k) →
    (((s.core n).queue q).qlen ≤ ((s.core n).queue q).pc
      ∨ ((s.core n).queue q).pc < ((s.core n).queue q).qlen ∧ opcodeListed (opcodeOf (s.atFront n q)) = false
        ∧ waitThresholdOf (s.atFront n q) = 0) →
    ∃ t, exec (.pwait n q) s = .next t ∧ ((t.core n).queue q).st = .trapped ∧ (t.core n).stopped = true
      ∧ (s.core n).otherQueues (t.core n) q ∧ (∀ m, m ≠ n → t.core m = s.core m) ∧ t.log.seq = (s.log.seq + 1) % 2 ^ 32
      ∧ t = { s with cores := t.cores, log := t.log, host := t.host, fieldNet := t.fieldNet, out := t.out }

/-! ### Fetch and array instructions (R67 to R70, R109, R110, R115, R118, R123 to R152, R263 to R277) -/

/-- R67, R68, R109, R266 to R273: an FLOAD or FCONV that finds the activation path idle and room in staging fills one slot with its rows,
row i the window at output position M0 + i, and its operation is finished; one of no rows is finished at once. Nothing else of the
module changes. -/
def Obligations.FetchFillsStaging : Prop :=
  ∀ (s : State) (n : Nat) (w : InstrWord) (r : FloadRun), s.quiet → s.atFront n .fetch = w → (s.core n).floadRun = [] →
    (s.core n).fwgtWait = [] → (s.core n).mmulRun = none → (s.core n).staging.length < 8 → (floadF w).m ≤ slotSpan (floadF w).pack →
    r = { word := w, desc := Memory.readN (s.core n).act (floadF w).desc 64, row := 0, key := (s.core n).issueSeq } →
    ∀ (i : Instr), (i = .fload n .fetch ∧ s.ready n .fetch 0x10 ∧ noTrap (floadCauses (s.core n) false w)
        ∨ i = .fconv n .fetch ∧ s.ready n .fetch 0x11 ∧ noTrap (floadCauses (s.core n) true w)) →
      ∃ t, exec i s = .next t ∧ s.onlyCore t n ∧ s.tookOp t n .fetch true
        ∧ t.core n = { s.core n with fq := (t.core n).fq, pen := (t.core n).pen, issueSeq := (t.core n).issueSeq,
                                     staging := (t.core n).staging, encerr := (t.core n).encerr, counters := (t.core n).counters,
                                     wrapped := (t.core n).wrapped }
        ∧ if (floadF w).m = 0 then (t.core n).staging = (s.core n).staging
          else ∃ slot, (t.core n).staging = (s.core n).staging ++ [slot] ∧ slot.form = r.descriptor.form
            ∧ slot.packed = (floadF w).pack
            ∧ slot.rows = (upFrom (floadF w).m0 (floadF w).m).map (fun pos =>
                ((s.core n).windowRow r.descriptor pos (floadF w).k0 (floadF w).klen).1)

/-- R70, R110, R114, R115, R264, R277: FWGT loads the shadow set from the stream buffer when MSWAP has promoted the last one, and waits
when it has not; MSWAP makes the shadow set the active set and leaves the shadow set empty. R98, R102: an FWGT of the Plotter queue loads
the Plotter weight set, whatever the shadow set holds; that an MSWAP there moves no set is the model's reading (notes/assumptions/16.md). -/
def Obligations.WeightSetsLoadAndSwap : Prop :=
  ∀ (s : State) (n : Nat) (w : InstrWord), s.quiet → (s.core n).floadRun = [] → (s.core n).fwgtWait = [] → (s.core n).mmulRun = none →
    (s.atFront n .fetch = w → s.ready n .fetch 0x12 → noTrap (fwgtCauses w) → (s.core n).shadowFull = false →
      ∃ t, exec (.fwgt n .fetch) s = .next t ∧ s.onlyCore t n ∧ s.tookOp t n .fetch true
        ∧ t.core n = { s.core n with fq := (t.core n).fq, pen := (t.core n).pen, issueSeq := (t.core n).issueSeq,
                                     shadow := (t.core n).shadow, shadowFull := true, encerr := (t.core n).encerr,
                                     counters := (t.core n).counters, wrapped := (t.core n).wrapped }
        ∧ (t.core n).shadow = { form := some (fwgtF w).form, n := (fwgtF w).n,
                                cols := imageCols (s.core n).sbuf (fwgtF w).addr (fwgtF w).form (fwgtF w).n })
    ∧ (s.atFront n .fetch = w → s.ready n .fetch 0x12 → noTrap (fwgtCauses w) → (s.core n).shadowFull = true →
      ∃ t, exec (.fwgt n .fetch) s = .next t ∧ s.onlyCore t n ∧ s.tookOp t n .fetch false
        ∧ t.core n = { s.core n with fq := (t.core n).fq, pen := (t.core n).pen, issueSeq := (t.core n).issueSeq,
                                     fwgtWait := [(w, (s.core n).issueSeq)], counters := (t.core n).counters,
                                     wrapped := (t.core n).wrapped })
    ∧ (s.atFront n .array = w → s.ready n .array 0x21 → noTrap (mswapCauses w) → mswapReady (s.core n) = true →
      ∃ t, exec (.mswap n .array) s = .next t ∧ s.onlyCore t n ∧ s.tookOp t n .array true
        ∧ t.core n = { s.core n with aq := (t.core n).aq, pen := (t.core n).pen, issueSeq := (t.core n).issueSeq,
                                     active := (s.core n).shadow, shadow := .blank, shadowFull := false,
                                     counters := (t.core n).counters, wrapped := (t.core n).wrapped })
    ∧ (s.atFront n .plotter = w → s.plotReady n 0x12 → noTrap (fwgtCauses w) → (s.core n).plotFwgt = [] → (s.core n).plotRun = none →
      ∃ t, exec (.fwgt n .plotter) s = .next t ∧ s.onlyCore t n
        ∧ t.core n = { s.core n with pq := (t.core n).pq, plotPen := (t.core n).plotPen, issueSeq := (t.core n).issueSeq,
                                     plotSet := (t.core n).plotSet, plotStaging := (t.core n).plotStaging,
                                     plotRows := (t.core n).plotRows, encerr := (t.core n).encerr, counters := (t.core n).counters,
                                     wrapped := (t.core n).wrapped }
        ∧ ((t.core n).queue .plotter).pc = ((s.core n).queue .plotter).pc + 1
        ∧ (t.core n).plotSet = { form := some (fwgtF w).form, n := (fwgtF w).n,
                                 cols := imageCols (s.core n).sbuf (fwgtF w).addr (fwgtF w).form (fwgtF w).n })
    ∧ (s.atFront n .plotter = w → s.plotReady n 0x21 → noTrap (mswapCauses w) →
      ∃ t, exec (.mswap n .plotter) s = .next t ∧ s.onlyCore t n
        ∧ t.core n = { s.core n with pq := (t.core n).pq, plotPen := (t.core n).plotPen, issueSeq := (t.core n).issueSeq,
                                     counters := (t.core n).counters, wrapped := (t.core n).wrapped }
        ∧ ((t.core n).queue .plotter).pc = ((s.core n).queue .plotter).pc + 1)

/-- R69, R118, R123 to R134, R139: an MMUL whose rows stand in the first staging slot runs its rows against the active set: the
accumulators take what its rows give in ascending order, the slot is free again, and the operation is finished. An MMUL without rows or
columns is finished at once and writes nothing. No memory of the core or of a stack changes. R98, R103, R250: an MMUL of the Plotter queue
does the same with the Plotter weight set and the rows of the Plotter staging slot, and leaves the sets and slots of the program alone. -/
def Obligations.MmulAccumulates : Prop :=
  ∀ (s : State) (n : Nat) (w : InstrWord) (f : MmulF), s.quiet → mmulF w = f →
    (s.atFront n .array = w → s.ready n .array 0x20 → noTrap (mmulCauses (s.core n) w) → mmulReady (s.core n) w = true →
      (s.core n).floadRun = [] → (s.core n).fwgtWait = [] → f.m = 0 ∨ f.n = 0 →
      ∃ t, exec (.mmul n .array) s = .next t ∧ s.onlyCore t n ∧ s.tookOp t n .array true
        ∧ t.core n = { s.core n with aq := (t.core n).aq, pen := (t.core n).pen, issueSeq := (t.core n).issueSeq,
                                     mmulCount := (s.core n).mmulCount + 1, counters := (t.core n).counters,
                                     wrapped := (t.core n).wrapped })
    ∧ (∀ slot rest c k, s.atFront n .array = w → s.ready n .array 0x20 → noTrap (mmulCauses (s.core n) w) →
      mmulReady (s.core n) w = true → (s.core n).floadRun = [] → (s.core n).fwgtWait = [] →
      f.m ≠ 0 → f.n ≠ 0 → f.k ≠ 0 → (s.core n).staging = slot :: rest → slot.form = f.af →
      mmulSlotRows s.fmt.subnormal f (s.core n).active.vecs (slot.rows.zip (wastedRows (isDouble f.wf f.af) (slot.pads.take f.m))) 0 0
        (s.core n) = (.ok c, f.m, k) →
      ∃ t, exec (.mmul n .array) s = .next t ∧ s.onlyCore t n ∧ s.tookOp t n .array true
        ∧ (t.core n).acc = c.acc ∧ (t.core n).accErr = c.accErr ∧ (t.core n).accSat = c.accSat ∧ (t.core n).flush = c.flush
        ∧ (t.core n).tally = c.tally ∧ (t.core n).staging = rest ∧ (t.core n).mmulRun = none
        ∧ (t.core n).mmulCount = (s.core n).mmulCount + 1 ∧ (t.core n).act = (s.core n).act ∧ (t.core n).sbuf = (s.core n).sbuf
        ∧ (t.core n).istore = (s.core n).istore ∧ (t.core n).active = (s.core n).active ∧ (t.core n).shadow = (s.core n).shadow
        ∧ (t.core n).scales = (s.core n).scales)
    ∧ (∀ c k rows, s.atFront n .plotter = w → s.plotReady n 0x20 → noTrap (mmulCauses (s.core n).plotView w) →
      plotMmulReady (s.core n) w = true → f.m ≠ 0 → f.n ≠ 0 → f.k ≠ 0 → (s.core n).plotStaging = some rows →
      mmulSlotRows s.fmt.subnormal f (s.core n).plotSet.vecs
        ((rows.take f.m).map (fun b => (Vec.ofBytes f.af (kT f.wf) b, false))) 0 0 (s.core n) = (.ok c, f.m, k) →
      ∃ t, exec (.mmul n .plotter) s = .next t ∧ (∀ m, m ≠ n → t.core m = s.core m) ∧ (t.core n).acc = c.acc
        ∧ (t.core n).plotRun = none ∧ (t.core n).active = (s.core n).active ∧ (t.core n).staging = (s.core n).staging
        ∧ (t.core n).mmulRun = (s.core n).mmulRun ∧ (t.core n).mmulCount = (s.core n).mmulCount ∧ (t.core n).act = (s.core n).act
        ∧ ((t.core n).queue .plotter).pc = ((s.core n).queue .plotter).pc + 1)

/-! ### Vector instructions (R278 to R287) -/

/-- R278 to R287: a vector instruction with rows, whose accumulator rows can all be read, writes its results and its operation is finished;
no byte outside its destination range changes, nor anything but its own core. The values: one row of an FP32 VOP is the function of each
lane, flushed; VRED writes its reductions; one row of a VQUANT is the converted row; a VTSTORE of FP32 leaves column 127 in its last row;
row i of a VRAND holds the lanes' mask bits. R250: a VOP, VRED or VQUANT of the Plotter queue does so too, without a window's offset. -/
def Obligations.VectorOperationsWrite : Prop :=
  ∀ (s : State) (n : Nat) (w : InstrWord), s.quiet → s.memOk → s.atFront n .vector = w →
    (∀ f, vopF w = f → s.ready n .vector 0x30 → noTrap (vopCauses (s.core n) w) → f.m ≠ 0 → (srcScan (s.core n) f.src f.m).2 = none →
      ∃ t, exec (.vop n .vector) s = .next t ∧ s.onlyCore t n ∧ s.tookOp t n .vector true ∧ (s.core n).vectorFrame (t.core n)
        ∧ Memory.sameOutside (s.core n).act (t.core n).act f.d (f.m * (if f.bf16 then 256 else 512))
        ∧ (f.m = 1 → f.bf16 = false → Memory.readN (t.core n).act f.d 512 = wordBytes ((upFrom 0 128).map (fun j =>
            (flush32 s.fmt.subnormal (vopValue f.func ((readRow s.fmt.subnormal (s.core n) f.src 0).1.getD j 0)
              ((vopB s.fmt.subnormal (s.core n) f 0).1.getD j 0) (maskBit (s.core n) f 0 j))).1))))
    ∧ (∀ f, vredF w = f → s.ready n .vector 0x31 → noTrap (vredCauses (s.core n) w) → f.m ≠ 0 →
      (srcScan (s.core n) f.src f.m).2 = none →
      ∃ t, exec (.vred n .vector) s = .next t ∧ s.onlyCore t n ∧ s.tookOp t n .vector true ∧ (s.core n).vectorFrame (t.core n)
        ∧ Memory.sameOutside (s.core n).act (t.core n).act f.d (if f.axis then 512 else 4 * f.m)
        ∧ Memory.readN (t.core n).act f.d (if f.axis then 512 else 4 * f.m) = (vredBytes s.fmt.subnormal (s.core n) f).1)
    ∧ (∀ f, vquantF w = f → s.ready n .vector 0x32 → noTrap (vquantCauses (s.core n) w) → f.m ≠ 0 →
      (srcScan (s.core n) f.src f.m).2 = none →
      ∃ t, exec (.vquant n .vector) s = .next t ∧ s.onlyCore t n ∧ s.tookOp t n .vector true ∧ (s.core n).vectorFrame (t.core n)
        ∧ Memory.sameOutside (s.core n).act (t.core n).act f.d f.extent
        ∧ (f.m = 1 → f.image = false → f.rmode ≠ 2 → Memory.readN (t.core n).act f.d (rowBytes f.form)
            = (convRun s.fmt.subnormal f.form (tensorExp (s.core n) f.form f.tent)
                (fun _ => if f.rmode = 1 then .rtz else .rne) (fun _ => if f.rmode = 1 then .rtz else .rne)
                (readRow s.fmt.subnormal (s.core n) f.src 0).1).1))
    ∧ (∀ f, vtstoreF w = f → s.ready n .vector 0x33 → noTrap (vtstoreCauses (s.core n) w) → f.m ≠ 0 →
      (srcScan (s.core n) f.src f.m).2 = none →
      ∃ t, exec (.vtstore n .vector) s = .next t ∧ s.onlyCore t n ∧ s.tookOp t n .vector true ∧ (s.core n).vectorFrame (t.core n)
        ∧ Memory.sameOutside (s.core n).act (t.core n).act f.d (127 * (4 * f.dpitch) + f.rowLen)
        ∧ (f.form = 11 → Memory.readN (t.core n).act (f.d + 127 * (4 * f.dpitch)) (4 * f.m)
            = wordBytes ((upFrom 0 f.m).map (fun m => (readRow s.fmt.subnormal (s.core n) f.src m).1.getD 127 0))))
    ∧ (∀ f, vrandF w = f → s.ready n .vector 0x34 → noTrap (vrandCauses w) → f.m ≠ 0 →
      ∃ t, exec (.vrand n .vector) s = .next t ∧ s.onlyCore t n ∧ s.tookOp t n .vector true ∧ (s.core n).vectorFrame (t.core n)
        ∧ Memory.sameOutside (s.core n).act (t.core n).act f.d (16 * f.m)
        ∧ ∀ m < f.m, Memory.readN (t.core n).act (f.d + 16 * m) 16
            = vrandRow { mode := 2, bits := rbitsOf s.fmt.randomBits 3,
                         key := s.drawKey n (((s.core n).queue .vector).opSeq % 2 ^ 31) 0 } f.p m)
    ∧ (∀ v (i : Instr) (d len : Nat) (src : SrcF) (m : Nat), s.atFront n .plotter = v → m ≠ 0 → (srcScan (s.core n) src m).2 = none →
      (i = .vop n .plotter ∧ s.plotReady n 0x30 ∧ noTrap (vopCauses (s.core n).plotView v) ∧ src = (vopF v).src ∧ m = (vopF v).m
          ∧ d = (vopF v).d ∧ len = m * (if (vopF v).bf16 then 256 else 512)
        ∨ i = .vred n .plotter ∧ s.plotReady n 0x31 ∧ noTrap (vredCauses (s.core n).plotView v) ∧ src = (vredF v).src ∧ m = (vredF v).m
          ∧ d = (vredF v).d ∧ len = (if (vredF v).axis then 512 else 4 * m)
        ∨ i = .vquant n .plotter ∧ s.plotReady n 0x32 ∧ noTrap (vquantCauses (s.core n).plotView v) ∧ src = (vquantF v).src
          ∧ m = (vquantF v).m ∧ d = (vquantF v).d ∧ len = (vquantF v).extent) →
      ∃ t, exec i s = .next t ∧ s.onlyCore t n ∧ ((t.core n).queue .plotter).pc = ((s.core n).queue .plotter).pc + 1
        ∧ (s.core n).vectorFrame { t.core n with pq := (s.core n).pq, plotPen := (s.core n).plotPen }
        ∧ Memory.sameOutside (s.core n).act (t.core n).act d len
        ∧ (i = .vred n .plotter → Memory.readN (t.core n).act d len = (vredBytes s.fmt.subnormal (s.core n) (vredF v)).1))

/-- R198, R200, R201: TRIANGULATION_COMPLETE, while no Plotter program runs at the core, forms the reference row of a core's sample from its BF16
activation rows and the backward copy of the layer in the Plotter weight set, with G 16 and FP32 accumulation, times 2 to the −(t_W + t_A) for
plain forms; past the threshold the layer's
alarms go up by one, the classes flushed come up in the core's flags, and the sample is done. On stacks that read as written, for a finite
reference; nothing else of the module changes. -/
def Obligations.TriangulationAlarms : Prop :=
  ∀ (s : State) (n o : Nat) (x : TriSample) (l : PlanLayer) (e : TriTile) (rs : List (List (Nat × Nat × Nat)))
    (r : List (Word32 × Flushes)), s.quiet → n < numCores → (s.core n).pq.st ≠ .run →
    (s.core n).tri.find? (fun y => y.ordinal = o) = some x → s.planLayer x.layer = some l →
    l.tri.tiles.find? (fun t => some t.core = s.logicalOf n && t.ordinal = x.ordinal) = some e → s.triRanges l e x.n = some rs →
    (∀ p ∈ rs.flatten, s.clean p.1) →
    r = triReference s.fmt.subnormal (triActs s.fmt.subnormal (s.core n) e x.m)
      ((chunks (max 1 (rs.headD []).length) (rs.flatten.map (fun p => s.readStack p.1 p.2.1 p.2.2))).map
        (triWeights s.fmt.subnormal (s.backForm l))) (e.col0 % 128) x.n (triExp (s.core n) l e x) →
    (∀ p ∈ r, isFin32 p.1 = true) →
    ∃ t, exec (.triangulationComplete n o) s = .next t
      ∧ t = { s with cores := t.cores, hbm := t.hbm, gaz := { s.gaz with blocks := t.gaz.blocks }, freshCount := t.freshCount } ∧ (∀ m, m ≠ n → t.core m = s.core m)
      ∧ (∀ k, t.stack k = s.stack k)
      ∧ t.core n = { s.core n with tri := (s.core n).tri.filter (fun y => y.ordinal != o), alarms := (t.core n).alarms, tally := (t.core n).tally, wrapped := (t.core n).wrapped,
                                   plotSet := (t.core n).plotSet, flush := orFlush (s.core n).flush (r.foldl (fun m p => orFlush m p.2) 0) }
      ∧ (t.core n).plotSet.form = some (s.backForm l) ∧ (t.core n).plotSet.n = x.n
      ∧ ∀ y, Tab.get 0 (t.core n).alarms y = Tab.get 0 (s.core n).alarms y
          + (if y = x.layer ∧ triAlarm (l.tri.threshold.getD s.fmt.triThreshold) x.row (r.map (fun p => p.1)) false = true then 1 else 0)

/-! ### Dispatch instructions (R71, R91, R93, R288 to R296, R563, R795) -/

/-- R288, R290, R291, R359, R381: a DSEND to one core puts its data on the way in packets of up to 8,192 bytes, numbered on from the last of
its source and channel, with the destination address and channel, and the pennant on the last; a packet that arrives in order is written at
its address, and a send's last one raises the destination pennant by 1. No other byte changes.
R295, R563: a DRECV that issues before its tagged message has come waits for it, and the source that the plan names is asked for it unless it has
been already, when the DRECV came to stand in front. On VC4 a DSEND's ports have room (R111). -/
def Obligations.CoresSendAndReceive : Prop :=
  (∀ (s : State), s.quiet → s.memOk →
     (∀ n w f, s.atFront n .dispatch = w → dsendF w = f → s.ready n .dispatch 0x40 → noTrap (dsendCauses s.planCores w) → f.dkind = 0 →
       (f.vc = 4 → (s.core n).vc4 = [] ∧ s.vc4Full n w = false) →
       s.dropAt n (s.phys f.dest) = none →
       ∃ t ms, exec (.dsend n .dispatch) s = .next t ∧ s.tookOp t n .dispatch true ∧ (s.core n).onlyIssue (t.core n)
         ∧ (∀ m, m ≠ n → t.core m = s.core m)
         ∧ t = { s with cores := t.cores, flight := { s.flight with sends := s.flight.sends ++ ms }, fabric := t.fabric }
         ∧ s.onlyTraffic t ∧ ms.flatMap (fun m => m.data) = Memory.readN (s.core n).act f.src f.len
         ∧ ms.length = max 1 (ceilDiv f.len 8192)
         ∧ (∀ i m, ms[i]? = some m → m.src = n ∧ m.dst = s.phys f.dest ∧ m.vc = f.vc ∧ m.dmem = f.dmem ∧ m.daddr = f.daddr + 8192 * i
           ∧ m.pen = (if i + 1 = ms.length then f.pen else none) ∧ m.key = (s.core n).issueSeq ∧ m.place = .flying
           ∧ m.pkt.seq = (Tab.get 0 s.fabric.seqNo (5 * n + f.vc) + i) % 1024 ∧ m.data.length ≤ 8192)
         ∧ Tab.get 0 t.fabric.seqNo (5 * n + f.vc) = (Tab.get 0 s.fabric.seqNo (5 * n + f.vc) + ms.length) % 1024)
     ∧ (∀ src dst vc m rest, src < numCores → dst < numCores → s.flight.sendsOf src dst vc = m :: rest →
       (∀ x ∈ s.flight.sends, x.place = .flying) → s.coreStateOf src ≠ .fenced →
       s.coreStateOf dst ≠ .fenced → (∀ p, m.pen = some p → (s.core dst).pennant p < 65535) →
       ∃ t, exec (.dsendArrival src ⟨dst, 0⟩ vc) s = .next t
         ∧ t = { s with cores := t.cores, flight := { s.flight with sends := s.flight.sends.erase m }
                        gaz := { s.gaz with blocks := t.gaz.blocks } }
         ∧ (∀ k, k ≠ dst → t.core k = s.core k)
         ∧ t.core dst = { s.core dst with act := (t.core dst).act, sbuf := (t.core dst).sbuf, pen := (t.core dst).pen
                                          sramErr := (t.core dst).sramErr }
         ∧ (if m.dmem then (t.core dst).act = (s.core dst).act ∧ Memory.readN (t.core dst).sbuf m.daddr m.data.length = m.data
               ∧ Memory.sameOutside (s.core dst).sbuf (t.core dst).sbuf m.daddr m.data.length
             else (t.core dst).sbuf = (s.core dst).sbuf ∧ Memory.readN (t.core dst).act m.daddr m.data.length = m.data
               ∧ Memory.sameOutside (s.core dst).act (t.core dst).act m.daddr m.data.length)
         ∧ ∀ i, (t.core dst).pennant i = (s.core dst).pennant i + (if m.pen = some i then 1 else 0)))
  ∧ (∀ (s : State) (n : Nat) (w : InstrWord) (f : DrecvF) (e : RecvEntry), s.quiet → s.atFront n .dispatch = w → drecvF w = f →
       s.ready n .dispatch 0x44 → noTrap (drecvCauses n s (s.core n) w) → s.recvEntry n f.tag = some e →
       (s.core n).recvHeld.find? (fun x => x.1 = f.tag) = none →
       ∃ t, exec (.drecv n .dispatch) s = .next t ∧ s.tookOp t n .dispatch false ∧ (∀ m, m ≠ n → t.core m = s.core m)
         ∧ (t.core n).recvs = (s.core n).recvs ++
             [{ tag := f.tag, dmem := f.dmem, daddr := f.daddr, len := f.len, key := (s.core n).issueSeq }]
         ∧ (t.core n).recvAsked = false
         ∧ t.net.gathers = s.net.gathers ++ (if (s.core n).recvAsked then [] else
             [{ g := { kind := 5, aux := e.ready, tag := f.tag, layer := e.region, step := s.stepCurrent, first := e.offset, count := e.len },
                holder := e.source, rest := [], use := .recv n f.tag }])
         ∧ t = { s with cores := t.cores, net := t.net, out := t.out, log := t.log, host := t.host, fieldNet := t.fieldNet
                        gaz := { s.gaz with blocks := t.gaz.blocks } })

/-- R292, R293, R321, R383, R795: DSTORE by a core that the target table gives a way to the stack's station writes LEN bytes of the
activation store to its region's range; DLOAD of lines that can be read, with a way back, writes the range's bytes to the core's memory that
LMEM selects. No other byte of the module changes. -/
def Obligations.DstoreAndDloadMove : Prop :=
  ∀ (s : State) (n : Nat) (w : InstrWord) (f : DmoveF) (k a : Nat), s.quiet → s.memOk → s.atFront n .dispatch = w → dmoveF w = f →
    s.moveRange n f = some (k, a) → s.reachesTarget n k 1 → s.clean k →
    (s.ready n .dispatch 0x41 → noTrap (dstoreCauses n s (s.core n) w) →
      ∃ t, exec (.dstore n .dispatch) s = .next t ∧ s.tookOp t n .dispatch true ∧ (s.core n).onlyIssue (t.core n)
        ∧ (∀ m, m ≠ n → t.core m = s.core m) ∧ s.onlyTraffic t
        ∧ t = { s with cores := t.cores, hbm := t.hbm, fabric := t.fabric, gaz := { s.gaz with blocks := t.gaz.blocks } }
        ∧ (∀ j, j ≠ k → t.stack j = s.stack j)
        ∧ t.readStack k a f.len = Memory.readN (s.core n).act f.laddr f.len
        ∧ Memory.sameOutside (s.stack k).mem (t.stack k).mem a f.len)
    ∧ (s.ready n .dispatch 0x42 → noTrap (dloadCauses n s (s.core n) w) → s.reachesCore (targetStation k) n →
      ∃ t, exec (.dload n .dispatch) s = .next t ∧ s.tookOp t n .dispatch true ∧ (∀ m, m ≠ n → t.core m = s.core m)
        ∧ t = { s with cores := t.cores, hbm := t.hbm, fabric := t.fabric, gaz := { s.gaz with blocks := t.gaz.blocks } }
        ∧ s.onlyTraffic t ∧ (∀ j, t.stack j = s.stack j)
        ∧ t.core n = { s.core n with dq := (t.core n).dq, pen := (t.core n).pen, issueSeq := (t.core n).issueSeq, act := (t.core n).act,
                                     sbuf := (t.core n).sbuf, sramErr := (t.core n).sramErr, counters := (t.core n).counters
                                     wrapped := (t.core n).wrapped }
        ∧ (if f.lmem then (t.core n).act = (s.core n).act ∧ Memory.readN (t.core n).sbuf f.laddr f.len = s.readStack k a f.len
              ∧ Memory.sameOutside (s.core n).sbuf (t.core n).sbuf f.laddr f.len
            else (t.core n).sbuf = (s.core n).sbuf ∧ Memory.readN (t.core n).act f.laddr f.len = s.readStack k a f.len
              ∧ Memory.sameOutside (s.core n).act (t.core n).act f.laddr f.len))

/-! ### The gradient exit (R230 to R240, R294, R343 to R349, R439 to R447, R796) -/

/-- R446: Dispatch takes the codes of the DEXIT in front of it from the record slot. R230 to R237, R294, R439, R442, R447: a DEXIT without an
upstream hop then sends its blocks, as the conversion forms them, to the entry's destination, to which it has a way and on VC4 credits (R111), and
counts its tile. -/
def Obligations.DexitSendsItsBlocks : Prop :=
  ∀ (s : State) (n : Nat) (w : InstrWord) (f : DexitF) (k a len : Nat), s.quiet → s.atFront n .dispatch = w → dexitF w = f →
    n < numCores → s.codeRange n f.htab = some (k, a, len) →
    ((s.core n).dq.st ≠ .idle → (s.core n).dq.pc < (s.core n).dq.qlen → opcodeOf w = 0x43 → (s.core n).codes = none → s.clean k →
      s.stackFull k = false →
      ∃ t, exec (.dexitCodesReady n) s = .next t ∧ (∀ j, t.stack j = s.stack j)
        ∧ t = { s with cores := t.cores, hbm := t.hbm, gaz := { s.gaz with blocks := t.gaz.blocks } }
        ∧ (∀ m, m ≠ n → t.core m = s.core m)
        ∧ t.core n = { s.core n with codes := some ((s.readStack k a len).map (fun b => b.toNat)) })
    ∧ (∀ codes e dest, s.ready n .dispatch 0x43 → noTrap (dexitPlanCauses n s (s.core n) w) → (s.core n).codes = some codes →
      s.entryOf n f.htab = some e → s.entryFaulty e = false → e.upstream = false → f.rmode ≠ 2 →
      (e.nextKind = 1 → (s.core n).vc4 = [] ∧ s.vc4Full n w = false) →
      s.dexitDest n f e (e.tileAt (Tab.get 0 (s.core n).dexitCount f.htab)) = some dest → s.reachesDest n dest →
      ((s.core n).accScan f.base (f.m * (if f.efmt = 2 then 2 else 1)) (if f.efmt = 2 then 2 else 1) f.n).2 = none →
      ∃ t m, exec (.dexit n .dispatch) s = .next t ∧ s.tookOp t n .dispatch true ∧ (∀ m, m ≠ n → t.core m = s.core m)
        ∧ (t.core n).codes = none ∧ (t.core n).act = (s.core n).act ∧ (t.core n).sbuf = (s.core n).sbuf ∧ (t.core n).acc = (s.core n).acc
        ∧ Tab.get 0 (t.core n).dexitCount f.htab = Tab.get 0 (s.core n).dexitCount f.htab + 1
        ∧ s.onlyTraffic t ∧ m.pkts.length = ceilDiv f.m 8
        ∧ t = { s with cores := t.cores, fabric := t.fabric, flight := { s.flight with contribs := joinContrib m s.flight.contribs } }
        ∧ m = { src := n, dest := dest, htab := f.htab, layer := e.layer, tile := e.tileAt (Tab.get 0 (s.core n).dexitCount f.htab),
                chain := e.chain, step := s.stepCurrent, attempt := s.stepAttempt, round := if s.job.calibrating then 0 else 1,
                m := e.m, n := e.n,
                blocks := (upFrom 0 (ceilDiv f.m 8)).map (fun b => (dexitBlock s.fmt.subnormal (s.core n) f
                  { mode := f.rmode, bits := rbitsOf s.fmt.randomBits f.rbits, key := s.drawKey n 0 0 }
                  (blockExpOf e (e.mu s.halyard.margin) (codes.getD b 0)) (!s.job.calibrating) b).1),
                pkts := m.pkts })

/-- R439, R442 to R444, R796: the next block for a core (`nextMerge`: the first of a sender and entry whose merge slot is free) is held there, in the stream buffer, when the core's
own DEXIT has not yet come to it. R345, R346: a contribution to a ledger tile that held another step is written in its place, with COUNT 1. R447, R449: the own partial
whose blocks have all arrived joins the tile's sum, which waits for its upstream sums. -/
def Obligations.ContributionsArrive : Prop :=
  ∀ (s : State), s.quiet → s.memOk →
    (∀ n m b bs e, n < numCores → s.nextMerge n [] s.flight.contribs = some m → m.blocks = b :: bs → s.entryOf n m.htab = some e →
      (s.core n).dexits = [] → (∀ r ∈ b.rows, r.length = e.n ∧ ∀ w ∈ r, -2 ^ 47 ≤ w ∧ w < 2 ^ 47) → b.rows.length ≤ 8 →
      e.slotAddr (b.idx % e.mergeSlots) + 6 * e.n * b.rows.length ≤ memBytes true →
      ∃ t u, exec (.halyardMergeBlock n) s = .next t ∧ (∀ k, k ≠ n → t.core k = s.core k)
        ∧ t.core n = { s.core n with merge := (s.core n).merge ++ [u], sbuf := (t.core n).sbuf, sramErr := (t.core n).sramErr }
        ∧ u.htab = m.htab ∧ u.layer = m.layer ∧ u.tile = m.tile ∧ u.blk = { b with rows := [] } ∧ (t.core n).mergeWords u = b.rows
        ∧ Memory.sameOutside (s.core n).sbuf (t.core n).sbuf (e.slotAddr (b.idx % e.mergeSlots)) (6 * e.n * b.rows.length)
        ∧ t = { s with cores := t.cores, flight := { s.flight with contribs := t.flight.contribs }
                       gaz := { s.gaz with blocks := t.gaz.blocks } }
        ∧ (bs = [] → t.flight.contribs = s.flight.contribs.erase m))
    ∧ (∀ k c e tile, k < numStacks → s.clean k → s.flight.contribs.find? (fun m => decide (m.dest = .ledger k) && m.blocks.any (fun b => b.last)) = some c →
      s.entryOf c.src c.htab = some e → s.ledgerTile ((s.logicalOf c.src).getD 0) c.htab (c.tile - e.tileFirst) = some tile →
      c.m = tile.m → c.n = tile.n → tile.expect ≠ 1 →
      ((ledgerHdrOf (s.readStack k (s.ledgerPlace tile).2 576)).step ≠ c.step
        ∨ (ledgerHdrOf (s.readStack k (s.ledgerPlace tile).2 576)).attempt ≠ c.attempt) →
      ∃ t, exec (.ledgerContribution k) s = .next t ∧ (∀ j, j ≠ k → t.stack j = s.stack j)
        ∧ t.flight = { s.flight with contribs := s.flight.contribs.erase c }
        ∧ (ledgerHdrOf (t.readStack k (s.ledgerPlace tile).2 576)).step = c.step % 2 ^ 32
        ∧ (ledgerHdrOf (t.readStack k (s.ledgerPlace tile).2 576)).attempt = c.attempt % 256
        ∧ (ledgerHdrOf (t.readStack k (s.ledgerPlace tile).2 576)).count = 1
        ∧ (t.stack k).counts.ledgerAdds = satAdd32 (s.stack k).counts.ledgerAdds 1
        ∧ t = { s with hbm := t.hbm, flight := t.flight, gaz := t.gaz })
    ∧ (∀ g layer tile step m c, g < 4 →
      s.flight.contribs.filter (fun x => decide (x.dest = .unit g) && x.layer = layer && x.tile = tile && x.step = step) = [m] →
      ceilDiv m.m 8 ≤ m.blocks.length → s.chainEntry m.chain = some c → c.upstream ≠ 0 → s.roleOf layer ≠ 3 →
      s.ownSent layer tile (stampOf step m.round) = false → s.isLate layer tile (stampOf step m.round) = false → s.openSum c.group layer tile step m.round = none → s.openCount c.group < 1024 →
      (ownOfBlocks m.blocks).contributors ≤ maxContributors →
      ∃ t o, exec (.halyardOwnPartial g layer tile step) s = .next t
        ∧ t.openSum c.group layer tile step m.round = some o ∧ o.own = some (ownOfBlocks m.blocks) ∧ o.up = none ∧ o.tOwn = s.micros
        ∧ t = { s with flight := t.flight, halyard := t.halyard, gaz := { s.gaz with blocks := t.gaz.blocks }
                       fabric := { s.fabric with tablesFixed := t.fabric.tablesFixed } })

/-! ### Stream units and stream copies (R327 to R334, R340) -/

/-- R331 to R334, R361: a granted stream wait subtracts its threshold and the tile can go, or its credit waits go out on VC0, one to each receiver
to which the stack's station has a way; where a credit wait has come and no queue of its receiver is granted a wait on the same pennant, the
credit is subtracted from that pennant, and the last one makes the tile ready; a tile that is delivered is written at its address in the stream buffer and raises its
pennant by 1; after the last tile the descriptor's raise is made and the next descriptor begins. -/
def Obligations.StreamUnitsAdvance : Prop :=
  ∀ (s : State) (k u : Nat) (x : UnitSt) (d : StreamDesc), s.quiet → s.memOk → k < numStacks → u < 4 → s.unit k u = x →
    s.streamDesc k u x.pos = d →
    (x.st = .lwait → d.lwaitThr ≤ (s.stack k).counter d.lwaitIdx →
      ∃ t, exec (.lwaitGrant k u) s = .next t ∧ t = { s with hbm := t.hbm, fabric := t.fabric } ∧ s.onlyTraffic t
        ∧ (∀ j, j ≠ k → t.stack j = s.stack j)
        ∧ t.stack k = { s.stack k with counters := (t.stack k).counters, units := (t.stack k).units }
        ∧ (t.stack k).counter d.lwaitIdx = (s.stack k).counter d.lwaitIdx - d.lwaitThr
        ∧ (∀ i, i ≠ d.lwaitIdx → (t.stack k).counter i = (s.stack k).counter i)
        ∧ t.unit k u = (if d.cwaitThr ≠ 0 ∧ s.receivers d ≠ [] then { x with st := .credits, pend := s.receivers d, asks := (t.unit k u).asks }
                        else { x with st := .ready, pend := [], asks := [] })
        ∧ (d.cwaitThr ≠ 0 → (∀ l ∈ s.receivers d, s.reachesCore (targetStation k) (s.phys l)) →
            (t.unit k u).asks.map (fun y => y.1) = s.receivers d
              ∧ ∀ y ∈ (t.unit k u).asks, y.2.vc = 0 ∧ y.2.flits = 1 ∧ y.2.dst = s.phys y.1)
        ∧ ∀ v, v ≠ u → t.unit k v = s.unit k v)
    ∧ (∀ n l, n < numCores → s.logicalOf n = some l → x.st = .credits → l ∈ x.pend → x.asks.any (fun y => y.1 = l) = true →
      d.cwaitThr ≤ (s.core n).pennant d.cwaitIdx → s.localGrant n d.cwaitIdx = false →
      ∃ t, exec (.remoteWait k u n) s = .next t ∧ t = { s with cores := t.cores, hbm := t.hbm, gaz := { s.gaz with blocks := t.gaz.blocks } }
        ∧ (∀ m, m ≠ n → t.core m = s.core m) ∧ t.core n = { s.core n with pen := (t.core n).pen }
        ∧ (t.core n).pennant d.cwaitIdx = (s.core n).pennant d.cwaitIdx - d.cwaitThr
        ∧ (∀ i, i ≠ d.cwaitIdx → (t.core n).pennant i = (s.core n).pennant i)
        ∧ t.unit k u = { x with pend := x.pend.erase l, asks := x.asks.filter (fun y => y.1 != l), st := if (x.pend.erase l).isEmpty then .ready else .credits }
        ∧ (∀ j, (t.stack j).mem = (s.stack j).mem ∧ (t.stack j).counters = (s.stack j).counters))
    ∧ (∀ n m p, n < numCores → s.flight.tiles.find? (fun y => y.stack = k && y.unit = u && y.dst = n) = some m → m.pen = some p → m.lost = [] →
      s.coreStateOf n ≠ .fenced → (s.core n).pennant p < 65535 →
      ∃ t, exec (.streamTileDelivered k u n) s = .next t ∧ t.flight = { s.flight with tiles := s.flight.tiles.erase m }
        ∧ t.core n = { s.core n with sbuf := (t.core n).sbuf, pen := (t.core n).pen, sramErr := (t.core n).sramErr } ∧ (∀ j, j ≠ n → t.core j = s.core j)
        ∧ Memory.readN (t.core n).sbuf m.addr m.data.length = m.data
        ∧ Memory.sameOutside (s.core n).sbuf (t.core n).sbuf m.addr m.data.length
        ∧ (∀ i, (t.core n).pennant i = (s.core n).pennant i + (if i = p then 1 else 0))
        ∧ t.unit k u = { x with out := x.out - 1 }
        ∧ t = { s with cores := t.cores, hbm := t.hbm, flight := t.flight, gaz := t.gaz })
    ∧ (x.st = .sending → x.out = 0 → (s.stack k).counter d.lraiseIdx + d.lraiseInc ≤ 65535 →
      ∃ t, exec (.streamDescriptorEnd k u) s = .next t ∧ t = { s with hbm := t.hbm, fabric := t.fabric } ∧ s.onlyTraffic t
        ∧ (∀ j, j ≠ k → t.stack j = s.stack j)
        ∧ t.stack k = { s.stack k with counters := (t.stack k).counters, units := (t.stack k).units }
        ∧ (∀ i, (t.stack k).counter i = (s.stack k).counter i + (if d.lraiseIdx = i then d.lraiseInc else 0))
        ∧ (t.unit k u).pos = x.pos + 1 ∧ (t.unit k u).rep = 0
        ∧ ((s.streamDesc k u (x.pos + 1)).op = 0 → (t.unit k u).st = .ended))

/-- R330, R334, R335, R359: a unit that is ready reads its source tile from its stack and sends it in packets to every receiver, to which the
stack's station has a way, each copy with the descriptor's buffer slot and pennant; after the last repeat the unit waits for its
deliveries. -/
def Obligations.StreamTileGoesOut : Prop :=
  ∀ (s : State) (k u : Nat) (x : UnitSt) (d : StreamDesc), s.quiet → k < numStacks → u < 4 → s.clean k → s.unit k u = x →
    s.streamDesc k u x.pos = d → x.st = .ready → d.op ≠ 3 → s.staleKeep k (d.src + x.rep * d.tstride) = none → s.stackFull k = false →
    (∀ l ∈ s.receivers d, s.reachesCore (targetStation k) (s.phys l)) →
    ∃ t ms, exec (.streamTileSend k u) s = .next t ∧ t.flight = { s.flight with tiles := s.flight.tiles ++ ms }
      ∧ ms.length = (s.receivers d).length
      ∧ (∀ (i l : Nat) (m : TileMsg), (s.receivers d)[i]? = some l → ms[i]? = some m →
          m = { stack := k, unit := u, dst := s.phys l, addr := d.sbaddr + x.rep % (max 1 d.sbslots) * d.sbstep,
                data := s.readStack k (d.src + x.rep * d.tstride) d.tileBytes, pen := d.dpen, rep := x.rep, pkts := m.pkts, lost := [] }
          ∧ m.pkts.length = max 1 (ceilDiv d.tileBytes 8192) ∧ ∀ p ∈ m.pkts, p.vc = 1 ∧ p.dst = s.phys l ∧ p.flits ≤ 32)
      ∧ (t.unit k u).rep = x.rep + 1 ∧ (t.unit k u).out = x.out + (s.receivers d).length
      ∧ (d.rep ≤ x.rep + 1 → (t.unit k u).st = .sending)
      ∧ (∀ j, (t.stack j).mem = (s.stack j).mem ∧ (t.stack j).counters = (s.stack j).counters)
      ∧ s.onlyTraffic t
      ∧ t = { s with hbm := t.hbm, flight := t.flight, fabric := t.fabric, job := { s.job with reading := max s.job.reading s.stepCurrent }
                     gaz := { s.gaz with blocks := t.gaz.blocks } }

/-- R340: when a layer's release counter on a stack covers its threshold, the threshold is subtracted and the held writes of the layer's
oldest held copy take effect: here one code record or tile, at its place; a write of a later step stays held. Before that all stay held. -/
def Obligations.HeldWritesWaitForRelease : Prop :=
  ∀ (s : State) (k l : Nat) (c : CopyCtr), s.quiet → s.memOk → k < numStacks → s.copyCtr l k = some c → s.clean k →
    (∀ j, (s.stack j).merges = []) →
    ((s.stack k).counter c.release < c.threshold → exec (.streamCopyWriteRelease k l) s = .next s)
    ∧ (∀ h late pl p, c.threshold ≤ (s.stack k).counter c.release → (s.stack k).held = h :: late → h.layer = l →
      (∀ x ∈ late, x.layer = l ∧ h.step < x.step) → s.planLayer l = some pl → s.isHeld l k h.part h.step = false →
      s.copyPlace pl h.part h.first = some p → h.count = 1 → h.data ≠ [] → (s.placeAddr p h.first).1 = k →
      (s.copyItems pl k).any (fun i => i != 2 ^ 32 * h.part + h.first && !s.halyard.written.contains (64 * pl.layer + k, h.step, i)) = true →
      ∃ t, exec (.streamCopyWriteRelease k l) s = .next t ∧ (t.stack k).held = late
        ∧ (t.stack k).counter c.release = (s.stack k).counter c.release - c.threshold
        ∧ t.readStack k (s.copyAddr p h.first h.step) h.data.length = h.data
        ∧ Memory.sameOutside (s.stack k).mem (t.stack k).mem (s.copyAddr p h.first h.step) h.data.length
        ∧ (∀ j, j ≠ k → t.stack j = s.stack j) ∧ t = { s with hbm := t.hbm, halyard := t.halyard })

/-! ### Uncorrectable lines (R310 to R317, R794) -/

/-- R311, R315: when a mirror has not answered in time, the fetch ends, MIRROR_FAILED goes up, and a line that only the scrub wanted is logged;
R311, R317: the lines of a group whose data has come are written back, and no errors but those of their cells remain, when the verification
passes; otherwise the group enters the bad-line map, once; R310, R316: a patrol scrub writes back what the outer code makes of every line with errors, when it can be
read, and counts those that it has corrected. -/
def Obligations.LinesAreRepaired : Prop :=
  ∀ (s : State) (k line : Nat) (f : FetchSt), s.quiet → s.memOk → k < numStacks →
    (s.fetchOf k line = some f → f.good = none → f.came = false → f.consumers = [.scrub] → f.overwritten = [] → f.line = line →
      ∃ t, exec (.mirrorTimeout k line) s = .next t ∧ t.fetchOf k line = none
        ∧ (t.stack k).counts.mirrorFailed = satAdd32 (s.stack k).counts.mirrorFailed 1 ∧ (t.stack k).mem = (s.stack k).mem
        ∧ s.aon ≤ t.aon ∧ 25 * (f.start + s.job.mirrorTimeout) ≤ t.aon ∧ t.log.seq = (s.log.seq + 1) % 2 ^ 32
        ∧ (∀ j, j ≠ k → t.stack j = s.stack j) ∧ t.cores = s.cores ∧ t.job = s.job)
    ∧ (∀ good, s.fetchOf k line = some f → f.good = some good → good.length = 512 → f.overwritten = [] →
      ((s.stack k).bad.map (fun p => p.1)).Pairwise (fun a b => a < b) →
      (s.stack k).verifies (line / 8) good f.covers = true →
      ∃ t, exec (.hbmWritebackVerify k line true) s = .next t ∧ s.onlyStack t k ∧ t.fetchOf k line = none
        ∧ (∀ l, l / 8 = line / 8 → f.covers l = true → t.readStack k (64 * l) 64 = slice good (64 * (l % 8)) 64
            ∧ Tab.get ⟨[], []⟩ (t.stack k).bad l = ⟨Tab.get [] (s.stack k).stuck l, []⟩)
        ∧ (∀ a, ¬ (a / 512 = line / 8 ∧ f.covers (a / 64) = true) → Memory.read (t.stack k).mem a = Memory.read (s.stack k).mem a)
        ∧ (t.stack k).badLines = (s.stack k).badLines)
    ∧ (∀ good, s.fetchOf k line = some f → f.good = some good → (s.stack k).badLines.length < 4096 →
      ∃ t, exec (.hbmWritebackVerify k line false) s = .next t ∧ s.onlyStack t k ∧ t.fetchOf k line = none
        ∧ (t.stack k).badLines
            = if line / 8 ∈ (s.stack k).badLines then (s.stack k).badLines else (s.stack k).badLines ++ [line / 8])
    ∧ (∀ ls, (s.stack k).errLines (fun _ => true) = ls → ls.Nodup → s.job.scrubPeriod ≠ 0 → s.power.powerState ≤ 1 → (s.stack k).counts.corrected < 2 ^ 32 →
      (∀ l ∈ ls, (s.stack k).readLine l ≠ .lost) →
      ∃ t, exec (.patrolScrub k) s = .next t
        ∧ (∀ l d cor again, l ∈ ls → (s.stack k).readLine l = .data d cor again → t.readStack k (64 * l) 64 = d
            ∧ Tab.get ⟨[], []⟩ (t.stack k).bad l = ⟨Tab.get [] (s.stack k).stuck l, []⟩)
        ∧ (∀ a, a / 64 ∉ ls → Memory.read (t.stack k).mem a = Memory.read (s.stack k).mem a)
        ∧ (t.stack k).counts.corrected = satAdd32 (s.stack k).counts.corrected
            (ls.filter (fun l => match (s.stack k).readLine l with | .data _ cor _ => cor | .lost => false)).length
        ∧ (∀ j, j ≠ k → t.stack j = s.stack j) ∧ t = { s with hbm := t.hbm, gaz := t.gaz })

/-! ### Links and routers (R374 to R377, R379, R386) -/

/-- R374, R375: a flit whose eighth retransmission in a row has not failed is requested again and counted; R372, R373, R375, R376: a link
whose retransmissions reach SELFTEST_TRIGGER is under self-test and counted, and a test that leaves it with at most 128 failed data wires and
one failed sideband wire brings it up, each failed wire on a spare of its own; R379, R386: a head that has waited ESCAPE_WAIT, with a credit
there, moves its packet to the escape sub-channel and follows the ESCAPE ports, and is discarded and counted where they end; before that it
waits. Nothing else changes. -/
def Obligations.LinksRetryAndTest : Prop :=
  ∀ (s : State) (l : Nat), s.quiet → linkExists l = true →
    (∀ again, (again = true → (s.link l).fails < 7) → (s.link l).st = .up →
      ∃ t, exec (.linkCrcMismatch l again) s = .next t
        ∧ t.link l = { s.link l with fails := if again then (s.link l).fails + 1 else 0,
                                     retryAt := (s.link l).retryAt.filter (fun a => s.micros < a + 1000) ++ [s.micros] }
        ∧ (∀ m, m ≠ l → t.link m = s.link m) ∧ t = { s with fabric := t.fabric, gaz := t.gaz }
        ∧ t.fabric = { s.fabric with links := t.fabric.links, counts := t.fabric.counts }
        ∧ ∀ n, linkReceiver l = some n →
            (Tab.get .zero t.fabric.counts n).crcRetries = satAdd32 (Tab.get .zero s.fabric.counts n).crcRetries 1)
    ∧ ((s.link l).st = .up → s.fabric.selftestTrigger ≤ (s.link l).retryAt.length →
      ∃ t, exec (.selftestTrigger l) s = .next t ∧ t.link l = { s.link l with st := .selfTest, retryAt := [] }
        ∧ (∀ m, m ≠ l → t.link m = s.link m) ∧ t = { s with fabric := { s.fabric with links := t.fabric.links, counts := t.fabric.counts } }
        ∧ ∀ n, linkReceiver l = some n →
            (Tab.get .zero t.fabric.counts n).selfTests = satAdd32 (Tab.get .zero s.fabric.counts n).selfTests 1)
    ∧ (∀ wires side, (s.link l).st = .selfTest → (s.link l).spares + wires.length ≤ 128 → side ≤ 1 →
      ∃ t, exec (.linkSelftestComplete l wires side) s = .next t
        ∧ t.link l = { s.link l with st := .up, wires := (t.link l).wires, fails := 0, retryAt := [] }
        ∧ (∀ p ∈ (s.link l).wires, p ∈ (t.link l).wires) ∧ (∀ w ∈ wires, ∃ p ∈ (t.link l).wires, p.1 = w)
        ∧ (((s.link l).wires.map (fun p => p.2)).Nodup → ((t.link l).wires.map (fun p => p.2)).Nodup)
        ∧ (∀ m, m ≠ l → t.link m = s.link m) ∧ t = { s with fabric := { s.fabric with links := t.fabric.links } })
    ∧ (∀ r d c w, r < numCores → d < numCores → c ≤ 4 → s.fabric.escapeWait ≤ w →
      ∃ t, exec (.escapeWaitExpiry r d ⟨c, w, true⟩) s = .next t
        ∧ (∀ x, escapeEnd s.fabric.routing.hop numCores r d = some x →
            t = { s with flight := (s.moveFlight r d c false).getD s.flight, gaz := t.gaz, fabric := { s.fabric with counts := t.fabric.counts } }
              ∧ (Tab.get .zero t.fabric.counts x).noRoute = satAdd32 (Tab.get .zero s.fabric.counts x).noRoute 1)
        ∧ (escapeEnd s.fabric.routing.hop numCores r d = none →
            t = { s with flight := (s.moveFlight r d c true).getD s.flight, gaz := t.gaz }))
    ∧ (∀ r d c w credit, r < numCores → d < numCores → c ≤ 4 → (w < s.fabric.escapeWait ∨ credit = false) →
      exec (.escapeWaitExpiry r d ⟨c, w, credit⟩) s = .next s)

/-! ### Faults and the routing reload (R389, R509 to R515, R522) -/

/-- R509, R512, R515: a class B fault outside a reload is logged with its class, counted, and begins a batch that holds it: the queues of
every mapped core stop and the reload drains. During the drain it joins the batch; later in the reload it waits for the next batch.
R509, R522: a class C fault is logged and counted, and a module that holds a plan leaves the job: it holds no plan, its JOB_STATE is
NO_PLAN and its JOB_ROLE is 3. -/
def Obligations.FaultsAreAnswered : Prop :=
  (∀ (s : State) (n : Nat), s.quiet → n < numCores →
     ∃ t, exec (.classBFault (.core n)) s = .next t ∧ t.job.classB = satAdd32 s.job.classB 1 ∧ t.log.seq = (s.log.seq + 1) % 2 ^ 32
       ∧ t.job.batch.stage = .reload ∧ t.job.plan = s.job.plan ∧ t.job.jobState = s.job.jobState
       ∧ (s.job.batch.stage ≠ .reload → t.job.batch.faults = [.core n] ∧ t.job.batch.next = [] ∧ t.fabric.reload = .draining
           ∧ ∀ m ∈ s.mapped, (t.core m).stopped = true)
       ∧ (s.job.batch.stage = .reload → s.fabric.reload = .draining → t.job.batch.faults = s.job.batch.faults ++ [.core n])
       ∧ (s.job.batch.stage = .reload → s.fabric.reload ≠ .draining →
           t.job.batch.next = s.job.batch.next ++ [.core n] ∧ t.job.batch.faults = s.job.batch.faults))
  ∧ (∀ (s : State) (g : Nat), s.quiet → g < 4 → s.job.plan ≠ none →
       ∃ t, exec (.classCFault (.portGroup g)) s = .next t ∧ t.job.classC = satAdd32 s.job.classC 1 ∧ t.job.plan = none
         ∧ t.job.jobState = jsNO_PLAN ∧ t.job.role = 3 ∧ t.net.beatsOn = false ∧ t.flight = .reset ∧ ∀ k, (t.stack k).mem = (s.stack k).mem)

/-- R52, R389: the reload's stages follow one another. The drain discards what is in flight; new tables are built, and then written with the
legend, whose epoch rises when it changes; the
readback that agrees raises FABRIC_EPOCH by 1 and the batch's owed updates run; one that disagrees repeats the write once, and then asks for
reset source CRITICAL_STATE. -/
def Obligations.ReloadStagesFollow : Prop :=
  ∀ (s : State), s.quiet →
    (s.fabric.reload = .draining →
      ∃ t, exec .routingDrainComplete s = .next t ∧ t.flight = .reset ∧ t.fabric.reload = .building
        ∧ t.fabric.epoch = s.fabric.epoch ∧ t.fabric.routing = s.fabric.routing ∧ t.job = s.job ∧ t.cores = s.cores ∧ t.wafer = s.wafer)
    ∧ (∀ b, s.fabric.reload = .building → s.build.1.unplaced = false → s.build.2 = b →
      ∃ t, exec .routingTablesBuilt s = .next t ∧ t.fabric.reload = .writing ∧ t.fabric.routing = b.routing ∧ t.wafer.logical = b.logical
        ∧ (∀ n ∈ b.routerDown, n ∈ t.wafer.routerDown)
        ∧ t.wafer.legendEpoch = (if b.changed then (s.wafer.legendEpoch + 1) % 2 ^ 32 else s.wafer.legendEpoch)
        ∧ t.wafer.coreState = b.coreState ∧ t.job.batch.fenced = s.job.batch.fenced ++ b.fenced)
    ∧ (s.fabric.reload = .writing →
      exec .routingWriteComplete s = .next { s with fabric := { s.fabric with reload := .reading } })
    ∧ (s.fabric.reload = .reading → s.job.batch.next = [] → (∀ p ∈ s.net.peers, p.rx = []) → s.job.ckpt.st = 0 →
      ∃ t, exec (.routingReadbackComplete true) s = .next t ∧ t.fabric.reload = .none ∧ t.fabric.epoch = (s.fabric.epoch + 1) % 2 ^ 32
        ∧ t.job.batch.stage = .owed ∧ t.job.batch.faults = [] ∧ t.job.batch.owed = s.owedNow)
    ∧ (s.fabric.reload = .reading → s.fabric.reloadFails = 0 →
      exec (.routingReadbackComplete false) s = .next { s with fabric := { s.fabric with reload := .writing, reloadFails := 1 } })
    ∧ (s.fabric.reload = .reading → s.fabric.reloadFails ≠ 0 → s.power.cartouche = true → s.reset_.pending = none →
      exec (.routingReadbackComplete false) s
        = .next { s with reset_ := { s.reset_ with pending := some (rcCRITICAL_STATE, .warm) } })

/-! ### After a batch (R421, R512, R514, R517 to R521) -/

/-- R512, R515, R517: when no owed update is left, a batch outside a step is over, unless a realignment waits: that is decided afresh, and not
back to an earlier step (DESIGN CHOICE: notes/assumptions/28.md); in a step, the module replays when its peers have read no later
step, and realigns to the step after theirs otherwise. -/
def Obligations.BatchesReplayOrRealign : Prop :=
  ∀ (s : State), s.quiet → s.job.batch.stage = .owed → (∀ x ∈ s.job.batch.owed, x ∉ s.owedNow) →
    (s.running = none → s.job.resync = 0 →
      exec .owedUpdatesDone s = .next { s with job := { s.job with batch := s.job.batch.finish } })
    ∧ (s.running = none → s.job.resync ≠ 0 → s.halyard.sums = [] → (∀ k, (s.stack k).held = []) →
      ∃ t, exec .owedUpdatesDone s = .next t ∧ t.job.release = .realign (max (s.peerStep + 1) s.job.resync)
        ∧ t.job.resync = max (s.peerStep + 1) s.job.resync ∧ t.job.next = max (s.peerStep + 1) s.job.resync
        ∧ t.job.batch.stage = .release ∧ ∀ k, (t.stack k).mem = (s.stack k).mem)
    ∧ (∀ r, s.running = some r → s.peerStep ≤ r.step →
      ∃ t, exec .owedUpdatesDone s = .next t ∧ t.job.release = .replay r.step ∧ t.job.batch.stage = .release
        ∧ t.job.replays = satAdd32 s.job.replays 1 ∧ t.job.replayed = true ∧ t.flight = .reset
        ∧ (∀ n ∈ s.mapped, (t.core n).stopped = true ∧ (t.core n).tri = [] ∧ (t.core n).dexits = [])
        ∧ (∀ k, (t.stack k).mem = (s.stack k).mem) ∧ t.halyard = s.halyard ∧ t.plotter = s.plotter ∧ t.fabric = s.fabric)
    ∧ (∀ r, s.running = some r → r.step < s.peerStep → s.halyard.sums = [] → (∀ k, (s.stack k).held = []) →
      ∃ t, exec .owedUpdatesDone s = .next t ∧ t.job.release = .realign (s.peerStep + 1) ∧ t.job.resync = s.peerStep + 1
        ∧ t.job.next = s.peerStep + 1 ∧ t.job.realigns = satAdd32 s.job.realigns 1
        ∧ t.job.abandoned = satAdd32 s.job.abandoned (s.peerStep + 1 - r.step) ∧ t.job.rec0 = .free ∧ t.job.rec1 = .free
        ∧ t.flight = s.flight.keepBefore r.step ∧ (∀ n ∈ s.mapped, (t.core n).stopped = true) ∧ t.log.seq = (s.log.seq + 1) % 2 ^ 32
        ∧ ∀ k, (t.stack k).mem = (s.stack k).mem)

/-- R421 step 5, R519 step 5, R521: once every copy holds the state that the step reads, a replayed step's queues are released; a
realignment's once the inputs of its step have been posted. The batch's response is then over.
R46, R47, R514: a fenced core that passes its self-test, its regulators whole, is in no list; one that fails enters the field-defect list
while that has room. A core fenced for its temperature waits until it has cooled, by a sensor that has not failed (R677, R680). -/
def Obligations.BatchesAreReleased : Prop :=
  (∀ (s : State), s.quiet → s.job.jobState = jsRUNNING → s.job.batch.stage ≠ .reload → s.job.batch.stage ≠ .owed → s.job.plan ≠ none →
     s.gathersHeld →
     (∀ r, s.job.release = .replay r.step → s.running = some r → s.copiesReady r.step = true →
       ∃ t, exec .replayRelease s = .next t ∧ t.job.release = .none ∧ t.job.batch = s.job.batch.finish ∧ t.running = some r
         ∧ (∀ l < s.planCores, (t.core (s.phys l)).released) ∧ (∀ n, n ∉ s.mapped → t.core n = s.core n)
         ∧ ∀ k, (t.stack k).mem = (s.stack k).mem)
     ∧ (∀ target, s.job.release = .realign target → (s.record target).st = .input → (s.record target).step = target →
       s.job.ckpt.st = 0 →
       ∃ t, exec .realignRelease s = .next t ∧ t.job.release = .none ∧ t.job.resync = 0 ∧ t.job.batch = s.job.batch.finish
         ∧ (t.record target).st = .running ∧ (t.record target).step = target ∧ t.job.next = target + 1
         ∧ (∀ l < s.planCores, (t.core (s.phys l)).released) ∧ ∀ k, (t.stack k).mem = (s.stack k).mem))
  ∧ (∀ (s : State) (n : Nat), s.quiet → n < numCores → n ∈ s.job.batch.testing → s.coreStateOf n = .fenced →
       (n ∈ s.power.hotFenced → n ∉ s.power.failedSensors → numLe (Tab.get 0#32 s.power.coreTemps n) (int32 95) = false →
         ∀ ok, exec (.coreSelfTestComplete n ok) s = .next s)
       ∧ (n ∉ s.power.hotFenced ∨ n ∈ s.power.failedSensors → (s.reg (regId 1 n)).failed = false → (s.reg (regId 2 n)).failed = false →
         exec (.coreSelfTestComplete n true) s
           = .next { s with job := { s.job with batch := { s.job.batch with testing := s.job.batch.testing.filter (fun m => m != n) } } })
       ∧ (n ∉ s.power.hotFenced ∨ n ∈ s.power.failedSensors → n ∉ s.wafer.fieldDefects → s.wafer.fieldDefects.length < 64 →
         ∃ t, exec (.coreSelfTestComplete n false) s = .next t
           ∧ t = { s with job := { s.job with batch := { s.job.batch with testing := s.job.batch.testing.filter (fun m => m != n) } }
                          wafer := { s.wafer with flash0 := t.wafer.flash0, flash1 := t.wafer.flash1 } }
           ∧ t.wafer.fieldDefects = s.wafer.fieldDefects ++ [n] ∧ t.wafer.fieldSeq = s.wafer.fieldSeq + 1))

/-! ### Steps (R415 to R421, R430, R518, R630) -/

/-- R418, R419, R521: STEP_INPUT of the step that runs next, or of the one after it once that one's inputs are posted, makes its record INPUT
where that is FREE or COMPLETE; the other record, and all else but the action record, stay.
R115, R331, R630: JOB_START of a loaded job sets JOB_STATE to RUNNING and the controller counters to the plan's values, and marks the Plotter
weight sets as holding no form. No record or memory changes. -/
def Obligations.JobsStartOnInputs : Prop :=
  (∀ (s : State) (step tokens bytes : Nat), s.quiet → s.inJob = true → (s.job.resync = 0 ∨ step = s.job.resync) →
     (s.record step).st ≠ .input → (s.record step).st ≠ .running → s.postable step = true → bytes ≤ s.inputSize step →
     ∃ t, exec (.stepInput step tokens bytes) s = .next t ∧ t = { s with job := t.job, actions := t.actions }
       ∧ t.job = { s.job with rec0 := t.job.rec0, rec1 := t.job.rec1 }
       ∧ t.record step = { StepRec.free with step := step, st := .input, tokens := tokens % 2 ^ 40, inputBytes := bytes }
       ∧ t.record (step + 1) = s.record (step + 1)
       ∧ (t.action 0x2012 1).status = 0 ∧ (t.action 0x2012 1).busy = false
       ∧ (t.action 0x2012 1).count = satAdd32 (s.action 0x2012 1).count 1)
  ∧ (∀ (s : State) (p : Plan), s.quiet → s.job.jobState = jsLOADED → s.job.rejoin = false → s.job.plan = some p →
       ∃ t, exec .jobStart s = .next t
         ∧ t = { s with job := { s.job with jobState := jsRUNNING }, cores := t.cores, hbm := t.hbm, actions := t.actions }
         ∧ (∀ n, t.core n = if n ∈ s.mapped then (s.core n).blankPlot else s.core n)
         ∧ (∀ k < numStacks, (∀ i < 256, (t.stack k).counter i = Tab.get 0 p.counters (256 * k + i))
             ∧ t.stack k = { s.stack k with counters := (t.stack k).counters, released := [] })
         ∧ (t.action 0x2000 2).status = 0 ∧ (t.action 0x2000 2).count = satAdd32 (s.action 0x2000 2).count 1)

/-- R195, R416, R418, R420: a step whose inputs are posted starts: its record is RUNNING with the generator mode and seed of the moment,
attempt 0, and every mapped core's queues are released.
R202, R415, R418, R638, R760: at the boundary of a step that is no replay, its record becomes COMPLETE, samples without their reference
are dropped and counted, and a step capture message leaves. No byte of a stack changes. -/
def Obligations.StepsStartAndEnd : Prop :=
  (∀ (s : State), s.quiet → s.startable = true → s.job.resync = 0 → s.job.plan ≠ none → s.job.ckpt.st = 0 → s.gathersHeld →
     ∃ t, exec .stepStart s = .next t ∧ (t.record s.job.next).st = .running ∧ (t.record s.job.next).step = s.job.next
       ∧ (t.record s.job.next).attempt = 0 ∧ (t.record s.job.next).genMode = s.fmt.genMode ∧ (t.record s.job.next).seed = s.fmt.jobSeed
       ∧ (t.record s.job.next).scales = s.takeScales ∧ t.record (s.job.next + 1) = s.record (s.job.next + 1)
       ∧ t.job.next = s.job.next + 1 ∧ t.job.jobState = jsRUNNING ∧ (∀ l < s.planCores, (t.core (s.phys l)).released)
       ∧ (∀ n, n ∉ s.mapped → t.core n = s.core n) ∧ ∀ k, (t.stack k).mem = (s.stack k).mem)
  ∧ (∀ (s : State) (r : StepRec), s.quiet → s.running = some r → s.record r.step = r → (s.record (r.step + 1)).st ≠ .running →
       s.job.jobState = jsRUNNING → s.job.batch.stage = .idle → s.job.release = .none → s.atBoundary = true → s.job.calibrating = false →
       s.job.replayed = false →
       ∃ t, exec .stepBoundary s = .next t ∧ t.record r.step = { r with st := .complete } ∧ t.running = none ∧ t.job.next = s.job.next
         ∧ (∀ n ∈ s.mapped, (t.core n).tri = []) ∧ t.gaz.stepSeq = (s.gaz.stepSeq + 1) % 2 ^ 32
         ∧ (∀ k, (t.stack k).mem = (s.stack k).mem) ∧ t.flight = s.flight ∧ t.fabric = s.fabric)

/-! ### Ends of a job, spares and checkpoints (R424, R529 to R539, R607, R609) -/

/-- R607, R609, R631: JOB_ABORT stops every queue and keeps the plan, its status kept as ABORTED; PLAN_UNLOAD removes the plan and keeps the
stacks' contents. -/
def Obligations.JobsAbortAndUnload : Prop :=
  ∀ (s : State), s.quiet →
    (s.inJob = true → s.halyard.sums = [] →
      ∃ t, exec .jobAbort s = .next t ∧ t.job.jobState = jsQUIESCED ∧ t.job.stopStatus = 0x07 ∧ t.job.plan = s.job.plan
        ∧ t.job.rec0 = s.job.rec0.abandon ∧ t.job.rec1 = s.job.rec1.abandon ∧ t.job.release = .none ∧ t.job.ckpt.st = 0
        ∧ (∀ n ∈ s.mapped, (t.core n).stopped = true) ∧ t.net.beatsOn = false
        ∧ (∀ k, (t.stack k).mem = (s.stack k).mem) ∧ t.wafer = s.wafer ∧ t.fabric = s.fabric
        ∧ (t.action 0x2000 5).status = 0 ∧ (t.action 0x2000 5).count = satAdd32 (s.action 0x2000 5).count 1)
    ∧ (s.closed = none → s.job.plan ≠ none → s.running = none →
      ∃ t, exec .planUnload s = .next t ∧ t.job.jobState = jsNO_PLAN ∧ t.job.plan = none ∧ t.job.role = 0 ∧ t.flight = .reset
        ∧ t.net.beatsOn = false ∧ (∀ k, (t.stack k).mem = (s.stack k).mem) ∧ t.wafer = s.wafer ∧ t.fabric = s.fabric
        ∧ (t.action 0x2010 4).status = 0 ∧ (t.action 0x2010 4).count = satAdd32 (s.action 0x2010 4).count 1)

/-- R531, R533, R534: CHECKPOINT_ARM arms a checkpoint of a step that no owned layer has passed; R532, R534: CHECKPOINT_SEAL copies what is
still due of the step, closes the checkpoint, and counts the owned layers that it does not hold and that are of another step; an owned layer
of the step lies then in its STAGING area, as it was. -/
def Obligations.CheckpointsArmAndSeal : Prop :=
  ∀ (s : State), s.quiet → s.inJob = true →
    (∀ step dest port, s.job.ckpt.st ≠ 2 → dest.length = 16 → port < 65536 →
      (∀ l ∈ s.ownedLayers, (s.stepTag l).getD 0 ≤ step) → (s.job.next < step + 2 ∨ s.job.started = false) →
      ∃ t, exec (.checkpointArm step dest port) s = .next t ∧ t = { s with job := t.job, net := t.net, actions := t.actions }
        ∧ t.job = { s.job with ckpt := t.job.ckpt } ∧ t.job.ckpt.st = 1 ∧ t.job.ckpt.step = step ∧ t.job.ckpt.dest = dest
        ∧ t.job.ckpt.port = port ∧ t.job.ckpt.copied = []
        ∧ (t.action 0x2014 1).status = 0 ∧ (t.action 0x2014 1).count = satAdd32 (s.action 0x2014 1).count 1)
    ∧ (s.job.ckpt.st = 1 → s.job.ckpt.drainStep = 0 → s.job.ckpt.scales = none → s.memOk → (∀ k, s.clean k) →
      ∃ t, exec .checkpointSeal s = .next t
        ∧ t = { s with job := t.job, hbm := t.hbm, actions := t.actions, gaz := { s.gaz with blocks := t.gaz.blocks } }
        ∧ t.job = { s.job with ckpt := t.job.ckpt } ∧ t.job.ckpt.st = 2 ∧ t.job.ckpt.step = s.job.ckpt.step
        ∧ t.job.ckpt.skipped = (s.ownedLayers.filter (fun l => decide (t.stepTag l ≠ some s.job.ckpt.step)
            && !t.job.ckpt.copied.any (fun c => c.layer = l))).length
        ∧ (∀ c ∈ s.job.ckpt.copied, c ∈ t.job.ckpt.copied)
        ∧ (∀ l pl p, s.ownedLayers = [l] → s.planLayer l = some pl → s.placeOfLayer l = some p → s.stepTag l = some s.job.ckpt.step →
            s.job.ckpt.copied = [] → t.job.ckpt.copied = [⟨l, p.jstack, p.staging, (s.layerImage pl p).length⟩]
              ∧ t.readStack p.jstack p.staging (s.layerImage pl p).length = s.layerImage pl p
              ∧ (∀ k, k ≠ p.jstack → t.stack k = s.stack k)
              ∧ Memory.sameOutside (s.stack p.jstack).mem (t.stack p.jstack).mem p.staging (s.layerImage pl p).length)
        ∧ (t.action 0x2014 2).status = 0 ∧ (t.action 0x2014 2).count = satAdd32 (s.action 0x2014 2).count 1)

/-- R401, R403, R424, R529, R671: a PLAN_LOAD that is not refused, and a SPARE_ADOPT of a lost module at a spare, check the image in Run: the
load waits with the checked plan, or ends PLAN_INVALID without one. A checked load that meets no hardware error leaves its plan LOADED, one
that meets one leaves none. -/
def Obligations.PlansAreLoaded : Prop :=
  ∀ (s : State), s.quiet →
    (∀ k a n, s.closed = none → s.power.powerState = 0 → (s.action 0x2010 1).busy = false → s.job.loading = none → s.job.plan = none →
      imageFits k a n = true → s.clean k →
      ∃ t, exec (.planLoad k a n) s = .next t ∧ t = { s with job := t.job, hbm := t.hbm, actions := t.actions }
        ∧ (∀ j, t.stack j = s.stack j)
        ∧ ((∃ p, t.job = { s.job with loading := some ⟨k, a, n, some p⟩ } ∧ (t.action 0x2010 1).busy = true)
          ∨ t.job = { s.job with planStatus := 0x10, planDetail := t.job.planDetail } ∧ (t.action 0x2010 1).busy = false
            ∧ (t.action 0x2010 1).status = 0x10)
        ∧ (t.action 0x2010 1).count = satAdd32 (s.action 0x2010 1).count 1)
    ∧ (∀ m k a n p, s.closed = none → s.power.powerState = 0 → (s.action 0x2015 1).busy = false → s.job.loading = none →
      s.job.plan = some p → m < 2 ^ 14 → imageFits k a n = true → s.isLost m = true → s.job.role = 2 →
      ∃ t, exec (.spareAdopt m k a n) s = .next t ∧ t.job.plan = none ∧ t.job.lastJob = some (p.hdr.jobId, m)
        ∧ ((∃ q, t.job.loading = some ⟨k, a, n, some q⟩ ∧ (t.action 0x2015 1).busy = true)
          ∨ t.job.loading = none ∧ t.job.planStatus = 0x10 ∧ (t.action 0x2015 1).busy = false)
        ∧ ∀ j, (t.stack j).mem = (s.stack j).mem)
    ∧ (∀ l p, s.job.loading = some l → l.plan = some p →
      (∃ t, exec (.planLoadComplete false) s = .next t ∧ t.job.plan = some p ∧ t.job.jobState = jsLOADED ∧ t.job.loading = none
        ∧ t.job.planStatus = 0 ∧ t.job.next = p.hdr.firstStep ∧ t.job.role = (if p.spare then 2 else 1) ∧ t.flight = .reset
        ∧ t.wafer.logical = p.legend.map (fun x => (field x 0 11, 0)) ∧ t.fabric.routing = p.routing
        ∧ t.wafer.legendEpoch = (s.wafer.legendEpoch + 1) % 2 ^ 32 ∧ t.net.beatsOn = true
        ∧ ((∃ g < 4, s.groupUp g ≠ []) → t.plotter.role = p.roles))
      ∧ (∃ t, exec (.planLoadComplete true) s = .next t ∧ t.job = { s.job with loading := none, planStatus := 0x11, planDetail := 0 }
        ∧ t.cores = s.cores ∧ t.hbm = s.hbm ∧ t.wafer = s.wafer))

/-! ### Halyard units and downhauls (R448 to R458, R463 to R466) -/

/-- R448, R450: the first upstream sum of a tile opens a sum that waits for the module's own partial; a further one is added to it. Sums that
are late, that no chain entry admits, that a demoted owner meets, or whose unit is at its bound (R455) are not this case. -/
def Obligations.UpstreamSumsJoin : Prop :=
  ∀ (s : State) (src g : Nat) (m : SumMsg) (c : ChainEntry), s.quiet → g < 4 → s.reaches src (.sum m) = true →
    s.chainEntry m.chain = some c → s.ownEntry m.layer m.tile m.chain = none → m.round ≤ 1 → s.roleOf m.layer ≠ 3 → s.roleOf m.layer ≠ 4 →
    s.isLate m.layer m.tile (stampOf m.step m.round) = false → s.ownNever m.step = false → s.openCount c.group < 1024 →
    (s.openSum c.group m.layer m.tile m.step m.round = none → m.contributors ≤ maxContributors →
      ∃ t o, exec (.halyardSum src g m) s = .next t ∧ t.openSum c.group m.layer m.tile m.step m.round = some o
        ∧ o.own = none ∧ o.up = some (sumVal m) ∧ o.upCount = 1 ∧ o.tUp = s.micros
        ∧ t = { s with halyard := t.halyard, fabric := { s.fabric with tablesFixed := t.fabric.tablesFixed } })
    ∧ (∀ o u, s.openSum c.group m.layer m.tile m.step m.round = some o → o.own = none → o.up = some u →
      u.contributors + m.contributors ≤ maxContributors →
      ∃ t, exec (.halyardSum src g m) s = .next t
        ∧ t.openSum c.group m.layer m.tile m.step m.round = some { o with up := some (u.add (sumVal m)), upCount := o.upCount + 1 }
        ∧ t = { s with halyard := t.halyard, fabric := { s.fabric with tablesFixed := t.fabric.tablesFixed } })

/-- R449, R451, R503: of the open sums of a tile and step, of both rounds, the one whose moment comes first goes: at its deadline a hop forwards what its sum holds, GAPS raised by the upstream sums that are missing; after the hop hold
without its own partial, EXCLUDED raised by 1; the open sum is gone, and the sum has left for a module of the chain whose port has room
(R111). At a promoted mirror
the takeover wait hands the sum to the layer's update. -/
def Obligations.HopsForward : Prop :=
  ∀ (s : State) (g layer tile step m k moment : Nat) (o : OpenSum) (c : ChainEntry) (v : SumVal), s.quiet → g < 4 →
    (∀ i, s.tableFull i = false) → (s.roleOf layer ≠ 3 → s.roleOf layer ≠ 4 → c.isOwner = false → v.contributors ≤ maxContributors →
      ((s.successors c layer).takeWhile (fun x => x.2)).length = k → (s.successors c layer)[k]? = some (m, false) →
      (s.firstDue (s.hopSum g layer tile step) (fun o c =>
          if o.own.isSome then some (o.tOwn + s.halyard.deadline + c.depth * s.halyard.hop) else none) = some (o, c, moment) →
        o.total true = some v →
        ∃ t w, exec (.halyardDeadline g layer tile step) s = .next t ∧ t.openSum o.group layer tile step o.round = none
          ∧ t.lastForward layer tile = some (max ((s.lastForward layer tile).getD 0) (stampOf step o.round))
          ∧ t.ownSent layer tile (stampOf step o.round) = true
          ∧ o.own.isSome = true ∧ moment = o.tOwn + s.halyard.deadline + c.depth * s.halyard.hop ∧ 25 * moment ≤ t.aon
          ∧ (Tab.get .zero t.halyard.counts g).forwarded = satAdd32 (Tab.get .zero s.halyard.counts g).forwarded 1
          ∧ t.out.getLast? = some w ∧ (∃ n b l, w = .message m n (.sum b) l ∧ b.words = v.words ∧ b.contributors = v.contributors
              ∧ b.gaps = satAdd8 v.gaps (c.upstream - o.upCount) ∧ b.excluded = satAdd8 v.excluded 0 ∧ b.skips = satAdd8 v.skips k)
          ∧ t = { s with halyard := t.halyard, net := t.net, out := t.out, aon := t.aon, gaz := { s.gaz with blocks := t.gaz.blocks } })
      ∧ (s.firstDue (s.hopSum g layer tile step) (fun o _ =>
          if o.own.isNone && o.up.isSome then some (o.tUp + s.halyard.hop) else none) = some (o, c, moment) → o.up = some v →
        ∃ t w, exec (.halyardHopHold g layer tile step) s = .next t ∧ t.openSum o.group layer tile step o.round = none
          ∧ t.lastForward layer tile = some (max ((s.lastForward layer tile).getD 0) (stampOf step o.round))
          ∧ t.halyard.ownForwarded = s.halyard.ownForwarded ∧ o.own = none ∧ moment = o.tUp + s.halyard.hop ∧ 25 * moment ≤ t.aon
          ∧ t.out.getLast? = some w ∧ (∃ n b l, w = .message m n (.sum b) l ∧ b.words = v.words ∧ b.contributors = v.contributors
              ∧ b.gaps = satAdd8 v.gaps 0 ∧ b.excluded = satAdd8 v.excluded 1 ∧ b.skips = satAdd8 v.skips k)
          ∧ t = { s with halyard := t.halyard, net := t.net, out := t.out, aon := t.aon, gaz := { s.gaz with blocks := t.gaz.blocks } }))
    ∧ (s.roleOf layer = 3 → o.total true = some v → v.contributors ≤ maxContributors → v.tokens ≠ 0 →
      s.firstDue (fun x => decide (x.layer = layer) && x.tile = tile && x.step = step && x.round = 1) (fun o _ =>
        some ((if o.up.isSome && (o.own.isNone || o.tUp ≤ o.tOwn) then o.tUp else o.tOwn) + 1000 * s.plotter.takeoverWait)) = some (o, c, moment) →
      ∃ t h, exec (.takeoverWaitExpiry layer tile step) s = .next t ∧ t.plotter.hand = s.plotter.hand ++ [h] ∧ h.layer = layer
        ∧ h.tile = tile ∧ h.step = step ∧ h.val.words = v.words ∧ h.val.tokens = v.tokens ∧ h.val.contributors = v.contributors
        ∧ t.openSum o.group layer tile step 1 = none ∧ 25 * moment ≤ t.aon ∧ t = { s with halyard := t.halyard, plotter := t.plotter, aon := t.aon })

/-- R340, R463 to R465: a downhaul piece of a copy that is not newer, or that was forwarded before, is discarded and counted; a new piece for
a layer of one stack, whose release has not been granted, is held there, and goes on upstream, or waits for room at its port (R111). R466: the
copy that a waiting stream unit misses is asked for, one request per placement that does not hold it. -/
def Obligations.DownhaulsArrive : Prop :=
  ∀ (s : State) (d : DownMsg) (l : PlanLayer), s.quiet → s.planLayer d.layer = some l →
    (∀ k, (s.stack k).merges = []) →
    (∀ src i, i < 64 → s.reaches src (.down d) = true → d.part < 3 →
      ((d.count ≠ 0 ∧ ∀ n, d.first ≤ n → n < d.first + d.count → s.downHas d n = true) ∨ s.copyHeld l d.part d.step = true) →
      ∃ t, exec (.downhaul src i d) s = .next t ∧ t = { s with halyard := { s.halyard with counts := t.halyard.counts } }
        ∧ (Tab.get .zero t.halyard.counts (groupOfIface i)).downDiscarded
            = satAdd32 (Tab.get .zero s.halyard.counts (groupOfIface i)).downDiscarded 1)
    ∧ (∀ src i k p c, i < 64 → s.reaches src (.down d) = true → d.part < 3 → (∀ n, d.first ≤ n → n < d.first + d.count → s.downHas d n = false) →
      s.copyHeld l d.part d.step = false → s.isHeld l.layer k d.part d.step = false → d.count ≠ 0 → d.first < 2 ^ 32 →
      s.copyStacks l = [k] → s.copyCtr l.layer k = some c →
      (d.layer, d.step) ∉ (s.stack k).released → s.job.release ≠ .replay s.firstStep → p ∈ s.copyPlaces l → p.part = d.part → (s.placeAddr p p.first).1 = k → p.first < d.first + d.count →
      d.first < p.first + p.count →
      ∃ t, exec (.downhaul src i d) s = .next t ∧ (∀ n, d.first ≤ n → n < d.first + d.count → t.downHas d n = true)
        ∧ t.stack k = { s.stack k with held := (s.stack k).held ++
            [{ layer := d.layer, step := d.step, part := d.part, first := d.first, count := d.count, data := d.data }] }
        ∧ (∀ j, j ≠ k → t.stack j = s.stack j) ∧ t.cores = s.cores ∧ t.job = s.job
        ∧ (∀ m ∈ s.downTargets d.layer, s.isLost m = false →
            (∃ n l, Out.message m n (.down d) l ∈ t.out) ∨ ∃ w ∈ t.net.backlog, w.dst = m ∧ w.m = .down d))
    ∧ (∀ k u m rest, k < numStacks → u < 4 → s.waitedLayer k u = some d.layer →
      (if s.halyard.takenOver.contains d.layer then [l.mirror] else [l.owner, l.mirror]).filter s.reachable = m :: rest →
      ∃ t, exec (.downhaulTimeout k u) s = .next t
        ∧ t.net.gathers = s.net.gathers ++ (s.copyRequests l).map (fun g => { g := g, holder := m, rest := rest, use := .copy l.layer })
        ∧ (∀ p ∈ s.copyPlaces l, s.isHeld l.layer (s.placeAddr p p.first).1 p.part (s.stepCurrent - 1) = false →
            ∀ n, p.first ≤ n → n < p.first + p.count → (∀ k, s.tilesIn l p.part = some k → n < k) →
              ∃ g ∈ s.copyRequests l, g.kind = (if p.part = 2 then 3 else p.part) ∧ g.step = s.stepCurrent - 1
                ∧ g.first ≤ n ∧ n < g.first + g.count)
        ∧ 25 * ((s.unit k u).since + 1000 * s.halyard.downTimeout) ≤ t.aon ∧ (t.unit k u) = { s.unit k u with since := t.micros }
        ∧ t.cores = s.cores ∧ t.job = s.job ∧ ∀ j, (t.stack j).mem = (s.stack j).mem)

/-! ### The Plotter (R472 to R482, R498 to R507) -/

/-- R472, R477, R479: UPDATE_WAIT after a layer's first sum its update waits for its sheet; the idle Plotter of a sheet whose header can be
read takes its next update: one whose step is not after the header's is counted a duplicate and given up, another runs from its first
stage, and the Plotter feeds the Plotter queues of the cores that lend them (R250, R470). -/
def Obligations.UpdatesBegin : Prop :=
  ∀ (s : State), s.quiet →
    (∀ layer step t0, s.plotter.firstSum.find? (fun x => decide (x.1 = layer) && x.2.1 = step) = some (layer, step, t0) →
      s.handOf layer step ≠ [] → (∀ u ∈ s.plotter.ready, ¬ (u.layer = layer ∧ u.step = step)) →
      (∀ r ∈ s.plotter.running, ¬ (r.2.layer = layer ∧ r.2.step = step)) →
      ∃ t, exec (.updateWaitExpiry layer step) s = .next t
        ∧ t = { s with aon := t.aon, plotter := { s.plotter with
            ready := s.plotter.ready ++ [{ layer := layer, step := step, again := false }] } }
        ∧ 25 * (t0 + 1000 * s.plotter.updateWait) ≤ t.aon)
    ∧ (∀ sheet u r p, sheet < numSheets → s.plottersRun = true → Tab.find s.plotter.running sheet = none →
      s.nextUpdate sheet = some u → s.schedLayer u.layer = some r → s.ownerPlace r = some p → s.clean p.stack → (s.stateHdr p).journal ≠ 1 →
      (u.step ≤ (s.stateHdr p).tag →
        ∃ t, exec (.plotterUpdateStart sheet) s = .next t ∧ t.plotter.running = s.plotter.running
          ∧ (Tab.get .zero t.plotter.counts u.layer).duplicates = satAdd32 (Tab.get .zero s.plotter.counts u.layer).duplicates 1
          ∧ (∀ x ∈ t.plotter.ready, ¬ (x.layer = u.layer ∧ x.step = u.step)) ∧ t.handOf u.layer u.step = []
          ∧ t.job = s.job ∧ t.log = s.log ∧ ∀ j, (t.stack j).mem = (s.stack j).mem)
      ∧ ((s.stateHdr p).tag < u.step →
        ∃ t run, exec (.plotterUpdateStart sheet) s = .next t ∧ t.plotter.running = Tab.set s.plotter.running sheet run
          ∧ run.layer = u.layer ∧ run.step = u.step ∧ run.stage = 0 ∧ run.prodBeta = (s.stateHdr p).prodBeta
          ∧ run.flags = (if (s.stateHdr p).tag + 1 < u.step then 4 else 0)
          ∧ (∀ x ∈ t.plotter.ready, ¬ (x.layer = u.layer ∧ x.step = u.step)) ∧ t.plotter.hand = s.plotter.hand
          ∧ (∀ n, n ∉ s.plotCores sheet → t.core n = s.core n)
          ∧ (∀ n ∈ s.plotCores sheet, (t.core n).pq.st = .run ∧ (t.core n).pq.pc = 0
              ∧ (t.core n).plotFeed = (Config.plotterProgram u.layer u.step n).filter (plotFits (s.core n).window))
          ∧ ∀ j, (t.stack j).mem = (s.stack j).mem))

/-- R473, R474, R482, R498, R499: an update that no check skips writes the new weights to the inactive buffer and the new momentum to the
journal, the header unchanged; a skipped one writes its header alone; the readback commits the header (STEP_TAG, ACTIVE, JOURNAL 1); the
journal's copy is the momentum, JOURNAL 0, and the sheet is idle. For a layer of which this module holds no copies and that no checkpoint still
copies, in its own stack. -/
def Obligations.UpdatesCommit : Prop :=
  ∀ (s : State) (sheet : Nat) (u : UpdRun) (r : SchedLayer) (p : OwnerPlace) (h : StateHdr), s.quiet → s.memOk → sheet < numSheets →
    Tab.find s.plotter.running sheet = some u → s.plottersRun = true → s.schedLayer u.layer = some r → s.ownerPlace r = some p →
    s.stateHdr p = h → s.clean p.stack → s.clean p.jstack → (∀ j, (s.stack j).merges = []) → s.copyDue u.layer = false → p.jstack ≠ p.stack →
    (∀ l, s.planLayer u.layer = some l → l.placements = []) →
    (∀ c x, u.stage = 0 → s.updateSkip sheet r h.tag u.step = .none →
      curvesOf s.fmt.subnormal s.schedule r h.tag u.step = some c →
      s.computeUpdate u r p c (s.updateGradient r u.step) = x →
      ∃ t v, exec (.updateComputed sheet) s = .next t
        ∧ t.readStack p.stack (p.buf (h.active + 1)) (matBytes x.weights).length = matBytes x.weights
        ∧ Memory.sameOutside (s.stack p.stack).mem (t.stack p.stack).mem (p.buf (h.active + 1)) (matBytes x.weights).length
        ∧ t.readStack p.jstack p.journal x.journal.length = x.journal
        ∧ Memory.sameOutside (s.stack p.jstack).mem (t.stack p.jstack).mem p.journal x.journal.length
        ∧ t.plotter.running = Tab.set s.plotter.running sheet v ∧ v.stage = 1 ∧ v.step = u.step ∧ v.prodBeta = x.prodBeta
        ∧ t.job = s.job ∧ ∀ j, j ≠ p.stack → j ≠ p.jstack → t.stack j = s.stack j)
    ∧ (u.stage = 0 → s.updateSkip sheet r h.tag u.step ≠ .none →
      ∃ t, exec (.updateComputed sheet) s = .next t ∧ (t.stateHdr p).tag = u.step % 2 ^ 32 ∧ (t.stateHdr p).journal = 0
        ∧ (t.stateHdr p).active = h.active ∧ (t.stateHdr p).flags = (h.flags ||| u.flags) % 256 ∧ (t.stateHdr p).prodBeta = h.prodBeta
        ∧ Memory.sameOutside (s.stack p.stack).mem (t.stack p.stack).mem p.hdr 64
        ∧ (∀ j, j ≠ p.stack → t.stack j = s.stack j) ∧ t.plotter.running = Tab.erase s.plotter.running sheet ∧ t.job = s.job)
    ∧ (u.stage = 1 →
      ∃ t, exec (.updateReadbackComplete sheet) s = .next t ∧ (t.stateHdr p).tag = u.step % 2 ^ 32 ∧ (t.stateHdr p).journal = 1
        ∧ (t.stateHdr p).active = 1 - h.active % 2 ∧ (t.stateHdr p).flags = (h.flags ||| u.flags) % 256 ∧ (t.stateHdr p).prodBeta = u.prodBeta
        ∧ Memory.sameOutside (s.stack p.stack).mem (t.stack p.stack).mem p.hdr 64
        ∧ (∀ j, j ≠ p.stack → t.stack j = s.stack j) ∧ t.plotter.running = Tab.set s.plotter.running sheet { u with stage := 2 }
        ∧ t.job = s.job)
    ∧ (u.stage = 2 → h.journal = 1 →
      ∃ t, exec (.journalCopyComplete sheet) s = .next t
        ∧ t.readStack p.stack p.mom (2 * p.rows * p.cols) = s.readStack p.jstack p.journal (2 * p.rows * p.cols)
        ∧ t.stateHdr p = { h with journal := 0 } ∧ t.masters p h.active = s.masters p h.active
        ∧ (∀ j, j ≠ p.stack → t.stack j = s.stack j) ∧ t.plotter.running = Tab.erase s.plotter.running sheet ∧ t.job = s.job)

/-- R203, R501, R502, R523, R527: an alarm count reaches the update of an owned layer that has not started; a TAKEOVER makes this module treat
the mirror as the layer's owner, and demotes it where it was the owner; LEAVE loses its sender; JOIN takes it back. -/
def Obligations.OwnersAndPeersChange : Prop :=
  ∀ (s : State) (src : Nat), s.quiet → s.job.batch.stage ≠ .reload → s.net.backlog = [] →
    (∀ layer step v, s.isLost src = false → (s.roleOf layer = 1 ∨ s.roleOf layer = 3) → (s.stepTag layer).getD 0 < step →
      (∀ x ∈ s.plotter.running, ¬ (x.2.layer = layer ∧ x.2.step = step)) →
      exec (.alarms src layer step v) s
        = .next { s with plotter := { s.plotter with alarms := s.plotter.alarms ++ [(layer, step, v % 65536)] } })
    ∧ (∀ layer tag, s.isLost src = false → layer ∉ s.halyard.takenOver → s.roleOf layer ≠ 1 →
      exec (.takeover src layer tag) s
        = .next { s with halyard := { s.halyard with takenOver := s.halyard.takenOver ++ [layer] } })
    ∧ (∀ layer tag, s.isLost src = false → s.roleOf layer = 1 → s.schedLayer layer ≠ none →
      ∃ t, exec (.takeover src layer tag) s = .next t ∧ t.roleOf layer = 4 ∧ layer ∈ t.halyard.takenOver
        ∧ (∀ x ∈ t.plotter.hand, x.layer ≠ layer) ∧ (∀ x ∈ t.plotter.ready, x.layer ≠ layer) ∧ (∀ o ∈ t.halyard.sums, o.layer ≠ layer)
        ∧ t.log.seq = (s.log.seq + 1) % 2 ^ 32
        ∧ t.cores = s.cores ∧ t.hbm = s.hbm ∧ t.job = s.job)
    ∧ (∀ p, s.job.plan ≠ none → s.peer src = some p → p.lost = false → s.net.gathers = [] →
      (∀ l ∈ s.planLayers, l.owner = src → s.roleOf l.layer ≠ 2) →
      ∃ t, exec (.leave src) s = .next t ∧ t.peer src = some { p with lost := true, cause := some .leave, tx := [], joined := none }
        ∧ (∀ m, m ≠ src → t.peer m = s.peer m) ∧ t.log.seq = (s.log.seq + 1) % 2 ^ 32 ∧ t.job = s.job ∧ t.plotter = s.plotter
        ∧ t.cores = s.cores ∧ t.hbm = s.hbm)
    ∧ (∀ p, s.job.plan ≠ none → s.peer src = some p →
      ∃ t q, exec (.join src) s = .next t ∧ t.peer src = some q ∧ q.lost = false ∧ q.cause = none ∧ q.contact = true
        ∧ q.nextSeq = 0 ∧ q.nextMsg = 0 ∧ q.ackBase = 0 ∧ q.lastBeat = s.micros ∧ q.tx = [] ∧ q.alpha = 0
        ∧ (∀ m, m ≠ src → t.peer m = s.peer m) ∧ t = { s with net := { s.net with peers := t.net.peers } })

/-! ### Transport, liveness and gathers (R516, R553 to R576) -/

/-- R544, R548, R555, R564 to R566, R571: on an interface that is up, a frame that R555 discards, or that comes from no module of the peer table, is counted
and has no other effect; the one fragment of a new heartbeat of a peer is received, and the heartbeat taken; a frame that acknowledges
removes what it covers from the unacknowledged frames; a flow-control frame and any frame that is not of the transport are counted alone. -/
def Obligations.FramesAreReceived : Prop :=
  ∀ (s : State) (i : Nat) (f : Frame) (pl : Plan), s.quiet → i < 64 → s.iface i = .up → s.job.plan = some pl → s.job.ckpt.st = 0 →
    s.net.backlog = [] → s.job.batch.stage ≠ .reload →
    (f.kind = .peolo → frameBad pl f = true →
      ∃ t, exec (.peoloFrame i f) s = .next t ∧ (Tab.get .zero t.net.counts i).rxMalformed
          = satAdd32 (Tab.get .zero s.net.counts i).rxMalformed 1
        ∧ (Tab.get .zero t.net.counts i).received = satAdd32 (Tab.get .zero s.net.counts i).received 1
        ∧ t = { s with net := { s.net with counts := t.net.counts }, gaz := { s.gaz with blocks := t.gaz.blocks } })
    ∧ (f.kind = .peolo → frameBad pl f = false → s.peer f.src = none →
      ∃ t, exec (.peoloFrame i f) s = .next t ∧ (Tab.get .zero t.net.counts i).rxFromLost
          = satAdd32 (Tab.get .zero s.net.counts i).rxFromLost 1
        ∧ t = { s with net := { s.net with counts := t.net.counts }, gaz := { s.gaz with blocks := t.gaz.blocks } })
    ∧ (∀ p b, f.kind = .peolo → frameBad pl f = false → f.type = 6 → f.flags % 2 = 0 → f.frag = 0 → f.fragCount = 1 →
      Msg.ofBytes 6 f.payload = some (.heartbeat b) → s.peer f.src = some p → p.lost = false → f.src = p.module → p.hasSeq f.seq = false →
      f.msgId ∉ p.delivered → (∀ r ∈ p.rx, r.msgId ≠ f.msgId) → s.buffered i + f.payload.length ≤ 8 * 2 ^ 20 →
      ∃ t q, exec (.peoloFrame i f) s = .next t ∧ t.peer f.src = some q ∧ q.contact = true ∧ q.lastBeat = s.micros
        ∧ q.readings = p.readings.filter (fun x => s.micros ≤ x.1 + 8000) ++ [(s.micros, b.reading)]
        ∧ q.ackBase = (p.takeSeq f.seq).ackBase ∧ q.sackMask = (p.takeSeq f.seq).sackMask ∧ f.msgId ∈ q.delivered
        ∧ (∀ m, m ≠ f.src → t.peer m = s.peer m)
        ∧ t = { s with net := { s.net with peers := t.net.peers, counts := t.net.counts, neighbors := t.net.neighbors }
                       gaz := { s.gaz with blocks := t.gaz.blocks }, out := t.out })
    ∧ (∀ p, f.kind = .peolo → frameBad pl f = false → f.type = 0 → f.flags % 2 = 1 → s.peer f.src = some p → p.lost = false → f.sack = 0 →
      ∃ t q, exec (.ack i f) s = .next t ∧ t.peer f.src = some q
        ∧ q.tx = p.tx.filter (fun x => !(x.seq :: x.olds).any (ackCovers f.ack 0)) ∧ q.ackBase = p.ackBase
        ∧ q.windowMarked = (p.windowMarked || bit f.flags 1) ∧ (∀ m, m ≠ f.src → t.peer m = s.peer m)
        ∧ t = { s with net := { s.net with peers := t.net.peers, counts := t.net.counts }, gaz := { s.gaz with blocks := t.gaz.blocks } })
    ∧ (f.kind ≠ .peolo →
      ∃ t, exec (.peoloFrame i f) s = .next t ∧ t = { s with net := { s.net with counts := t.net.counts } }
        ∧ (Tab.get .zero t.net.counts i).rxFlowControl = (if f.kind = .flowControl then
            satAdd32 (Tab.get .zero s.net.counts i).rxFlowControl 1 else (Tab.get .zero s.net.counts i).rxFlowControl)
        ∧ (Tab.get .zero t.net.counts i).rxOther = (if f.kind = .other then
            satAdd32 (Tab.get .zero s.net.counts i).rxOther 1 else (Tab.get .zero s.net.counts i).rxOther))

/-- R516, R564 to R569, R573 to R576: an acknowledgement owed for 8 µs leaves; a frame whose RTO has passed is sent again under the next SEQ
with twice its RTO, at most 10 ms; a window of 50 µs changes α and R; heartbeats go to every peer that is not lost, or wait for room at their
port (R111); a heartbeat is taken, its reading kept with those of the last 8 ms, and 8 ms without one lose an active peer. -/
def Obligations.TransportTimersRun : Prop :=
  ∀ (s : State) (m : Nat) (p : PeerSt), s.quiet → s.peer m = some p → p.lost = false → s.net.backlog = [] →
    (∀ i, p.unacked ≠ 0 → s.job.plan ≠ none → s.pickIface p.localGroup none p.rotate = i →
      ∃ t, exec (.ackDelayExpiry m) s = .next t ∧ t.peer m = some (if i < 64 then { p with unacked := 0, rxCe := false } else p)
        ∧ t.out = (s.resolve i).out ++ [.ackFrame m p.ackBase (p.sackMask % 2 ^ 32) p.rxCe
            (s.wire i p 0 0 (s.peoloHeader p 0 p.nextSeq 0 0 1 0 0) [])] ∧ 25 * (p.unackedAt + 8) ≤ t.aon
        ∧ (∀ k, k ≠ m → t.peer k = s.peer k)
        ∧ t = { s with net := { s.net with peers := t.net.peers, counts := t.net.counts, neighbors := t.net.neighbors }
                       gaz := { s.gaz with blocks := t.gaz.blocks }, out := t.out, aon := t.aon })
    ∧ (∀ f, p.tx.find? (fun x => x.seq = f.seq) = some f → f.iface < 64 → s.iface f.iface = .up →
      ∃ t q g, exec (.rtoExpiry m f.seq) s = .next t ∧ t.peer m = some q ∧ q.nextSeq = (p.nextSeq + 1) % 2 ^ 32 ∧ q.windowMarked = true
        ∧ g ∈ q.tx ∧ g.seq = p.nextSeq ∧ g.msgId = f.msgId ∧ g.frag = f.frag ∧ g.sends = f.sends + 1 ∧ g.rto = min 10000 (2 * f.rto)
        ∧ (Tab.get .zero t.net.counts f.iface).rtoExpiries = satAdd32 (Tab.get .zero s.net.counts f.iface).rtoExpiries 1
        ∧ 25 * (f.sent + f.rto) ≤ t.aon ∧ t.cores = s.cores ∧ t.hbm = s.hbm ∧ t.job = s.job)
    ∧ (s.job.plan ≠ none →
      ∃ t q, exec (.pacingWindow m) s = .next t ∧ t.peer m = some q ∧ q.alpha = (15 * p.alpha + (if p.windowMarked then 2 ^ 32 else 0)) / 16
        ∧ q.windowMarked = false ∧ 65536 ≤ q.rate ∧ q.windowAt = t.micros ∧ 25 * (p.windowAt + 50) ≤ t.aon
        ∧ (p.windowMarked = false → q.rate = max 65536 (min (65536 * s.ifaceRate p.localGroup) (p.rate + 20 * 65536)))
        ∧ t = { s with net := { s.net with peers := t.net.peers }, aon := t.aon })
    ∧ (s.job.plan ≠ none → s.net.beatsOn = true →
      ∃ t, exec .heartbeatSend s = .next t ∧ t.net.beatAt = t.micros ∧ 25 * (s.net.beatAt + 1000) ≤ t.aon
        ∧ (p.present = true → p.active = true → ∃ b : BeatMsg, b.reading = s.job.reading
            ∧ ((∃ n l, Out.message m n (.heartbeat b) l ∈ t.out) ∨ ∃ w ∈ t.net.backlog, w.dst = m ∧ w.m = .heartbeat b))
        ∧ t.cores = s.cores ∧ t.hbm = s.hbm ∧ t.job = s.job ∧ t.flight = s.flight)
    ∧ (∀ b, s.job.plan ≠ none →
      ∃ t, exec (.heartbeat m b) s = .next t ∧ t.peer m = some { p with
          contact := true, lastBeat := s.micros, readings := p.readings.filter (fun x => s.micros ≤ x.1 + 8000) ++ [(s.micros, b.reading)] }
        ∧ (∀ k, k ≠ m → t.peer k = s.peer k) ∧ t = { s with net := { s.net with peers := t.net.peers } })
    ∧ (s.net.beatsOn = true → p.present = true → p.active = true → s.net.gathers = [] →
      (∀ l ∈ s.planLayers, l.owner = m → s.roleOf l.layer ≠ 2) →
      ∃ t, exec (.peerLost m) s = .next t ∧ t.peer m = some { p with lost := true, cause := some .heartbeat, tx := [], joined := none }
        ∧ (∀ k, k ≠ m → t.peer k = s.peer k) ∧ 25 * (p.lastBeat + 8000) ≤ t.aon ∧ t.log.seq = (s.log.seq + 1) % 2 ^ 32
        ∧ t.job = s.job ∧ t.plotter = s.plotter ∧ t.cores = s.cores ∧ t.hbm = s.hbm)

/-- R560, R563: a request for a copy that this module does not hold is answered with COUNT 0; a tagged request for a step that this module has
not passed is held, and answered with the region's data once its READY counter covers 1, which it consumes. R295, R361, R563: the tagged data
that a core's DRECV waits for goes to it from its port group's station, and is written. -/
def Obligations.GathersAreAnswered : Prop :=
  ∀ (s : State) (src : Nat) (g : GatherMsg), s.quiet → (∀ i, s.tableFull i = false) → (∀ k, (s.stack k).merges = []) →
    (∀ st p, g.kind < 4 → s.reaches src (.gatherReq g) = true → s.answerTo g = .none st → s.peer src = some p → p.lost = false →
      p.present = true →
      ∃ t n w o, exec (.gatherReq src g) s = .next t
        ∧ t.out = o ++ [.message src n (.gatherData { g with step := st, count := 0 } []) w] ∧ s.afterSolicit o
        ∧ t = { s with net := t.net, out := t.out, gaz := { s.gaz with blocks := t.gaz.blocks } })
    ∧ (∀ r, g.kind = 5 → s.reaches src (.gatherReq g) = true → s.passed g.step = false → s.regions[g.layer]? = some r →
      (∀ h ∈ s.net.held, h.g ≠ g) →
      exec (.gatherReq src g) s
        = .next { s with net := { s.net with held := s.net.held ++ [{ src := src, stack := r.stack, g := g }] } })
    ∧ (∀ k r p, k < numStacks → s.clean k → s.regions[g.layer]? = some r → r.stack = k → g.kind = 5 →
      s.net.held = [{ src := src, stack := k, g := g }] → 1 ≤ (s.stack k).counter g.aux → s.peer src = some p → p.lost = false →
      p.present = true → 64 * g.count + 20 ≤ 65535 * 8192 →
      ∃ t n w o, exec (.gatherReqReady k g.tag) s = .next t ∧ t.net.held = [] ∧ s.afterSolicit o
        ∧ t.out = o ++ [.message src n (.gatherData { g with step := g.step, count := g.count }
            (s.readStack k (r.start + 64 * g.first) (64 * g.count))) w]
        ∧ (t.stack k).counter g.aux = (s.stack k).counter g.aux - 1 ∧ (∀ i, i ≠ g.aux → (t.stack k).counter i = (s.stack k).counter i)
        ∧ (t.stack k).mem = (s.stack k).mem
        ∧ t = { s with net := t.net, out := t.out, hbm := t.hbm, fabric := { s.fabric with seqNo := t.fabric.seqNo }
                       gaz := { s.gaz with blocks := t.gaz.blocks } })
    ∧ (∀ o data n tag r p, s.reaches src (.gatherData g data) = true → g.kind = 5 → s.net.gathers = [o] → o.holder = src → o.g = g →
      o.use = .recv n tag → n < numCores → (s.core n).recvs = [r] → r.tag = tag → data.length = r.len →
      s.peer src = some p → s.reachesCore (groupStation p.localGroup) n →
      ∃ t, exec (.gatherData src g data) s = .next t ∧ t.net.gathers = [] ∧ (t.core n).recvs = []
        ∧ (∀ m, m ≠ n → t.core m = s.core m) ∧ t.hbm = s.hbm ∧ t.out = s.out
        ∧ (s.memOk → if r.dmem then Memory.readN (t.core n).sbuf r.daddr r.len = data ∧ (t.core n).act = (s.core n).act
            else Memory.readN (t.core n).act r.daddr r.len = data ∧ (t.core n).sbuf = (s.core n).sbuf))

/-! ### Ports (R34, R545 to R548, R574, R577, R783) -/

/-- R547, R574, R577, R783: an interface of a port whose lanes run comes up, and one that is up goes down, each with an event; a solicitation
of one of the module's addresses on an interface that is up is answered with the interface's MAC address; a cable that leaves takes the port's interfaces down, one
that comes lets them train. -/
def Obligations.PortsFollowTheirLinks : Prop :=
  ∀ (s : State) (i : Nat), s.quiet → i < 64 → s.net.backlog = [] →
    (s.iface i ≠ .up → s.lanesOn (i / 2) = true → i ∈ s.portIfaces (i / 2) →
      ∃ t, exec (.portLinkUp i) s = .next t ∧ (s.setIface i .up).told t "PORT_UP")
    ∧ (∀ j, s.iface i = .up → j ≠ i → groupOfIface j = groupOfIface i → j ∈ s.groupUp (groupOfIface i) →
      ∃ t, exec (.portLinkDown i) s = .next t ∧ (s.setIface i .down).told t "PORT_DOWN")
    ∧ (∀ target, s.iface i = .up → (target = s.groupAddr (groupOfIface i) ∨ target = linkLocal i) →
      exec (.neighborSolicitation i target) s = .next { s with out := s.out ++ [.neighborAdvert i target (macOf i)] })
    ∧ (s.portMode (i / 2) = 0 → s.iface (2 * (i / 2)) ≠ .up →
      exec (.cblPresN (i / 2) true) s
        = .next (State.setIface { s with net := { s.net with cable := Tab.set s.net.cable (i / 2) false } } (2 * (i / 2)) .down))
    ∧ (s.portMode (i / 2) = 0 → s.iface (2 * (i / 2)) ≠ .up → i / 2 ∉ s.net.portsBad → s.reset_.ready = true → s.reset_.datum = false →
      s.power.powerState ≤ 1 → 5 ∈ s.power.railsUp → s.power.busLow = false →
      exec (.cblPresN (i / 2) false) s
        = .next (State.setIface { s with net := { s.net with cable := Tab.set s.net.cable (i / 2) true } } (2 * (i / 2)) .training))

/-! ### Host link (R581 to R595, R605, R610, R611) -/

/-- R583, R586, R591, R593, R610, R611: a CMD_PRODUCER within the ring is taken, one beyond it sets CMD_OVERRUN and is logged; consumer indices
within what was produced are taken, others set CPL_INDEX; the enables switch at once while nothing is in flight, and drain otherwise;
the drain's timeout aborts what is in flight, its RESULT the bytes moved; STATUS bits clear where 1 is written, and a HOST_REGISTER_WRITE of a
doorbell, an index or the enables is that command. -/
def Obligations.HostRegistersAct : Prop :=
  ∀ (s : State) (v : Word32), s.quiet → s.rings = true →
    (idxDiff (v.toNat % 65536) s.host.cmdConsumer ≤ 4096 →
      idxDiff s.host.cmdProducer s.host.cmdConsumer ≤ idxDiff (v.toNat % 65536) s.host.cmdConsumer →
      exec (.cmdProducer v) s = .next { s with host := { s.host with cmdProducer := v.toNat % 65536 } })
    ∧ (¬ (idxDiff (v.toNat % 65536) s.host.cmdConsumer ≤ 4096
          ∧ idxDiff s.host.cmdProducer s.host.cmdConsumer ≤ idxDiff (v.toNat % 65536) s.host.cmdConsumer) →
      ∃ t, exec (.cmdProducer v) s = .next t ∧ t.host.cmdOverrun = true ∧ t.host.cmdProducer = s.host.cmdProducer
        ∧ t.host.doorbellOverruns = satAdd32 s.host.doorbellOverruns 1 ∧ s.told t "HOST_DOORBELL_OVERRUN")
    ∧ (idxDiff (v.toNat % 65536) s.host.cplConsumer ≤ idxDiff s.host.cplProducer s.host.cplConsumer →
      exec (.cplConsumer v) s = .next { s with host := { s.host with cplConsumer := v.toNat % 65536 } })
    ∧ (idxDiff s.host.cplProducer s.host.cplConsumer < idxDiff (v.toNat % 65536) s.host.cplConsumer →
      exec (.cplConsumer v) s = .next { s with host := { s.host with cplIndex := true } })
    ∧ (idxDiff (v.toNat % 65536) s.host.evtConsumer ≤ idxDiff s.host.evtProducer s.host.evtConsumer →
      ∃ t, exec (.evtConsumer v) s = .next t ∧ t.host.evtConsumer = v.toNat % 65536 ∧ t = { s with host := t.host, out := t.out }
        ∧ (s.host.evtEn ≠ .on → t = { s with host := { s.host with evtConsumer := v.toNat % 65536 } }))
    ∧ (s.host.cmdEn = .off → exec (.cmdEn true) s = .next { s with host := { s.host with cmdEn := .on } })
    ∧ (s.host.cmdEn = .on → exec (.cmdEn false) s = .next { s with host := { s.host with
        cmdEn := if s.host.inflight = [] then .off else .draining false } })
    ∧ (s.host.busMaster = .off → exec (.busMasterEnable true) s = .next { s with host := { s.host with busMaster := .on } })
    ∧ (s.host.busMaster = .on → exec (.busMasterEnable false) s = .next { s with host := { s.host with
        busMaster := if s.host.inflight = [] then .off else .draining false } })
    ∧ (s.host.evtEn = .on → exec (.evtEn false) s = .next { s with host := { s.host with evtEn := .off } })
    ∧ (s.host.evtEn = .off →
      ∃ t, exec (.evtEn true) s = .next t ∧ t.host.evtEn = .on ∧ t = { s with host := t.host, out := t.out })
    ∧ (∀ c b, s.host.cmdEn = .draining b → s.host.inflight = [c] →
      ∃ t, exec (.cmdDrainTimeout 0) s = .next t ∧ t.host.inflight = [] ∧ t.host.cmdEn = (if b then .on else .off)
        ∧ t.host.cplProducer = (s.host.cplProducer + 1) % 65536 ∧ t.aon = s.aon + 25 * (1000 * s.host.drainTimeout)
        ∧ (∀ st n, s.memOk → c.outcome = some (st, n) →
            Memory.readN t.host.windowC (0x200000 + 16 * (s.host.cplProducer % 4096)) 16
              = leBytes c.tag 4 ++ leBytes Status.aborted.code 2 ++ zeros 2 ++ leBytes n 8)
        ∧ t = { s with host := t.host, out := t.out, aon := t.aon })
    ∧ exec (.hostRegisterWrite 0x004 v) s = .next { s with host := { s.host with
        wdBlocked := s.host.wdBlocked && !bit v.toNat 3, cplIndex := s.host.cplIndex && !bit v.toNat 2,
        mbOverrun := s.host.mbOverrun && !bit v.toNat 1, cmdOverrun := s.host.cmdOverrun && !bit v.toNat 0 } }
    ∧ exec (.hostRegisterWrite 0x028 v) s = .next { s with host := { s.host with wdStack := v.toNat % 64 } }
    ∧ exec (.hostRegisterWrite 0x008 v) s = exec (.cmdProducer v) s ∧ exec (.hostRegisterWrite 0x014 v) s = exec (.cplConsumer v) s
    ∧ exec (.hostRegisterWrite 0x01C v) s = exec (.evtConsumer v) s ∧ exec (.hostRegisterWrite 0x020 v) s = exec .mbDoorbell s

/-- R585, R587 to R589, R593: a command in form at the ring's consumer index is taken. NOP, and FENCE with nothing in flight, complete at
once, their completion entry the next of the ring; DMA_TO_HBM writes its bytes to the stack, DMA_FROM_HBM reads its bytes from it, each then in
flight until DMA_COMPLETE writes its completion; an OD_REQUEST is answered in host memory; the coalescing time raises vector 0, which is
pending where the MSI-X table masks it. -/
def Obligations.HostCommandsRun : Prop :=
  ∀ (s : State) (c : HostCmd), s.quiet → s.memOk →
    (s.takes c → c.opcode = 0 →
      ∃ t, exec .nop s = .next t ∧ t.host.cmdConsumer = (s.host.cmdConsumer + 1) % 65536
        ∧ t.host.cplProducer = (s.host.cplProducer + 1) % 65536
        ∧ Memory.readN t.host.windowC (0x200000 + 16 * (s.host.cplProducer % 4096)) 16 = leBytes c.tag 4 ++ zeros 12
        ∧ t.host.cmdsCompleted = satAdd32 s.host.cmdsCompleted 1 ∧ t = { s with host := t.host, out := t.out })
    ∧ (s.takes c → c.opcode = 4 → s.host.inflight = [] →
      ∃ t, exec .cmdFence s = .next t ∧ t.host.cmdConsumer = (s.host.cmdConsumer + 1) % 65536
        ∧ Memory.readN t.host.windowC (0x200000 + 16 * (s.host.cplProducer % 4096)) 16 = leBytes c.tag 4 ++ zeros 12
        ∧ t = { s with host := t.host, out := t.out })
    ∧ (∀ data, s.takes c → c.opcode = 2 → data.length = c.length → c.hbmAddr + c.length ≤ planSpace → s.stackServed c.stack = true →
      s.stackFull c.stack = false → s.slotsMet c.stack c.hbmAddr c.length = [] → s.clean c.stack →
      ∃ t, exec (.dmaToHbm data) s = .next t ∧ t.readStack c.stack c.hbmAddr c.length = data
        ∧ Memory.sameOutside (s.stack c.stack).mem (t.stack c.stack).mem c.hbmAddr c.length
        ∧ (∀ j, j ≠ c.stack → t.stack j = s.stack j) ∧ t.out = s.out ++ [.hostRead c.hostAddr c.length]
        ∧ t.host.inflight = s.host.inflight ++ [{ c with outcome := some (.ok, c.length) }] ∧ t.job = s.job ∧ t.cores = s.cores)
    ∧ (s.takes c → c.opcode = 3 → c.hbmAddr + c.length ≤ planSpace → s.stackServed c.stack = true → s.stackFull c.stack = false → s.clean c.stack →
      ∃ t, exec .dmaFromHbm s = .next t ∧ t.out = s.out ++ [.hostWrite c.hostAddr (s.readStack c.stack c.hbmAddr c.length)]
        ∧ t.host.inflight = s.host.inflight ++ [{ c with outcome := some (.ok, c.length) }]
        ∧ (∀ k, (t.stack k).mem = (s.stack k).mem) ∧ t.job = s.job ∧ t.cores = s.cores)
    ∧ (∀ x st n, s.hostUp = true → s.host.inflight = [x] → x.outcome = some (st, n) → x.tag < 2 ^ 32 →
      ∃ t, exec (.dmaComplete (BitVec.ofNat 32 x.tag)) s = .next t ∧ t.host.inflight = []
        ∧ t.host.cplProducer = (s.host.cplProducer + 1) % 65536
        ∧ Memory.readN t.host.windowC (0x200000 + 16 * (s.host.cplProducer % 4096)) 16
            = leBytes x.tag 4 ++ leBytes st.code 2 ++ zeros 2 ++ leBytes n 8
        ∧ t = { s with host := t.host, out := t.out })
    ∧ (∀ m x r, s.takes c → c.opcode = 1 → s.host.inflight = [] → m.length = c.length → s.taken.hostMessage .ring ringClient m = x →
      x.1.quiet → hostResponse m x.2 = r → r.length ≤ c.respLen →
      ∃ t, exec (.odRequest m) s = .next t ∧ Out.hostWrite c.respAddr r ∈ t.out
        ∧ t.host.cplProducer = (x.1.host.cplProducer + 1) % 65536 ∧ t = { x.1 with host := t.host, out := t.out })
    ∧ (s.rings = true → s.host.unsignalled ≠ 0 → s.host.coalesceTime ≠ 0 →
      ∃ t, exec .cplCoalesceTime s = .next t ∧ 25 * (s.host.unsignalledAt + s.host.coalesceTime) ≤ t.aon
        ∧ t = State.vector { s with host := { s.host with unsignalled := 0 }, aon := t.aon } 0
        ∧ t.out = (if s.host.masked 0 then s.out else s.out ++ [.vector 0])
        ∧ t.host.msixPending = (if s.host.masked 0 then s.host.msixPending ||| 1 else s.host.msixPending))

/-- R419, R581, R594, R605, R682, R686, R688: a Window D read below the plan space of lines that can be read returns the stack's bytes; a write
that meets no input slot writes them and nothing else; refused accesses are counted. A mailbox request is answered in Window C; PERST resets the
rings and keeps the job; a link that goes down takes nothing else with it. -/
def Obligations.WindowsAndMailboxServe : Prop :=
  ∀ (s : State), s.quiet → s.memOk →
    (∀ a n, s.hostUp = true → s.wdRefused a n = false → s.stackFull s.host.wdStack = false → a + n ≤ planSpace → s.clean s.host.wdStack →
      ∃ t, exec (.windowDRead a n) s = .next t ∧ t.out = s.out ++ [.windowData (s.readStack s.host.wdStack a n)]
        ∧ (∀ k, t.stack k = s.stack k) ∧ t = { s with hbm := t.hbm, out := t.out })
    ∧ (∀ a n, s.hostUp = true → s.wdRefused a n = true →
      exec (.windowDRead a n) s = .next { s with host := { s.host with wdRefused := satAdd32 s.host.wdRefused 1 }
                                                 out := s.out ++ [.windowData (List.replicate n 0xFF)] })
    ∧ (∀ a data, s.hostUp = true → s.wdRefused a data.length = false → a + data.length ≤ planSpace →
      s.slotsMet s.host.wdStack a data.length = [] → s.clean s.host.wdStack →
      ∃ t, exec (.windowDWrite a data) s = .next t ∧ t.readStack s.host.wdStack a data.length = data
        ∧ Memory.sameOutside (s.stack s.host.wdStack).mem (t.stack s.host.wdStack).mem a data.length
        ∧ s.onlyStack t s.host.wdStack)
    ∧ (∀ a data, s.hostUp = true → planSpace < a + data.length →
      exec (.windowDWrite a data) s = .next { s with host := { s.host with
        wdBlocked := true, wdDiscarded := satAdd32 s.host.wdDiscarded 1 } })
    ∧ (∀ m x, s.hostUp = true → s.host.mbBusy = false → Memory.readN s.host.windowC 0x10000 0x1000 = m →
      ({ s with host := { s.host with mbBusy := true } } : State).hostMessage .mailbox mailboxClient m = x → x.1.quiet →
      Memory.wf x.1.host.windowC = true →
      ∃ t, exec .mbDoorbell s = .next t ∧ t.host.mbBusy = false ∧ t.host.mbStatus = x.2.status.code
        ∧ Memory.readN t.host.windowC 0x11000 (hostResponse m x.2).length = hostResponse m x.2
        ∧ t.out = (if x.1.host.linkUp && !x.1.host.masked 3 then x.1.out ++ [.vector 3] else x.1.out) ∧ t = { x.1 with host := t.host, out := t.out })
    ∧ (∃ t, exec .perst s = .next t ∧ s.told t "HOST_RESET" ∧ t.host.cmdProducer = 0 ∧ t.host.cmdConsumer = 0 ∧ t.host.cmdEn = .off
        ∧ t.host.busMaster = .off ∧ t.host.inflight = [] ∧ t.host.linkUp = s.hostReachable)
    ∧ exec .hostLinkDown s = .next { s with host := { s.host with linkUp := false } }

/-! ### Chart and the object dictionary (R597 to R623, R743 to R745) -/

/-- R600, R601, R604, R614, R617, R743: from a local path a READ, READ_BLOCK, WRITE or WRITE_BLOCK whose header is out of form answers MALFORMED,
one of an entry that no manual page defines answers NO_ENTRY, and nothing else happens; a READ by the mailbox of an entry that is no byte string answers its value; on the field
network a READ with a kept response is counted and answered from what was kept; a WRITE or WRITE_BLOCK without a trailer is refused
AUTH_REQUIRED and counted; DISCOVER answers with the module's identity. -/
def Obligations.ChartAnswers : Prop :=
  ∀ (s : State) (c : Chart), s.quiet → s.pathUp c.path = true →
    (∀ i op, (i, op) ∈ [(Instr.read c, opREAD), (.readBlock c, opREAD_BLOCK), (.write c, opWRITE), (.writeBlock c, opWRITE_BLOCK)] →
      c.path ≠ .field → chartFormed c = false →
      exec i s = .next { s with out := s.out ++ [.chart none c.client c.txn op .malformed (responseHeader c op (.of .malformed)) []] })
    ∧ (c.path ≠ .field → chartFormed c = true → odFind c.index c.sub = none →
      (∀ i op, (i, op) ∈ [(Instr.read c, opREAD), (.readBlock c, opREAD_BLOCK), (.write c, opWRITE), (.writeBlock c, opWRITE_BLOCK)] →
        exec i s = .next { s with out := s.out ++ [.chart (pathSource c.path) c.client c.txn op .noEntry
          (responseHeader c op (.of .noEntry)) []] })
      ∧ exec (.odWrite c.path c.index c.sub c.body) s = .next s)
    ∧ (∀ e, c.path = .mailbox → chartFormed c = true → odFind c.index c.sub = some e → s.unreachable c.index c.sub = none → e.access ≠ .wo → e.type ≠ .blob →
      exec (.read c) s = .next { s.drawn with out := s.out ++ [.chart (pathSource c.path) c.client c.txn opREAD .ok
        (responseHeader c opREAD ⟨.ok, e.get s⟩) (e.get s)] })
    ∧ (∀ k, c.path = .field → s.fieldNet.kept.find? (fun x => x.client = c.client && x.txn = c.txn) = some k →
      exec (.read c) s = .next { s with out := s.out ++ [.chart (some fieldSource) k.client k.txn k.op k.status k.header k.body]
                                        fieldNet := { s.fieldNet with
                                          framesReceived := satAdd32 s.fieldNet.framesReceived 1
                                          requests := satAdd32 s.fieldNet.requests 1
                                          duplicates := satAdd32 s.fieldNet.duplicates 1
                                          framesSent := satAdd32 s.fieldNet.framesSent 1 } })
    ∧ (∀ i op, (i, op) ∈ [(Instr.write c, opWRITE), (.writeBlock c, opWRITE_BLOCK)] → c.path = .field → ¬ (c.index = 0x1800 ∧ c.sub = 3) →
      c.auth = none →
      ∃ t, exec i s = .next t ∧ t.out = s.out ++ [.chart (pathSource c.path) c.client c.txn op .authRequired
          (responseHeader c op (.of .authRequired)) []]
        ∧ t.fieldNet.authRefused = satAdd32 s.fieldNet.authRefused 1 ∧ t = { s with fieldNet := t.fieldNet, out := t.out })
    ∧ (∀ client txn, s.awake = true → s.fieldNet.kept.find? (fun x => x.client = client && x.txn = txn) = none →
      ∃ t, exec (.discover client txn) s = .next t
        ∧ t.out = s.out ++ [.chart (some fieldSource) client txn opDISCOVER .ok
            (responseHeader { path := .field, client := client, txn := txn, index := 0, sub := 0, offset := 0, last := false, auth := none, body := [] }
              opDISCOVER ⟨.ok, swapFields discoverFields s.discoverBody⟩) (swapFields discoverFields s.discoverBody)]
        ∧ t.fieldNet.requests = satAdd32 s.fieldNet.requests 1 ∧ t = { s with fieldNet := t.fieldNet, out := t.out })

/-- R745: a WRITE or WRITE_BLOCK on the field network, but for BUNDLE, first has its key and MAC tested, then its TXN among the kept
responses, then its counter; a failed test is answered and changes nothing else, and an accepted counter stands in FIELD_AUTH_COUNTER
when the write executes. From a local path a writable number takes a value in its range, and a value out of it is refused (R620): here
UPDATE_WAIT, written by WRITE and by OD_WRITE. -/
def Obligations.WritesAreTaken : Prop :=
  ∀ (s : State) (c : Chart), s.quiet → s.pathUp c.path = true →
    (∀ i op, (i, op) ∈ [(Instr.write c, opWRITE), (.writeBlock c, opWRITE_BLOCK)] → c.path = .field → ¬ (c.index = 0x1800 ∧ c.sub = 3) →
      (s.macOk c op = false →
        ∃ t, exec i s = .next t ∧ t.out = s.out ++ [.chart (pathSource c.path) c.client c.txn op .authRequired
            (responseHeader c op (.of .authRequired)) []]
          ∧ t = { s with fieldNet := t.fieldNet, out := t.out })
      ∧ (∀ k, s.macOk c op = true → s.fieldNet.kept.find? (fun x => x.client = c.client && x.txn = c.txn) = some k →
        ∃ t, exec i s = .next t ∧ t.out = s.out ++ [.chart (some fieldSource) k.client k.txn k.op k.status k.header k.body]
          ∧ t = { s with fieldNet := t.fieldNet, out := t.out })
      ∧ (s.macOk c op = true → s.fieldNet.kept.find? (fun x => x.client = c.client && x.txn = c.txn) = none →
        chartCounter c ≤ s.fw.authCounter →
        ∃ t, exec i s = .next t ∧ t.out = s.out ++ [.chart (pathSource c.path) c.client c.txn op .authRequired
            (responseHeader c op (.of .authRequired)) []]
          ∧ t = { s with fieldNet := t.fieldNet, out := t.out })
      ∧ (∀ u x, s.macOk c op = true → s.fieldNet.kept.find? (fun x => x.client = c.client && x.txn = c.txn) = none →
        s.fw.authCounter < chartCounter c → chartFormed c = true →
        u = { s with fw := { s.fw with authCounter := chartCounter c }, nv := s.nv.begin s.micros s.reset_.pending.isSome s.nvImage
                     fieldNet := { s.fieldNet with framesReceived := satAdd32 s.fieldNet.framesReceived 1
                                                   requests := satAdd32 s.fieldNet.requests 1 } } →
        x = (if op = opWRITE then u.odWrite .field c.index c.sub c.body
             else u.odWriteBlock .field c.client c.index c.sub c.offset c.body c.last) →
        x.1.quiet →
        exec i s = .next (x.1.respond c op x.2)))
    ∧ (∀ v, c.path ≠ .field → s.job.jobState = jsNO_PLAN → s.job.loading = none → chartFormed c = true → c.index = 0x2A01 → c.sub = 1 → v < 2 ^ 32 →
      (c.body = leBytes v 4 → 1 ≤ v → v ≤ 60000 →
        exec (.write c) s = .next { s with plotter := { s.plotter with updateWait := v }
                                           out := s.out ++ [.chart (pathSource c.path) c.client c.txn opWRITE .ok
                                             (responseHeader c opWRITE (.of .ok)) []] })
      ∧ (c.body = leBytes v 4 → (v = 0 ∨ 60000 < v) →
        exec (.write c) s = .next { s with out := s.out ++ [.chart (pathSource c.path) c.client c.txn opWRITE .valueRange
          (responseHeader c opWRITE (.of .valueRange)) []] })
      ∧ (1 ≤ v → v ≤ 60000 →
        exec (.odWrite c.path 0x2A01 1 (leBytes v 4)) s = .next { s with plotter := { s.plotter with updateWait := v } }))


/-- R602: a READ_BLOCK at OFFSET 0 takes a snapshot of the BLOB for its client, by every path; at another offset it is served from the
snapshot; one that has not been read for 10 s is dropped. A piece of a WRITE_BLOCK from a local path is refused BUSY in another client's
session, joins its own while bytes are missing, and completes the write when LAST and every byte have arrived; a session that has had no
piece for 10 s is dropped. NOTIFY PRESENCE leaves at its interval; a beacon that is missed takes the interface off PLCA, one that is back
takes it on. -/
def Obligations.BlocksAreServed : Prop :=
  (∀ (s : State) (c : Chart) (e : OdEntry), s.quiet → s.pathUp c.path = true → odFind c.index c.sub = some e →
      s.unreachable c.index c.sub = none → e.type = .blob → chartFormed c = true →
    (∀ want, e.access ≠ .wo → c.body.length = 2 →
      (c.path = .field → s.fieldNet.kept.find? (fun x => x.client = c.client && x.txn = c.txn) = none) →
      want = min (leNat (coded c.path .u16 [2] c.body)) (maxBody c.path) →
      (c.offset = 0 →
        ∃ t u, exec (.readBlock c) s = .next t ∧ u = { s with fieldNet := u.fieldNet } ∧ (c.path ≠ .field → u = s)
          ∧ t.snapshot c.client c.index c.sub
              = some { client := c.client, index := c.index, sub := c.sub, data := e.get u, lastRead := s.micros }
          ∧ t.out = s.out ++ [.chart (pathSource c.path) c.client c.txn opREAD_BLOCK .ok
              (responseHeader c opREAD_BLOCK ⟨.ok, slice (e.get u) 0 want⟩) (slice (e.get u) 0 want)]
          ∧ t = { s with fieldNet := t.fieldNet, out := t.out, freshCount := t.freshCount
                         power := { s.power with powerPeak := t.power.powerPeak } })
      ∧ (∀ x, c.offset ≠ 0 → s.snapshot c.client c.index c.sub = some x →
        ∃ t, exec (.readBlock c) s = .next t ∧ t.snapshot c.client c.index c.sub = some { x with lastRead := s.micros }
          ∧ t.out = s.out ++ [.chart (pathSource c.path) c.client c.txn opREAD_BLOCK .ok
              (responseHeader c opREAD_BLOCK ⟨.ok, slice x.data c.offset want⟩) (slice x.data c.offset want)]
          ∧ t = { s with fieldNet := t.fieldNet, out := t.out }))
    ∧ (c.path ≠ .field → s.forbidden e.access = false → ¬ (c.index = 0x1800 ∧ c.sub = 3) →
      (∀ x, s.session c.index c.sub 0 = some x → x.client ≠ c.client →
        exec (.writeBlock c) s = .next { s with out := s.out ++ [.chart (pathSource c.path) c.client c.txn opWRITE_BLOCK .busy
            (responseHeader c opWRITE_BLOCK (.of .busy)) []] })
      ∧ (∀ x, x = (s.session c.index c.sub 0).getD
            { index := c.index, sub := c.sub, chunk := 0, client := c.client, bytes := [], fin := none, last := 0 } → x.client = c.client →
        ((x.join c.offset c.body c.last s.micros).whole = none →
          ∃ t, exec (.writeBlock c) s = .next t ∧ x.join c.offset c.body c.last s.micros ∈ t.fieldNet.sessions
            ∧ t.out = s.out ++ [.chart (pathSource c.path) c.client c.txn opWRITE_BLOCK .ok (responseHeader c opWRITE_BLOCK (.of .ok)) []]
            ∧ t = { s with fieldNet := t.fieldNet, out := t.out })
        ∧ (∀ v y, (x.join c.offset c.body c.last s.micros).whole = some v → y = (s.dropSession c.index c.sub 0).odPut c.path e v →
          y.1.quiet →
          exec (.writeBlock c) s = .next { y.1 with out := y.1.out ++ [.chart (pathSource c.path) c.client c.txn opWRITE_BLOCK y.2
            (responseHeader c opWRITE_BLOCK (.of y.2)) []] }))))
  ∧ ∀ (s : State), s.quiet →
    (∀ c i j x, s.snapshot c i j = some x →
      ∃ t, exec (.snapshotExpiry c i j) s = .next t ∧ t.snapshot c i j = none ∧ 25 * (x.lastRead + 10000000) ≤ t.aon
        ∧ (∀ y ∈ s.fieldNet.snapshots, ¬ (y.client = c ∧ y.index = i ∧ y.sub = j) → y ∈ t.fieldNet.snapshots)
        ∧ t = { s with fieldNet := { s.fieldNet with snapshots := t.fieldNet.snapshots }, aon := t.aon })
    ∧ (∀ i j x, s.fieldNet.sessions = [x] → x.index = i → x.sub = j →
      ∃ t, exec (.writeSessionIdle i j) s = .next t ∧ 25 * (x.last + 10000000) ≤ t.aon
        ∧ t = { s with fieldNet := { s.fieldNet with sessions := [] }, aon := t.aon })
    ∧ (s.awake = true →
      ∃ t, exec .presenceInterval s = .next t ∧ t.out = s.out ++ [.notify fieldSource s.fieldNet.notifyAddr 0 (swapFields discoverFields s.discoverBody)]
        ∧ 25 * (s.fieldNet.presenceAt + 1000 * s.fieldNet.presenceInterval) ≤ t.aon
        ∧ t = { s with out := t.out, aon := t.aon, fieldNet := { s.fieldNet with
            presenceAt := t.micros, framesSent := satAdd32 s.fieldNet.framesSent 1 } })
    ∧ (s.awake = true →
      exec (.plcaBeaconMissed true) s = .next { s with fieldNet := { s.fieldNet with plcaUp := true } }
      ∧ exec (.plcaBeaconMissed false) s = .next { s with fieldNet := { s.fieldNet with
          plcaUp := false, beaconsMissed := satAdd32 s.fieldNet.beaconsMissed 1 } })

/-- R65, R184, R246, R507, R622, R636, R749, R754: each clearing command clears what it names and nothing else, and its action completes
with status OK; COUNTER_SELECT with a blob out of form changes nothing, and one in form sets every control word and clears every count. -/
def Obligations.ClearsClear : Prop :=
  ∀ (s : State), s.quiet → s.closed = none →
    (s.job.plan = none →
      ∃ u, exec .fieldDefectsClear s = .next u ∧ u.wafer.fieldDefects = [] ∧ u.wafer.fieldSeq = s.wafer.fieldSeq + 1
        ∧ u = { s with wafer := { s.wafer with flash0 := u.wafer.flash0, flash1 := u.wafer.flash1 }, actions := u.actions }
        ∧ (u.action 0x2104 2).status = 0)
    ∧ (∃ u, exec .flushFlagsClear s = .next u ∧ (∀ n, u.core n = { s.core n with flush := 0 })
      ∧ u = { s with cores := u.cores, actions := u.actions } ∧ (u.action 0x2401 2).status = 0)
    ∧ (∃ u, exec .accFlagsClear s = .next u ∧ (∀ n, u.core n = { s.core n with accSat := false })
      ∧ u = { s with cores := u.cores, actions := u.actions } ∧ (u.action 0x2404 2).status = 0)
    ∧ (s.job.plan = none → exec .nvLogClear s = .next ((({ s with log := { s.log with nv := [] } } : State).nvBegin s.nvImage).actionDone 0x4000 4 0))
    ∧ (∀ l p, s.memOk → s.ownedLayers = [l] → s.placeOfLayer l = some p → s.clean p.stack → (∀ j, (s.stack j).merges = []) →
      ∃ u, exec .plotterFlagsClear s = .next u ∧ (u.stateHdr p).flags % 8 = 0
        ∧ (u.stateHdr p).flags / 8 = (s.stateHdr p).flags / 8 ∧ (u.stateHdr p).tag = (s.stateHdr p).tag
        ∧ (u.stateHdr p).journal = (s.stateHdr p).journal
        ∧ Memory.sameOutside (s.stack p.stack).mem (u.stack p.stack).mem p.hdr 64
        ∧ u = { s with hbm := u.hbm, actions := u.actions } ∧ ∀ j, j ≠ p.stack → u.stack j = s.stack j)
    ∧ (∀ b, s.job.jobState = jsNO_PLAN → s.job.loading = none → selectOk b = false → exec (.counterSelect b) s = .next s)
    ∧ (∀ b, s.job.jobState = jsNO_PLAN → s.job.loading = none → selectOk b = true →
      ∃ u, exec (.counterSelect b) s = .next u
        ∧ (∀ n k, n < numBlocks → k < blockCounters n → Tab.get 0xFF00 u.gaz.control (8 * n + k) = selectWord b n k)
        ∧ (∀ n, (u.core n).counters = [] ∧ (u.core n).tally = .zero ∧ (u.core n).wrapped = 0) ∧ u.gaz.blocks = []
        ∧ u = { s with cores := u.cores, gaz := { s.gaz with control := u.gaz.control, blocks := [], lastTally := [] } })

/-! ### The power ladder and resets (R511, R667 to R674, R682 to R712) -/

/-- R669, R670, R674: a POWER_REQUEST for another state is taken while no request and no plan stands, and is refused BUSY while one stands; each
transition takes the module to the next state in order, upward and downward, and the request completes with OK when its target is
reached. Retain takes the ports down, Stow the cores' memories, Vigil the stacks'. On the way up the rails of the next state are requested of
the governors of their sheets, and the transition waits until none of them waits or ramps. -/
def Obligations.PowerStatesChangeInOrder : Prop :=
  ∀ (s : State), s.quiet →
    (∀ n, s.closed = none → n ≤ 4 → s.power.powerState < n → s.power.target = none → s.job.jobState = jsNO_PLAN → s.job.loading = none →
      exec (.powerRequest n) s = .next (({ s with power := { s.power with target := some n } } : State).actionStart 0x3000 2))
    ∧ (∀ n, s.closed = none → s.power.powerState ≤ 4 → n < s.power.powerState → s.power.target = none → s.job.jobState = jsNO_PLAN →
      s.job.loading = none →
      ∃ t, exec (.powerRequest n) s = .next t ∧ t.power.target = some n ∧ (t.action 0x3000 2).busy = true
        ∧ t = { s with power := { s.power with target := some n, gov := t.power.gov }, actions := t.actions }
        ∧ ∀ k, k < numSheets → k ∉ s.wafer.dark → ∀ kind ∈ legKinds s.power.powerState, ∀ r ∈ sheetRegs kind k, r ∉ s.power.regsOff →
          (s.reg r).failed = false → ∃ y ∈ (t.governor k).waiting ++ (t.governor k).ramping, y.reg = r)
    ∧ (∀ n m, s.closed = none → n ≤ 4 → s.power.target = some m →
      exec (.powerRequest n) s = .next s ∧ (s.opPowerRequest n).2 = .busy)
    ∧ (∀ n, s.power.target = some n → s.power.powerState + 1 < n → s.job.plan = none →
      ∃ t, exec .powerTransitionComplete s = .next t ∧ t.power.powerState = s.power.powerState + 1 ∧ t.power.target = some n
        ∧ t.actions = s.actions ∧ t.job = s.job ∧ t.power.ties = []
        ∧ (s.power.powerState + 1 ≠ 4 → ∀ k, (t.stack k).mem = (s.stack k).mem))
    ∧ (∀ n, s.power.target = some n → n < s.power.powerState → s.power.settled = false → exec .powerTransitionComplete s = .next s)
    ∧ (∀ n, s.power.target = some n → n + 1 < s.power.powerState → s.power.settled = true →
      exec .powerTransitionComplete s
        = .next ({ s with power := { s.power with powerState := s.power.powerState - 1 } } : State).ascend)
    ∧ (∀ n, s.power.target = some n → s.power.powerState + 1 = n → s.job.loading = none → s.job.plan = none → (s.action 0x3000 2).busy = true →
      ∃ t, exec .powerTransitionComplete s = .next t ∧ t.power.powerState = n ∧ t.power.target = none
        ∧ (t.action 0x3000 2).busy = false ∧ (t.action 0x3000 2).status = 0
        ∧ (n = 2 → t.net.ifaces = []) ∧ (n = 3 → t.cores = [] ∧ t.fabric.routing = .empty) ∧ (n = 4 → ∀ k, (t.stack k).mem = []))
    ∧ (∀ n, s.power.target = some n → n + 1 = s.power.powerState → s.power.settled = true → s.job.loading = none →
      (s.action 0x3000 2).busy = true →
      ∃ t, exec .powerTransitionComplete s = .next t ∧ t.power.powerState = n ∧ t.power.target = none
        ∧ (t.action 0x3000 2).busy = false ∧ (t.action 0x3000 2).status = 0 ∧ t.cores = s.cores ∧ t.hbm = s.hbm ∧ t.job = s.job
        ∧ (n = 0 → s.fabric.routing = .empty → t.fabric.routing = s.mesh.routing s.segmentDown s.fabric.neatPenalty))

/-- R511, R635, R685, R687, R706, R710: each reset source leaves its code and scope pending, unless one of the same or a wider scope waits
already or the Cartouche has stopped; nothing else of the module changes until the reset asserts, but for what the action of a command
counts and DATUM_EXIT's write of FAILED_STARTS. An MRST pulse shorter than 1 µs is none. A start that is not Ready times out after 180 s, and
neither in Datum mode nor while a pushed image is awaited or a thermal hold lasts. -/
def Obligations.ResetSourcesAreHeld : Prop :=
  ∀ (s : State), s.quiet →
    (∀ i code scope, (i, code, scope) ∈ [(Instr.watchdog, rcWATCHDOG, Scope.warm), (.criticalControl, rcCRITICAL_CONTROL, .cold)] →
      exec i s = .next { s with reset_ := { s.reset_ with pending := s.heldReset code scope } })
    ∧ (∀ table, exec (.criticalState table) s
        = .next { s with reset_ := { s.reset_ with pending := s.heldReset rcCRITICAL_STATE .warm } })
    ∧ (∀ n, exec (.mrst n) s
        = .next (if n < 1000 then s else { s with reset_ := { s.reset_ with pending := s.heldReset rcMRST .cold } }))
    ∧ (∀ path, exec (.resetCold path) s
        = .next (({ s with reset_ := { s.reset_ with
            pending := s.heldReset (if path = .field then rcFIELD_COLD else rcOD_COLD) .cold } } : State).actionDone 0x3800 4 0))
    ∧ (∀ path, exec (.resetWarm path) s
        = .next (({ s with reset_ := { s.reset_ with
            pending := s.heldReset (if path = .field then rcFIELD_WARM else rcOD_WARM) .warm } } : State).actionDone 0x3800 5 0))
    ∧ (∀ path, (s.reset_.datum = true → exec (.datumExit path) s
        = .next (({ s with nv := s.nv.begin s.micros s.reset_.pending.isSome s.nvImage, reset_ := { s.reset_ with
            failedStarts := 0, pending := s.heldReset (if path = .field then rcFIELD_COLD else rcOD_COLD) .cold } } : State).actionDone 0x3800 9 0))
      ∧ (s.reset_.datum = false → exec (.datumExit path) s = .next s))
    ∧ (s.reset_.ready = false → s.reset_.datum = false → s.reset_.awaitPush = false → s.reset_.thermalHold = false → s.power.cartouche = true →
      ∃ t, exec .startTimeout s = .next t
        ∧ ({ s with aon := max s.aon (25 * (180000000 + s.reset_.excluded)), reset_ := { s.reset_ with
            pending := s.heldReset rcSTART_TIMEOUT .cold } } : State).told t "START_TIMEOUT")
    ∧ (s.reset_.ready = true ∨ s.reset_.datum = true ∨ s.reset_.awaitPush = true ∨ s.reset_.thermalHold = true → exec .startTimeout s = .next s)

/-- R303, R624, R682, R685, R691, R692: a reset asserts outside an NV pulse; one held in a pulse asserts at its end, or once the pulse has run
past 120 µs, whose write is then as if never made. The module starts again: RESET_CAUSE names the source, the first release step comes
next, the plan and the cores' contents are gone; a Warm reset keeps the stacks' memories, a Cold one does not. What else the NV store holds
stays. -/
def Obligations.ResetsStartAgain : Prop :=
  ∀ (s : State) (code : Nat) (scope : Scope), s.quiet → s.reset_.pending = some (code, scope) → s.job.ckpt.st = 0 →
    (s.nv.pulse ≠ none → s.nv.overrun s.micros = false → exec .resetAssert s = .next s)
    ∧ ∀ i v, (i = .resetAssert ∧ s.power.cartouche = true ∧ (s.nv.pulse = none ∨ s.nv.overrun s.micros = true)
        ∨ i = .nvPulseEnd ∧ s.nv.pulse ≠ none) →
      v = (match s.nv.pulse with | some p => if s.nv.overrun s.micros = true then p.2 else s.nvImage | none => s.nvImage) →
      ∃ t, exec i s = .next t ∧ t.reset_.cause = code ∧ t.reset_.releaseStep = 1 ∧ t.reset_.ready = false ∧ t.reset_.pending = none
        ∧ t.job.plan = none ∧ t.job.jobState = jsSTARTING ∧ t.cores = [] ∧ t.flight = .reset ∧ t.log.seq = 1
        ∧ t.wafer.fieldDefects = s.wafer.fieldDefects ∧ t.fw.slot0 = s.fw.slot0 ∧ t.fw.slot1 = s.fw.slot1
        ∧ t.fw.authCounter = v.authCounter ∧ t.fw.authKeys = v.authKeys ∧ t.reset_.failedStarts = v.failedStarts ∧ t.pending = s.pending
        ∧ (scope = .warm → s.power.powerState ≠ 4 → t.reset_.scope = .warm ∧ ∀ k, (t.stack k).mem = (s.stack k).mem)
        ∧ (scope = .cold → t.reset_.scope = .cold ∧ ∀ k, (t.stack k).mem = [])

/-- R682, R683: RESET_FABRIC and RESET_CORE of a module without a plan reset the queues, pennants and staging of every core, or all of one core's
memories too; during a Fabric reset a RESET_CORE has no reset of its own. Their completion ends the action, and a core that fails its self-test
is fenced; a routing reload that the Fabric reset has cut short begins again (the model's choice: notes/assumptions/21.md). -/
def Obligations.PartialResetsAct : Prop :=
  ∀ (s : State), s.quiet →
    (s.partReset = none →
      ∃ t, exec .resetFabric s = .next t ∧ t.reset_.fabricReset = true ∧ t.fabric.routing = .empty ∧ t.flight = .reset
        ∧ (∀ n, (t.core n).pen = [] ∧ (t.core n).fq = .idle ∧ (t.core n).staging = [] ∧ (t.core n).act = (s.core n).act)
        ∧ t.hbm = s.hbm ∧ t.wafer = s.wafer ∧ t.log.seq = (s.log.seq + 1) % 2 ^ 32 ∧ (t.action 0x3800 6).busy = true)
    ∧ (∀ n, s.partReset = none → n < numCores → s.reset_.fabricReset = true →
      exec (.resetCore n) s = .next (s.actionDone 0x3800 7 0))
    ∧ (∀ n, s.partReset = none → n < numCores → s.reset_.fabricReset = false →
      ∃ t, exec (.resetCore n) s = .next t ∧ t.reset_.coreReset = some n ∧ (∀ m, m ≠ n → t.core m = s.core m)
        ∧ t.core n = (s.core n).coreReset ∧ t.hbm = s.hbm ∧ t.fabric = s.fabric ∧ t.log.seq = (s.log.seq + 1) % 2 ^ 32
        ∧ (t.action 0x3800 7).busy = true)
    ∧ (∀ wires bad, s.reset_.fabricReset = true → s.job.batch.stage = .reload →
      ∃ t, exec (.fabricResetComplete wires bad) s = .next t ∧ t.reset_ = { s.reset_ with fabricReset := false }
        ∧ t.fabric.reload = .draining ∧ t.job.batch.faults = s.job.batch.next ∧ t.job.batch.next = []
        ∧ (t.action 0x3800 6).busy = false ∧ (t.action 0x3800 6).status = 0)
    ∧ (∀ wires bad, s.reset_.fabricReset = true → s.job.batch.stage ≠ .reload →
      ∃ t, exec (.fabricResetComplete wires bad) s = .next t ∧ t.reset_ = { s.reset_ with fabricReset := false }
        ∧ t.fabric.epoch = (s.fabric.epoch + 1) % 2 ^ 32
        ∧ (∀ l, l ∈ bad → linkExists l = true → (t.link l).st = .down)
        ∧ (s.power.powerState < 3 → 3 ∈ s.power.railsUp → t.fabric.routing = t.mesh.routing t.segmentDown t.fabric.neatPenalty)
        ∧ t.wafer.measureCount = s.wafer.measureCount + 1 ∧ (t.action 0x3800 6).busy = false ∧ (t.action 0x3800 6).status = 0
        ∧ t.cores = s.cores ∧ t.hbm = s.hbm)
    ∧ (∀ n, s.reset_.coreReset = some n →
      (∃ t, exec (.coreResetComplete true) s = .next t
        ∧ t = { s with reset_ := { s.reset_ with coreReset := none }, actions := t.actions }
        ∧ (t.action 0x3800 7).busy = false ∧ (t.action 0x3800 7).status = 0)
      ∧ (n ∉ s.wafer.fieldDefects → s.wafer.fieldDefects.length < 64 →
        ∃ t, exec (.coreResetComplete false) s = .next t ∧ t.cores = s.cores ∧ t.hbm = s.hbm
          ∧ (if s.badCore n = true then t.wafer = s.wafer
            else t.coreStateOf n = .fenced ∧ t.wafer.fieldDefects = s.wafer.fieldDefects ++ [n]
              ∧ t.wafer.legendEpoch = (s.wafer.legendEpoch + 1) % 2 ^ 32)))

/-- R693 to R698, R703, R707: a release step takes 256 always-on cycles: the first samples the straps and SLOT_ID, and begins the boot, counted
as a failed start until the module is Ready, unless a thermal hold lasts; the fourth, without a converter that fails, changes nothing
else; the sixth takes the stacks that fail their test out, and copies a journal that it finds in memory that was kept (R476); after the ninth the module is Ready with no plan. A thermal hold lasts 60 s and
until the inlet reads 35 °C or less; a selected reference that is absent is logged. -/
def Obligations.ReleaseStepsFollow : Prop :=
  ∀ (s : State) (r : StepReport), s.quiet → s.starting = true →
    (s.reset_.releaseStep = 1 → s.reset_.thermalHold = true →
      exec (.releaseStep r) s = .next { s with aon := s.aon + 256, reset_ := { s.reset_ with
        straps := r.bootSrc % 4 + 4 * (r.clkMode % 4) + (if r.clkMode % 4 = 3 then 16 else 0), slotId := r.slotId % 16
        bootSrc := r.bootSrc % 4, clkMode := r.clkMode % 4, releaseStep := 2, waitFrom := some s.micros } })
    ∧ (s.reset_.releaseStep = 1 → s.reset_.thermalHold = false → s.reset_.failedStarts = 0 → r.bootSrc % 4 = 0 →
      ∃ t, exec (.releaseStep r) s = .next t ∧ t.reset_.releaseStep = 2 ∧ t.reset_.failedStarts = 1 ∧ t.nv.pulse ≠ none
        ∧ t.aon = s.aon + 256 ∧ t.fw = s.fw ∧ t.wafer = s.wafer ∧ t.hbm = s.hbm)
    ∧ (s.reset_.releaseStep = 4 → r.badConverters = [] →
      exec (.releaseStep r) s = .next { s with
        aon := s.aon + 256, reset_ := { s.reset_ with releaseStep := 5 }, power := s.power.supply [0] })
    ∧ (s.reset_.releaseStep = 6 → s.job.ownerPlaces = [] → (∀ k, (s.stack k).merges = []) →
      ∃ t, exec (.releaseStep r) s = .next t ∧ t.reset_.releaseStep = 7 ∧ t.aon = s.aon + 256
        ∧ (∀ k < numStacks, t.stack k = { s.stack k with beyond := (s.stack k).beyond || r.badStacks.contains k })
        ∧ t = { s with hbm := t.hbm, reset_ := t.reset_, aon := t.aon, power := s.power.supply [4] })
    ∧ (∀ p, s.reset_.releaseStep = 6 → s.job.ownerPlaces = [p] → (s.stateHdr p).journal = 1 → r.badStacks = [] → s.memOk →
      (∀ k, s.clean k) → p.jstack ≠ p.stack → p.hdr + 64 ≤ p.mom →
      ∃ t, exec (.releaseStep r) s = .next t ∧ t.reset_.releaseStep = 7 ∧ t.stateHdr p = { s.stateHdr p with journal := 0 }
        ∧ t.readStack p.stack p.mom (2 * p.rows * p.cols) = s.readStack p.jstack p.journal (2 * p.rows * p.cols)
        ∧ (∀ j, j ≠ p.stack → t.stack j = s.stack j)
        ∧ t = { s with hbm := t.hbm, reset_ := t.reset_, aon := t.aon, power := s.power.supply [4] })
    ∧ (s.reset_.releaseStep = 9 → s.fw.unconfirmed = false →
      exec (.releaseStep r) s = .next { s with
        aon := s.aon + 256, job := { s.job with jobState := jsNO_PLAN }, host := { s.host with linkUp := true }
        power := { s.power with powerState := 0 }, nv := s.nv.begin s.micros s.reset_.pending.isSome s.nvImage
        reset_ := { s.reset_ with releaseStep := 0, ready := true, failedStarts := 0, startTime := s.micros / 1000 } })
    ∧ (∀ x, s.reset_.releaseStep = 2 → s.reset_.thermalHold = true → numLe x (int32 35) = false →
      ∃ t, exec (.thermalHold x) s = .next t ∧ t.reset_ = s.reset_ ∧ t.power = { s.power with inlet := x } ∧ s.aon ≤ t.aon
        ∧ 25 * (s.reset_.waitFrom.getD 0 + 60000000) ≤ t.aon ∧ t.fw = s.fw ∧ t.log = s.log)
    ∧ (∀ x, s.reset_.releaseStep = 2 → s.reset_.thermalHold = true → numLe x (int32 35) = true → s.reset_.failedStarts = 0 →
      s.reset_.bootSrc = 0 →
      ∃ t, exec (.thermalHold x) s = .next t ∧ t.reset_.thermalHold = false ∧ t.reset_.failedStarts = 1 ∧ t.power.inlet = x
        ∧ 25 * (s.reset_.waitFrom.getD 0 + 60000000) ≤ t.aon
        ∧ t.reset_.excluded = s.reset_.excluded + (t.micros - s.reset_.waitFrom.getD t.micros))
    ∧ (s.reset_.releaseStep = 5 → (s.reset_.clkMode = 1 ∨ s.reset_.clkMode = 2) →
      (s.reset_.pllOnModule = false → ∃ t, exec .clkRefAbsent s = .next t
        ∧ ({ s.elapse 10000 with reset_ := { s.reset_ with pllOnModule := true } } : State).told t "CLK_REF_ABSENT")
      ∧ (s.reset_.pllOnModule = true → exec .clkRefAbsent s = .next s))

/-! ### Counters and snapshot records (R749 to R768) -/

/-- R760 to R767: a capture message that reaches a block copies the block's counts into the bank of its kind; in mode 1 an interval message leaves
every GAZ_INTERVAL; a sweep whose messages have arrived writes its record into the ring while that has room, and is counted an overrun
otherwise. -/
def Obligations.CountsAreCaptured : Prop :=
  ∀ (s : State), s.quiet →
    (∀ b m, b < numBlocks → s.gaz.msgs.find? (fun x => !x.reached.contains b) = some m → s.captures b = true → m.interval = false →
      ∃ t, exec (.captureMessage b) s = .next t ∧ Tab.get .zero t.gaz.stepBank b = s.captureOf b m.seq ∧ t.gaz.intBank = s.gaz.intBank
        ∧ t = { s with gaz := { s.gaz with stepBank := t.gaz.stepBank, msgs := t.gaz.msgs } })
    ∧ (s.gaz.mode = 1 → s.reset_.ready = true →
      ∃ t, exec .gazInterval s = .next t ∧ t.gaz.intSeq = (s.gaz.intSeq + 1) % 2 ^ 32
        ∧ t.gaz.msgs = s.gaz.msgs ++ [{ interval := true, seq := s.gaz.intSeq, reached := [] }] ∧ t.gaz.intervalAt = t.micros
        ∧ 25 * (s.gaz.intervalAt + s.gaz.interval) ≤ t.aon ∧ t.gaz.sweep ≠ none ∧ t = { s with gaz := t.gaz, aon := t.aon })
    ∧ (∀ w, s.gaz.sweep = some w → s.sweepReady w = true →
      ((s.gaz.producer + 2 ^ 32 - s.gaz.consumer) % 2 ^ 32 < 256 → s.memOk → s.clean gazRingStack →
        ∃ t, exec .gazetteerSweep s = .next t ∧ t.gaz.producer = (s.gaz.producer + 1) % 2 ^ 32 ∧ t.gaz.sweep = none
          ∧ t.gaz.missed = 0 ∧ s.onlyStack { t with gaz := s.gaz } gazRingStack
          ∧ t.readStack gazRingStack (gazRingBase + 262144 * (s.gaz.producer % 256)) t.gaz.lastRecord.length = t.gaz.lastRecord
          ∧ Memory.sameOutside (s.stack gazRingStack).mem (t.stack gazRingStack).mem
              (gazRingBase + 262144 * (s.gaz.producer % 256)) t.gaz.lastRecord.length)
      ∧ (256 ≤ (s.gaz.producer + 2 ^ 32 - s.gaz.consumer) % 2 ^ 32 →
        exec .gazetteerSweep s = .next { s with gaz := { s.gaz with sweep := none, overruns := satAdd32 s.gaz.overruns 1 } }))

/-! ### Firmware and attestation (R718 to R742) -/

/-- R721, R728 to R731, R736 to R739: a body chunk that its manifest entry names is kept, one that it does not name is rejected and logged, the
delivery with it where it is pushed (R727), on every path, within the allowance of the field network (R734);
BUNDLE_ABANDON empties a staged slot; FW_SWAP makes a staged bundle active unconfirmed and asks for a Warm reset; FW_CONFIRM confirms
the running image and blows its fuses; CONFIRM_REMAINING is stored every 60 s, and at its expiry the previous image is active again.
R740 to R742: ATTEST with no report in progress begins one over the nonce; once signed, ATTEST_REPORT holds it with its signature, and the next
report's sequence number is one higher. -/
def Obligations.FirmwareAndReports : Prop :=
  (∀ (s : State), s.quiet →
     (∀ path c data d u, s.noBundle path = none → s.allow path 4096 = some u → s.delivery = d → data.length = 4096 → d.headerOk = true →
       d.manifestOk = true → c ∉ d.bitmap → 2 + d.manifestChunks ≤ c → c < d.total →
       (d.bodyOk (c - 2 - d.manifestChunks) data = false →
         ∃ t, exec (.bundle path (4096 * c) data) s = .next t
           ∧ (if s.pushing then u.setDelivery .empty else u).told t "CHUNK_REJECTED")
       ∧ (d.bodyOk (c - 2 - d.manifestChunks) data = true → (d.store c data).hasAll 0 d.total = false →
         exec (.bundle path (4096 * c) data) s = .next (u.setDelivery (d.store c data))))
     ∧ (∀ i, s.fw.find .staged = some i →
       exec .bundleAbandon s = .next (({ s with fw := { s.fw.setSlot i ImgSlot.none with staging := .empty } } : State).actionDone 0x1800 6 0))
     ∧ (∀ i path, s.job.plan = none → s.fw.find .staged = some i →
       ∃ t, exec (.fwSwap path) s = .next t
         ∧ t.reset_ = { s.reset_ with pending := s.heldReset (if path = .field then rcFIELD_WARM else rcOD_WARM) .warm }
         ∧ (t.fw.slot i).st = .unconfirmed ∧ (∀ a, s.fw.active = some a → a % 2 ≠ i % 2 → (t.fw.slot a).st = .previous)
         ∧ t = { s with fw := t.fw, nv := t.nv, reset_ := t.reset_, actions := t.actions })
     ∧ (s.reset_.datum = false → s.fw.unconfirmed = true →
       ∃ t, exec .fwConfirm s = .next t ∧ (t.fw.slot s.fw.running).st = .confirmed ∧ t.fw.confirmRemaining = 0
         ∧ t.fw.rollback = max s.fw.rollback (s.fw.slot s.fw.running).rollback
         ∧ t.fw.revoked = s.fw.revoked ||| (s.fw.slot s.fw.running).revoke
         ∧ t = { s with fw := t.fw, actions := t.actions, nv := s.nv.begin s.micros s.reset_.pending.isSome s.nvImage })
     ∧ (s.confirming = true →
       ∃ t, exec .confirmExpiry s = .next t ∧ t.fw = s.fw.fallback
         ∧ t.reset_ = (if s.job.plan = none then { s.reset_ with pending := s.heldReset rcOD_COLD .cold } else s.reset_) ∧ t.log.seq = (s.log.seq + 1) % 2 ^ 32
         ∧ 25 * (s.fw.confirmAt + 1000000 * s.fw.confirmRemaining) ≤ t.aon ∧ t.job = s.job)
     ∧ (∀ n, s.confirming = true → (s.micros - s.fw.confirmAt) / 60000000 + 1 = n → 60 * n < s.fw.confirmRemaining →
       ∃ t, exec .confirmStore s = .next t ∧ t = { s with
             aon := t.aon, nv := s.nv.begin t.micros s.reset_.pending.isSome s.nvImage
             fw := { s.fw with confirmStored := s.fw.confirmRemaining - 60 * n } }
         ∧ 25 * (s.fw.confirmAt + 60000000 * n) ≤ t.aon))
  ∧ (∀ (s : State), s.quiet →
       (∀ nonce, nonce.length = 32 → s.fw.pendingReport = none →
         exec (.attest nonce) s
           = .next (({ s with fw := { s.fw with pendingReport := some (s.attestReport nonce) } } : State).actionStart 0x6000 5))
       ∧ (∀ r, s.fw.pendingReport = some r →
         ∃ t, exec .attestSigned s = .next t ∧ t.fw.report.take r.length = r ∧ t.fw.report.length = r.length + 7856
           ∧ t.fw.pendingReport = none ∧ t.fw.reportSeq = s.fw.reportSeq + 1 ∧ (t.action 0x6000 5).busy = false
           ∧ (t.action 0x6000 5).status = 0 ∧ t = { s with fw := t.fw, actions := t.actions }))

/-! ### Power delivery and monitors (R639 to R666, R675 to R681, R780) -/

/-- R641 to R644, R685, R692, R780: a feed takes the state that its voltage gives, with 0.5 V of hysteresis; it is disconnected over range, until
it has been in range for 100 ms, and while its contact is open. A feed that stops supplying is logged; one that supplies again is logged,
and is a power-on reset where the Cartouche had stopped. The bus fails when no feed supplies it: the wafer is off, and at the end of the
hold-up the Cartouche with its links, an NV pulse having completed. -/
def Obligations.FeedsChange : Prop :=
  ∀ (s : State) (f : Feed), s.quiet →
    (∀ mv, 45500 < mv → mv < 60500 → FeedState.after .inRange mv = .inRange)
    ∧ (∀ i x u,
      ((∃ mv, i = .feedStateChange f mv ∧ u = s ∧ x = { s.power.feed f with
          mv := mv, st := (s.power.feed f).st.after mv, opened := (s.power.feed f).opened || (s.power.feed f).st.after mv = .overRange
          since := if (s.power.feed f).st.after mv = (s.power.feed f).st then (s.power.feed f).since else s.micros })
        ∨ (i = .feedReconnect f ∧ (s.power.feed f).st = .inRange ∧ (s.power.feed f).opened = true
          ∧ u = { s with aon := max s.aon (25 * ((s.power.feed f).since + 100000)) } ∧ x = { s.power.feed f with opened := false })
        ∨ (i = .feedPresNRise f ∧ (s.power.feed f).pres = true ∧ u = s ∧ x = { s.power.feed f with pres := false })
        ∨ (i = .feedPresNFall f ∧ (s.power.feed f).pres = false ∧ u = s ∧ x = { s.power.feed f with pres := true })) →
      (x.supplies = (s.power.feed f).supplies → exec i s = .next { u with power := s.power.setFeed f x })
      ∧ (x.supplies = true → (s.power.feed f).supplies = false → s.power.cartouche = true →
        ∃ t, exec i s = .next t ∧ ({ u with power := { s.power.setFeed f x with busLow := false } } : State).told t "FEED_RESTORED")
      ∧ (x.supplies = true → (s.power.feed f).supplies = false → s.power.cartouche = false →
        exec i s = .next { u with
          power := { s.power.setFeed f x with busLow := false, cartouche := true }
          reset_ := { s.reset_ with pending := some (rcPOWER_ON, .cold) } })
      ∧ (x.supplies = false → (s.power.feed f).supplies = true → s.power.cartouche = true →
        ∃ t, exec i s = .next t ∧ ({ u with power := s.power.setFeed f x } : State).told t "FEED_LOST")
      ∧ (x.supplies = false → (s.power.feed f).supplies = true → s.power.cartouche = false →
        exec i s = .next { u with power := s.power.setFeed f x }))
    ∧ ((s.power.feed f).st ≠ .inRange ∨ (s.power.feed f).opened = false → exec (.feedReconnect f) s = .next s)
    ∧ ((s.power.feed f).pres = false → exec (.feedPresNRise f) s = .next s)
    ∧ ((s.power.feed f).pres = true → exec (.feedPresNFall f) s = .next s)
    ∧ (s.power.supplied = false → s.power.busLow = false → s.power.cartouche = true → s.noPeers →
      ∃ t, exec .powerFail s = .next t ∧ t.power = { s.power with railsUp := [], ties := [], drains := [], gov := [], busLow := true }
        ∧ t.cores = [] ∧ t.net.ifaces = [] ∧ t.flight = .reset ∧ (∀ k, (t.stack k).mem = []) ∧ t.fw = s.fw ∧ t.job = s.job
        ∧ t.reset_ = s.reset_)
    ∧ (s.power.busLow = true → s.power.supplied = false →
      exec .cartoucheHoldupEnd s = .next { s with power := { s.power with cartouche := false }, host := { s.host with linkUp := false }
                                                  fieldNet := { s.fieldNet with plcaUp := false }, nv := .idle })

/-- R632, R648 to R662: the first converter of a plane that fails is logged and the plane carries on; an output outside 3 % of its set point
and a phase that a regulator carries are logged; a logic regulator fails with its third phase; a failed logic regulator turns off, its core's drain begins and the core is a class B fault; a failed
stack regulator loses the stack's contents; a short isolates its regulator; after the drain of a fenced core both its regulators are off,
and the core is FENCED, by its batch's own legend change where that is still to come. -/
def Obligations.RegulatorsFail : Prop :=
  ∀ (s : State) (n : Nat), s.quiet →
    (n < 224 → n ∉ s.power.convFailed → (∀ c ∈ s.power.convFailed, c / 4 ≠ n / 4) →
      ∃ t, exec (.converterFailed n) s = .next t
        ∧ ({ s with power := { s.power with convFailed := s.power.convFailed ++ [n] } } : State).told t "CONVERTER_FAILED")
    ∧ (∀ mv, regExists n = true → regKind n ≠ 0 → s.railHeld n = false → exec (.railDeviation ⟨n, mv⟩) s = .next s)
    ∧ (∀ mv, regExists n = true → regKind n ≠ 0 → s.railHeld n = true →
      (∀ sp, s.railTarget n = some sp → withinThree mv sp = true → exec (.railDeviation ⟨n, mv⟩) s = .next s)
      ∧ ((s.railTarget n = none ∨ ∃ sp, s.railTarget n = some sp ∧ withinThree mv sp = false
          ∧ (lowOutput mv sp = false ∨ s.regRuns n = false)) →
        ∃ t, exec (.railDeviation ⟨n, mv⟩) s = .next t ∧ s.told t "RAIL_DEVIATION"))
    ∧ (∀ ok, n < numCores → s.regRuns (regId 1 n) = true → (s.reg (regId 1 n)).phasesFailed = 2 → s.job.batch.stage ≠ .reload →
      ∃ t, exec (.regPhaseFailed ⟨regId 1 n, ok⟩) s = .next t ∧ (t.reg (regId 1 n)).failed = true
        ∧ (t.reg (regId 1 n)).phasesFailed = 3 ∧ t.job.classB = satAdd32 s.job.classB 1 ∧ t.job.batch.faults = [.core n])
    ∧ (∀ ok, regExists n = true → regKind n ≠ 0 → s.regRuns n = true → (s.reg n).phasesFailed < regCarried (regKind n) →
      ∃ t, exec (.regPhaseFailed ⟨n, ok⟩) s = .next t ∧ t.reg n = { s.reg n with phasesFailed := (s.reg n).phasesFailed + 1 }
        ∧ (∀ m, m ≠ n → t.reg m = s.reg m) ∧ ({ s with power := { s.power with regs := t.power.regs } } : State).told t "REG_PHASE_FAILED")
    ∧ (n < numCores → s.regRuns (regId 1 n) = true → s.job.batch.stage ≠ .reload →
      ∃ t, exec (.regFailed (regId 1 n) true) s = .next t ∧ (t.reg (regId 1 n)).failed = true ∧ regId 1 n ∈ t.power.regsOff
        ∧ (t.core n).stopped = true ∧ t.job.classB = satAdd32 s.job.classB 1 ∧ t.job.batch.faults = [.core n]
        ∧ t.fabric.reload = .draining ∧ ((s.reg (regId 2 n)).failed = false → n ∈ t.power.drains))
    ∧ (n < numStacks → s.regRuns (regId 4 n) = true →
      ∃ t, exec (.regFailed (regId 4 n) true) s = .next t ∧ (t.reg (regId 4 n)).failed = true ∧ (t.stack n).mem = []
        ∧ (t.stack n).failed = true ∧ (∀ k, k ≠ n → (t.stack k).mem = (s.stack k).mem) ∧ t.job.classC = satAdd32 s.job.classC 1)
    ∧ (n < numStacks → (s.reg (regId 4 n)).isolated = false → regId 4 n ∉ s.power.regsOff → (s.reg (regId 4 n)).failed = true →
      ∃ t, exec (.regShort (regId 4 n) true) s = .next t ∧ t.reg (regId 4 n) = { s.reg (regId 4 n) with isolated := true }
        ∧ ({ s with power := { s.power with regs := t.power.regs } } : State).told t "REG_SHORT")
    ∧ (n < numCores → n ∈ s.power.drains →
      ∃ t, exec (.fencedCoreDrain n) s = .next t ∧ n ∉ t.power.drains ∧ n ∉ t.power.ties ∧ n ∈ t.power.drained
        ∧ regId 1 n ∈ t.power.regsOff ∧ regId 2 n ∈ t.power.regsOff ∧ t.core n = (s.core n).drainOut
        ∧ (∀ m, m ≠ n → t.core m = s.core m) ∧ t = { s with power := t.power, cores := t.cores, wafer := t.wafer }
        ∧ (if s.coreStateOf n = .fenced ∨ s.coreStateOf n = .defective ∨ s.faultWaits n = true then t.wafer = s.wafer
          else t.coreStateOf n = .fenced ∧ t.wafer.legendEpoch = (s.wafer.legendEpoch + 1) % 2 ^ 32))

/-- R663 to R666: a turn-on waits at the governor of its sheet; it is admitted when the measured current leaves room for its budget, after
TURN_ON_WAIT it begins at half slew, and at the end of its ramp, as long as its slew makes it, its rail is on. -/
def Obligations.TurnOnsAreAdmitted : Prop :=
  ∀ (s : State) (sheet : Nat) (x : TurnOn) (rest : List TurnOn), s.quiet → sheet < numSheets →
    (∀ r, regExists r = true → regSheet r = sheet → turnOnBudget (regKind r) ≠ 0 → (s.reg r).failed = false →
      (∀ t ∈ (s.governor sheet).waiting ++ (s.governor sheet).ramping, t.reg ≠ r) →
      ∃ t, exec (.turnOnRequest r) s = .next t ∧ t.governor sheet = { s.governor sheet with
          waiting := (s.governor sheet).waiting ++ [{ reg := r, budget := turnOnBudget (regKind r), since := s.micros, began := 0, half := false }] }
        ∧ (∀ k, k ≠ sheet → t.governor k = s.governor k) ∧ t = { s with power := { s.power with gov := t.power.gov } })
    ∧ (∀ present, (s.governor sheet).waiting = x :: rest →
      ∃ t, exec (.turnOnAdmitted sheet present) s = .next t ∧ t = { s with power := { s.power with gov := t.power.gov } }
        ∧ (t.governor sheet).present = present
        ∧ (if GovSt.room { s.governor sheet with present := present } s.power.sheetLimit x.budget = true
            then (t.governor sheet).waiting = rest
              ∧ (t.governor sheet).ramping = (s.governor sheet).ramping ++ [{ x with began := s.micros, half := false }]
            else (t.governor sheet).waiting = x :: rest ∧ (t.governor sheet).ramping = (s.governor sheet).ramping))
    ∧ ((s.governor sheet).waiting = x :: rest →
      ∃ t, exec (.turnOnWait sheet) s = .next t ∧ (t.governor sheet).waiting = rest
        ∧ (t.governor sheet).ramping = (s.governor sheet).ramping ++ [{ x with began := t.micros, half := true }]
        ∧ (t.governor sheet).halfSlew = satAdd32 (s.governor sheet).halfSlew 1 ∧ 25 * (x.since + 1000 * s.power.turnOnWait) ≤ t.aon
        ∧ t = { s with power := { s.power with gov := t.power.gov }, gaz := { s.gaz with blocks := t.gaz.blocks }, aon := t.aon })
    ∧ (∀ r y, regExists r = true → regSheet r = sheet → (s.governor sheet).ramping.find? (fun z => z.reg = r) = some y →
      ∃ t, exec (.turnOnRampComplete r) s = .next t ∧ (∀ y ∈ (t.governor sheet).ramping, y.reg ≠ r) ∧ r ∉ t.power.regsOff
        ∧ (t.governor sheet).waiting = (s.governor sheet).waiting
        ∧ 25 * (y.began + rampTime s.power.turnOnSlew y.half y.budget) ≤ t.aon
        ∧ t = { s with power := { s.power with gov := t.power.gov, regsOff := t.power.regsOff }, aon := t.aon })

/-- R675 to R681: a sample comes 100 µs after the last one and stores the readings of powered sheets and the coolant's. One of 125 °C at a
sensor that has not failed turns the wafer off and asks for reset source THERMAL_TRIP; a core at 110 °C is fenced as a class B fault; without
one of 100 °C or more nothing changes but readings, failed sensors and the log. A droop excursion of a core whose logic rail is on is
counted. -/
def Obligations.SamplesAreJudged : Prop :=
  ∀ (s : State), s.quiet →
    (∀ r, ∃ t, exec (.sensorSample r) s = .next t
      ∧ ((∃ x ∈ s.readings r, x.1 ∉ t.power.failedSensors ∧ atLeast 125 x.2 = true) → s.noPeers →
        t.power.railsUp = [] ∧ t.cores = [] ∧ (∀ k, (t.stack k).mem = []) ∧ t.power.inlet = r.inlet ∧ t.power.outlet = r.outlet
          ∧ t.reset_ = { s.reset_ with tripped := true, pending := s.heldReset rcTHERMAL_TRIP .cold })
      ∧ ((∀ x ∈ s.readings r, atLeast 100 x.2 = false ∧ atLeast 110 x.2 = false ∧ atLeast 125 x.2 = false) →
        t.aon = max s.aon (25 * (s.power.sampleAt + 100)) ∧ t.power.sampleAt = t.micros
          ∧ t.power.coreTemps = (s.coreReadings r).foldl (fun m x => Tab.set m x.1 x.2) s.power.coreTemps
          ∧ t.power.sheetTemps = (s.sheetReadings r).foldl (fun m x => Tab.set m x.1 x.2) s.power.sheetTemps
          ∧ t.power.inlet = r.inlet ∧ t.power.outlet = r.outlet ∧ t.power.thermalFences = s.power.thermalFences
          ∧ t = { s with power := t.power, aon := t.aon, log := t.log, host := t.host, fieldNet := t.fieldNet, out := t.out }))
    ∧ (∀ n v i o, n < numCores → s.sheetOn (sheetOf n) = true → n ∉ s.power.failedSensors → implausible v = false →
      atLeast 110 v = true → atLeast 125 v = false →
      s.coreStateOf n ≠ .fenced → s.coreStateOf n ≠ .defective → s.faultWaits n = false → s.job.batch.stage ≠ .reload →
      ∃ t, exec (.sensorSample { coreTemps := [(n, v)], sheetTemps := [], ringOsc := [], inlet := i, outlet := o }) s = .next t
        ∧ t.power.thermalFences = satAdd32 s.power.thermalFences 1 ∧ n ∈ t.power.hotFenced
        ∧ t.job.classB = satAdd32 s.job.classB 1 ∧ t.job.batch.faults = [.core n] ∧ t.fabric.reload = .draining)
    ∧ (∀ n, n < numCores →
      (s.railHeld (regId 1 n) = true →
        ∃ t, exec (.droopExcursion n) s = .next t
          ∧ t.power.droops = Tab.set s.power.droops n (satAdd32 (Tab.get 0 s.power.droops n) 1)
          ∧ t = { s with power := { s.power with droops := t.power.droops }, gaz := { s.gaz with blocks := t.gaz.blocks } })
      ∧ (s.railHeld (regId 1 n) = false → exec (.droopExcursion n) s = .next s))

/-! ### The queue, and what every step keeps -/

/-- A step takes the command at the front of the queue and runs it with the queue's rest; an idle step passes one always-on cycle and
changes nothing else (the model's choice: notes/assumptions/3.md). -/
def Obligations.StepRunsFront : Prop :=
  (∀ (s : State) (c : Instr) (rest : List Instr), step { s with pending := c :: rest } = exec c { s with pending := rest })
  ∧ ∀ (s : State), s.pending = [] → step s = .next { s with aon := s.aon + 1 }

/-- Every well-formed command answers a next state: the one stop is a command that names a place which the wafer does not have. -/
def Obligations.WellFormedCommandsRun : Prop :=
  ∀ (c : Instr) (s : State), (c.wf = true → ∃ t, exec c s = .next t) ∧ ∀ r, exec c s ≠ .refused r

/-- Every step keeps what the other statements assume: byte memories in canonical form, and nothing left over for job control. -/
def Obligations.StepsKeepStateSound : Prop :=
  ∀ (s t : State), s.memOk → s.quiet → step s = .next t → t.memOk ∧ t.quiet

/-- The state after reset is sound, and its values are those that the spec gives: no plan and JOB_STATE STARTING, SEQ 0, the queue
empty, no core released, RESET_CAUSE POWER_ON with release step 1 next. -/
def Obligations.ResetIsSound : Prop :=
  State.reset.memOk ∧ State.reset.quiet ∧ State.reset.pending = [] ∧ State.reset.job.plan = none ∧ State.reset.job.jobState = 0
    ∧ State.reset.log.seq = 0 ∧ State.reset.reset_.cause = 0x01 ∧ State.reset.reset_.ready = false
    ∧ ∀ n q, ((State.reset.core n).queue q).st = .idle
end

