-- ==== Sys2Proof/Laws/Tab.lean ====
section
/-!
SUPPORT. Laws of sparse tables and byte memories: read after write, and the canonical form of a memory is kept.
-/

namespace Sys2Proof.Machine

/-! ### Tables -/

@[simp] theorem Tab.get_nil {α : Type} (d : α) (k : Nat) : Tab.get d [] k = d := rfl
@[simp] theorem Tab.find_nil {α : Type} (k : Nat) : Tab.find ([] : Tab α) k = none := rfl

@[simp] theorem Tab.get_set_self {α : Type} (d v : α) (t : Tab α) (k : Nat) : Tab.get d (Tab.set t k v) k = v := by
  induction t with
  | nil => simp [Tab.set, Tab.get]
  | cons p t ih =>
    obtain ⟨k', v'⟩ := p
    unfold Tab.set
    split
    · simp [Tab.get]
    · split
      · simp [Tab.get]
      · rename_i h1 h2
        simp [Tab.get, h1, h2, ih]

theorem Tab.get_set_other {α : Type} (d v : α) (t : Tab α) {k m : Nat} (h : m ≠ k) :
    Tab.get d (Tab.set t k v) m = Tab.get d t m := by
  induction t with
  | nil => simp [Tab.set, Tab.get, h]
  | cons p t ih =>
    obtain ⟨k', v'⟩ := p
    unfold Tab.set
    split
    · subst_vars; simp [Tab.get, h]
    · split
      · simp only [Tab.get, if_neg h]
        split
        · rw [if_neg (by omega), if_pos (by omega)]
        · rfl
      · simp only [Tab.get, ih]

@[simp] theorem Tab.get_upd_self {α : Type} (d : α) (t : Tab α) (k : Nat) (f : α → α) :
    Tab.get d (Tab.upd d t k f) k = f (Tab.get d t k) := by simp [Tab.upd]

theorem Tab.get_upd_other {α : Type} (d : α) (t : Tab α) {k m : Nat} (f : α → α) (h : m ≠ k) :
    Tab.get d (Tab.upd d t k f) m = Tab.get d t m := by simp [Tab.upd, Tab.get_set_other _ _ _ h]

/-- A table keeps what holds of every value when a value is set of which it holds. -/
theorem Tab.forall_set {α : Type} {P : α → Prop} {t : Tab α} {k : Nat} {v : α} (h : ∀ p ∈ t, P p.2) (hv : P v) :
    ∀ p ∈ Tab.set t k v, P p.2 := by
  induction t with
  | nil => simpa [Tab.set] using hv
  | cons p t ih =>
    obtain ⟨k', v'⟩ := p
    simp only [List.forall_mem_cons] at h
    unfold Tab.set
    split
    · exact List.forall_mem_cons.2 ⟨hv, h.2⟩
    · split
      · exact List.forall_mem_cons.2 ⟨hv, List.forall_mem_cons.2 ⟨h.1, h.2⟩⟩
      · exact List.forall_mem_cons.2 ⟨h.1, ih h.2⟩

/-- What holds of every value of a table and of its default holds of every value it reads. -/
theorem Tab.get_of_forall {α : Type} {P : α → Prop} {d : α} {t : Tab α} (h : ∀ p ∈ t, P p.2) (hd : P d) (k : Nat) :
    P (Tab.get d t k) := by
  induction t with
  | nil => simpa using hd
  | cons p t ih =>
    obtain ⟨k', v'⟩ := p
    simp only [List.forall_mem_cons] at h
    unfold Tab.get
    split
    · exact h.1
    · split
      · exact hd
      · exact ih h.2

/-! ### Canonical memories -/

/-- Every address of a memory lies above a bound. -/
def Memory.above (m : Memory) (b : Nat) : Prop := ∀ p ∈ m, b < p.1

theorem Memory.wf_cons {a : Nat} {v : Byte} {m : Memory} :
    Memory.wf ((a, v) :: m) = true ↔ v ≠ Memory.blank ∧ Memory.above m a ∧ Memory.wf m = true := by
  induction m generalizing a v with
  | nil => simp [Memory.wf, Memory.above]
  | cons p m ih =>
    obtain ⟨b, w⟩ := p
    have h1 : Memory.wf ((a, v) :: (b, w) :: m) = (v != Memory.blank && decide (a < b) && Memory.wf ((b, w) :: m)) := rfl
    rw [h1]
    simp only [Bool.and_eq_true, decide_eq_true_eq, bne_iff_ne, ne_eq, ih, Memory.above, List.forall_mem_cons]
    constructor
    · rintro ⟨⟨hv, hab⟩, hw, hb, hm⟩
      exact ⟨hv, ⟨hab, fun p hp => Nat.lt_trans hab (hb p hp)⟩, hw, hb, hm⟩
    · rintro ⟨hv, ⟨hab, _⟩, hw, hb, hm⟩
      exact ⟨⟨hv, hab⟩, hw, hb, hm⟩

theorem Memory.above_set {m : Memory} {b a : Nat} {v : Byte} (h : Memory.above m b) (ha : b < a) : Memory.above (Tab.set m a v) b := by
  induction m with
  | nil => simpa [Tab.set, Memory.above] using ha
  | cons p m ih =>
    obtain ⟨k, w⟩ := p
    simp only [Memory.above, List.forall_mem_cons] at h
    unfold Tab.set
    split
    · exact List.forall_mem_cons.2 ⟨ha, h.2⟩
    · split
      · exact List.forall_mem_cons.2 ⟨ha, List.forall_mem_cons.2 ⟨h.1, h.2⟩⟩
      · have := ih h.2
        exact List.forall_mem_cons.2 ⟨h.1, this⟩

theorem Memory.above_erase {m : Memory} {b a : Nat} (h : Memory.above m b) : Memory.above (Tab.erase m a) b := by
  induction m with
  | nil => simp [Tab.erase, Memory.above]
  | cons p m ih =>
    obtain ⟨k, w⟩ := p
    simp only [Memory.above, List.forall_mem_cons] at h
    unfold Tab.erase
    split
    · exact h.2
    · split
      · exact List.forall_mem_cons.2 h
      · have := ih h.2
        exact List.forall_mem_cons.2 ⟨h.1, this⟩

theorem Memory.wf_set {m : Memory} (h : Memory.wf m = true) (a : Nat) {v : Byte} (hv : v ≠ Memory.blank) :
    Memory.wf (Tab.set m a v) = true := by
  induction m with
  | nil => simpa [Tab.set, Memory.wf] using hv
  | cons p m ih =>
    obtain ⟨k, w⟩ := p
    rw [Memory.wf_cons] at h
    obtain ⟨hw, hk, hm⟩ := h
    unfold Tab.set
    split
    · subst_vars; exact Memory.wf_cons.2 ⟨hv, hk, hm⟩
    · split
      · rename_i h1
        refine Memory.wf_cons.2 ⟨hv, ?_, Memory.wf_cons.2 ⟨hw, hk, hm⟩⟩
        simp only [Memory.above, List.forall_mem_cons]
        exact ⟨h1, fun p hp => Nat.lt_trans h1 (hk p hp)⟩
      · exact Memory.wf_cons.2 ⟨hw, Memory.above_set hk (by omega), ih hm⟩

theorem Memory.wf_erase {m : Memory} (h : Memory.wf m = true) (a : Nat) : Memory.wf (Tab.erase m a) = true := by
  induction m with
  | nil => rfl
  | cons p m ih =>
    obtain ⟨k, w⟩ := p
    have h' := h
    rw [Memory.wf_cons] at h
    obtain ⟨hw, hk, hm⟩ := h
    unfold Tab.erase
    split
    · exact hm
    · split
      · exact h'
      · exact Memory.wf_cons.2 ⟨hw, Memory.above_erase hk, ih hm⟩

/-- A write keeps the canonical form. -/
@[simp] theorem Memory.wf_write {m : Memory} (h : Memory.wf m = true) (a : Nat) (v : Byte) : Memory.wf (Memory.write m a v) = true := by
  unfold Memory.write
  split
  · exact Memory.wf_erase h a
  · exact Memory.wf_set h a ‹_›

/-- A write of bytes keeps the canonical form. -/
@[simp] theorem Memory.wf_writeN {m : Memory} (h : Memory.wf m = true) (a : Nat) (l : List Byte) :
    Memory.wf (Memory.writeN m a l) = true := by
  induction l generalizing m a with
  | nil => exact h
  | cons b l ih => exact ih (Memory.wf_write h a b) _

@[simp] theorem Memory.wf_nil : Memory.wf [] = true := rfl

/-! ### Read after write -/

theorem Memory.read_above {m : Memory} {a b : Nat} (h : Memory.above m b) (hab : a ≤ b) : Memory.read m a = Memory.blank := by
  induction m with
  | nil => rfl
  | cons p m ih =>
    obtain ⟨k, w⟩ := p
    simp only [Memory.above, List.forall_mem_cons] at h
    have h1 : a ≠ k := by have := h.1; omega
    have h2 : a < k := by have := h.1; omega
    simp [Memory.read, Tab.get, h1, h2]

theorem Memory.read_erase_self {m : Memory} (h : Memory.wf m = true) (a : Nat) : Memory.read (Tab.erase m a) a = Memory.blank := by
  induction m with
  | nil => rfl
  | cons p m ih =>
    obtain ⟨k, w⟩ := p
    rw [Memory.wf_cons] at h
    obtain ⟨_, hk, hm⟩ := h
    unfold Tab.erase
    split
    · rename_i h1; subst h1; exact Memory.read_above hk (Nat.le_refl _)
    · rename_i h1
      split
      · rename_i h2; simp [Memory.read, Tab.get, h1, h2]
      · rename_i h2
        have := ih hm
        simpa [Memory.read, Tab.get, h1, h2] using this

theorem Memory.read_erase_other {m : Memory} (h : Memory.wf m = true) {a b : Nat} (hab : b ≠ a) :
    Memory.read (Tab.erase m a) b = Memory.read m b := by
  induction m with
  | nil => rfl
  | cons p m ih =>
    obtain ⟨k, w⟩ := p
    rw [Memory.wf_cons] at h
    obtain ⟨_, hk, hm⟩ := h
    unfold Tab.erase
    split
    · rename_i h1; subst h1
      simp only [Memory.read, Tab.get, if_neg hab]
      split
      · rename_i h2; exact Memory.read_above hk (Nat.le_of_lt h2)
      · rfl
    · split
      · rfl
      · have := ih hm
        simp only [Memory.read, Tab.get] at this ⊢
        rw [this]

/-- A byte reads as it was last written. -/
theorem Memory.read_write_self {m : Memory} (h : Memory.wf m = true) (a : Nat) (v : Byte) : Memory.read (Memory.write m a v) a = v := by
  unfold Memory.write
  split
  · rename_i h1; rw [h1]; exact Memory.read_erase_self h a
  · exact Tab.get_set_self _ _ _ _

/-- A write leaves every other byte alone. -/
theorem Memory.read_write_other {m : Memory} (h : Memory.wf m = true) {a b : Nat} (hab : b ≠ a) (v : Byte) :
    Memory.read (Memory.write m a v) b = Memory.read m b := by
  unfold Memory.write
  split
  · exact Memory.read_erase_other h hab
  · exact Tab.get_set_other _ _ _ hab

/-- Bytes outside those written read as before. -/
theorem Memory.read_writeN_outside {m : Memory} (h : Memory.wf m = true) {a b : Nat} (l : List Byte) (hb : b < a ∨ a + l.length ≤ b) :
    Memory.read (Memory.writeN m a l) b = Memory.read m b := by
  induction l generalizing m a with
  | nil => rfl
  | cons x l ih =>
    simp only [List.length_cons] at hb
    rw [Memory.writeN, ih (Memory.wf_write h a x) (by omega), Memory.read_write_other h (by omega)]

/-- Bytes read back as they were written. -/
theorem Memory.readN_writeN {m : Memory} (h : Memory.wf m = true) (a : Nat) (l : List Byte) :
    Memory.readN (Memory.writeN m a l) a l.length = l := by
  induction l generalizing m a with
  | nil => rfl
  | cons x l ih =>
    simp only [List.length_cons, Memory.readN, Memory.writeN]
    rw [ih (Memory.wf_write h a x), Memory.read_writeN_outside (Memory.wf_write h a x) l (by omega), Memory.read_write_self h]

/-- Bytes outside those written read back as before. -/
theorem Memory.readN_writeN_outside {m : Memory} (h : Memory.wf m = true) {a b n : Nat} (l : List Byte) (hb : b + n ≤ a ∨ a + l.length ≤ b) :
    Memory.readN (Memory.writeN m a l) b n = Memory.readN m b n := by
  induction n generalizing b with
  | zero => rfl
  | succ n ih =>
    simp only [Memory.readN]
    rw [ih (by omega), Memory.read_writeN_outside h l (by omega)]

/-! ### Byte strings -/

@[simp] theorem leBytes_length (v n : Nat) : (leBytes v n).length = n := by
  induction n generalizing v with
  | zero => rfl
  | succ n ih => simp [leBytes, ih]

@[simp] theorem beBytes_length (v n : Nat) : (beBytes v n).length = n := by simp [beBytes]
@[simp] theorem zeros_length (n : Nat) : (zeros n).length = n := by simp [zeros]

/-- A little-endian field reads back the number it was written from (R10). -/
theorem leNat_leBytes (v n : Nat) : leNat (leBytes v n) = v % 256 ^ n := by
  induction n generalizing v with
  | zero => simp [leBytes, leNat, Nat.mod_one]
  | succ n ih =>
    simp only [leBytes, leNat, ih, BitVec.toNat_ofNat]
    rw [show (2 : Nat) ^ 8 = 256 from rfl, Nat.pow_succ, Nat.mul_comm (256 ^ n) 256, Nat.mod_mul]

@[simp] theorem upFrom_length (a n : Nat) : (upFrom a n).length = n := by
  induction n generalizing a with
  | zero => rfl
  | succ n ih => simp [upFrom, ih]

theorem mem_upFrom {a n x : Nat} : x ∈ upFrom a n ↔ a ≤ x ∧ x < a + n := by
  induction n generalizing a with
  | zero => simp [upFrom]
  | succ n ih => simp only [upFrom, List.mem_cons, ih]; omega

end Sys2Proof.Machine
end

