-- ==== Sys2Proof/Laws/State.lean ====
section
/-!
SUPPORT. One lemma per field and update: what an update of the state leaves alone, and what it writes.
-/

namespace Sys2Proof.Machine

variable (s : State)

/-! ### setCore -/

@[simp] theorem State.setCore_wafer (n : Nat) (c : CoreSt) : (s.setCore n c).wafer = s.wafer := rfl
@[simp] theorem State.setCore_flight (n : Nat) (c : CoreSt) : (s.setCore n c).flight = s.flight := rfl
@[simp] theorem State.setCore_fabric (n : Nat) (c : CoreSt) : (s.setCore n c).fabric = s.fabric := rfl
@[simp] theorem State.setCore_hbm (n : Nat) (c : CoreSt) : (s.setCore n c).hbm = s.hbm := rfl
@[simp] theorem State.setCore_job (n : Nat) (c : CoreSt) : (s.setCore n c).job = s.job := rfl
@[simp] theorem State.setCore_halyard (n : Nat) (c : CoreSt) : (s.setCore n c).halyard = s.halyard := rfl
@[simp] theorem State.setCore_plotter (n : Nat) (c : CoreSt) : (s.setCore n c).plotter = s.plotter := rfl
@[simp] theorem State.setCore_fmt (n : Nat) (c : CoreSt) : (s.setCore n c).fmt = s.fmt := rfl
@[simp] theorem State.setCore_net (n : Nat) (c : CoreSt) : (s.setCore n c).net = s.net := rfl
@[simp] theorem State.setCore_host (n : Nat) (c : CoreSt) : (s.setCore n c).host = s.host := rfl
@[simp] theorem State.setCore_fieldNet (n : Nat) (c : CoreSt) : (s.setCore n c).fieldNet = s.fieldNet := rfl
@[simp] theorem State.setCore_actions (n : Nat) (c : CoreSt) : (s.setCore n c).actions = s.actions := rfl
@[simp] theorem State.setCore_power (n : Nat) (c : CoreSt) : (s.setCore n c).power = s.power := rfl
@[simp] theorem State.setCore_reset (n : Nat) (c : CoreSt) : (s.setCore n c).reset_ = s.reset_ := rfl
@[simp] theorem State.setCore_fw (n : Nat) (c : CoreSt) : (s.setCore n c).fw = s.fw := rfl
@[simp] theorem State.setCore_gaz (n : Nat) (c : CoreSt) : (s.setCore n c).gaz = s.gaz := rfl
@[simp] theorem State.setCore_log (n : Nat) (c : CoreSt) : (s.setCore n c).log = s.log := rfl
@[simp] theorem State.setCore_nv (n : Nat) (c : CoreSt) : (s.setCore n c).nv = s.nv := rfl
@[simp] theorem State.setCore_aon (n : Nat) (c : CoreSt) : (s.setCore n c).aon = s.aon := rfl
@[simp] theorem State.setCore_freshCount (n : Nat) (c : CoreSt) : (s.setCore n c).freshCount = s.freshCount := rfl
@[simp] theorem State.setCore_out (n : Nat) (c : CoreSt) : (s.setCore n c).out = s.out := rfl
@[simp] theorem State.setCore_pending (n : Nat) (c : CoreSt) : (s.setCore n c).pending = s.pending := rfl

/-! ### updCore -/

@[simp] theorem State.updCore_wafer (n : Nat) (f : CoreSt → CoreSt) : (s.updCore n f).wafer = s.wafer := rfl
@[simp] theorem State.updCore_flight (n : Nat) (f : CoreSt → CoreSt) : (s.updCore n f).flight = s.flight := rfl
@[simp] theorem State.updCore_fabric (n : Nat) (f : CoreSt → CoreSt) : (s.updCore n f).fabric = s.fabric := rfl
@[simp] theorem State.updCore_hbm (n : Nat) (f : CoreSt → CoreSt) : (s.updCore n f).hbm = s.hbm := rfl
@[simp] theorem State.updCore_job (n : Nat) (f : CoreSt → CoreSt) : (s.updCore n f).job = s.job := rfl
@[simp] theorem State.updCore_halyard (n : Nat) (f : CoreSt → CoreSt) : (s.updCore n f).halyard = s.halyard := rfl
@[simp] theorem State.updCore_plotter (n : Nat) (f : CoreSt → CoreSt) : (s.updCore n f).plotter = s.plotter := rfl
@[simp] theorem State.updCore_fmt (n : Nat) (f : CoreSt → CoreSt) : (s.updCore n f).fmt = s.fmt := rfl
@[simp] theorem State.updCore_net (n : Nat) (f : CoreSt → CoreSt) : (s.updCore n f).net = s.net := rfl
@[simp] theorem State.updCore_host (n : Nat) (f : CoreSt → CoreSt) : (s.updCore n f).host = s.host := rfl
@[simp] theorem State.updCore_fieldNet (n : Nat) (f : CoreSt → CoreSt) : (s.updCore n f).fieldNet = s.fieldNet := rfl
@[simp] theorem State.updCore_actions (n : Nat) (f : CoreSt → CoreSt) : (s.updCore n f).actions = s.actions := rfl
@[simp] theorem State.updCore_power (n : Nat) (f : CoreSt → CoreSt) : (s.updCore n f).power = s.power := rfl
@[simp] theorem State.updCore_reset (n : Nat) (f : CoreSt → CoreSt) : (s.updCore n f).reset_ = s.reset_ := rfl
@[simp] theorem State.updCore_fw (n : Nat) (f : CoreSt → CoreSt) : (s.updCore n f).fw = s.fw := rfl
@[simp] theorem State.updCore_gaz (n : Nat) (f : CoreSt → CoreSt) : (s.updCore n f).gaz = s.gaz := rfl
@[simp] theorem State.updCore_log (n : Nat) (f : CoreSt → CoreSt) : (s.updCore n f).log = s.log := rfl
@[simp] theorem State.updCore_nv (n : Nat) (f : CoreSt → CoreSt) : (s.updCore n f).nv = s.nv := rfl
@[simp] theorem State.updCore_aon (n : Nat) (f : CoreSt → CoreSt) : (s.updCore n f).aon = s.aon := rfl
@[simp] theorem State.updCore_freshCount (n : Nat) (f : CoreSt → CoreSt) : (s.updCore n f).freshCount = s.freshCount := rfl
@[simp] theorem State.updCore_out (n : Nat) (f : CoreSt → CoreSt) : (s.updCore n f).out = s.out := rfl
@[simp] theorem State.updCore_pending (n : Nat) (f : CoreSt → CoreSt) : (s.updCore n f).pending = s.pending := rfl

/-! ### setStack -/

@[simp] theorem State.setStack_wafer (k : Nat) (x : StackSt) : (s.setStack k x).wafer = s.wafer := rfl
@[simp] theorem State.setStack_cores (k : Nat) (x : StackSt) : (s.setStack k x).cores = s.cores := rfl
@[simp] theorem State.setStack_flight (k : Nat) (x : StackSt) : (s.setStack k x).flight = s.flight := rfl
@[simp] theorem State.setStack_fabric (k : Nat) (x : StackSt) : (s.setStack k x).fabric = s.fabric := rfl
@[simp] theorem State.setStack_job (k : Nat) (x : StackSt) : (s.setStack k x).job = s.job := rfl
@[simp] theorem State.setStack_halyard (k : Nat) (x : StackSt) : (s.setStack k x).halyard = s.halyard := rfl
@[simp] theorem State.setStack_plotter (k : Nat) (x : StackSt) : (s.setStack k x).plotter = s.plotter := rfl
@[simp] theorem State.setStack_fmt (k : Nat) (x : StackSt) : (s.setStack k x).fmt = s.fmt := rfl
@[simp] theorem State.setStack_net (k : Nat) (x : StackSt) : (s.setStack k x).net = s.net := rfl
@[simp] theorem State.setStack_host (k : Nat) (x : StackSt) : (s.setStack k x).host = s.host := rfl
@[simp] theorem State.setStack_fieldNet (k : Nat) (x : StackSt) : (s.setStack k x).fieldNet = s.fieldNet := rfl
@[simp] theorem State.setStack_actions (k : Nat) (x : StackSt) : (s.setStack k x).actions = s.actions := rfl
@[simp] theorem State.setStack_power (k : Nat) (x : StackSt) : (s.setStack k x).power = s.power := rfl
@[simp] theorem State.setStack_reset (k : Nat) (x : StackSt) : (s.setStack k x).reset_ = s.reset_ := rfl
@[simp] theorem State.setStack_fw (k : Nat) (x : StackSt) : (s.setStack k x).fw = s.fw := rfl
@[simp] theorem State.setStack_gaz (k : Nat) (x : StackSt) : (s.setStack k x).gaz = s.gaz := rfl
@[simp] theorem State.setStack_log (k : Nat) (x : StackSt) : (s.setStack k x).log = s.log := rfl
@[simp] theorem State.setStack_nv (k : Nat) (x : StackSt) : (s.setStack k x).nv = s.nv := rfl
@[simp] theorem State.setStack_aon (k : Nat) (x : StackSt) : (s.setStack k x).aon = s.aon := rfl
@[simp] theorem State.setStack_freshCount (k : Nat) (x : StackSt) : (s.setStack k x).freshCount = s.freshCount := rfl
@[simp] theorem State.setStack_out (k : Nat) (x : StackSt) : (s.setStack k x).out = s.out := rfl
@[simp] theorem State.setStack_pending (k : Nat) (x : StackSt) : (s.setStack k x).pending = s.pending := rfl

/-! ### updStack -/

@[simp] theorem State.updStack_wafer (k : Nat) (f : StackSt → StackSt) : (s.updStack k f).wafer = s.wafer := rfl
@[simp] theorem State.updStack_cores (k : Nat) (f : StackSt → StackSt) : (s.updStack k f).cores = s.cores := rfl
@[simp] theorem State.updStack_flight (k : Nat) (f : StackSt → StackSt) : (s.updStack k f).flight = s.flight := rfl
@[simp] theorem State.updStack_fabric (k : Nat) (f : StackSt → StackSt) : (s.updStack k f).fabric = s.fabric := rfl
@[simp] theorem State.updStack_job (k : Nat) (f : StackSt → StackSt) : (s.updStack k f).job = s.job := rfl
@[simp] theorem State.updStack_halyard (k : Nat) (f : StackSt → StackSt) : (s.updStack k f).halyard = s.halyard := rfl
@[simp] theorem State.updStack_plotter (k : Nat) (f : StackSt → StackSt) : (s.updStack k f).plotter = s.plotter := rfl
@[simp] theorem State.updStack_fmt (k : Nat) (f : StackSt → StackSt) : (s.updStack k f).fmt = s.fmt := rfl
@[simp] theorem State.updStack_net (k : Nat) (f : StackSt → StackSt) : (s.updStack k f).net = s.net := rfl
@[simp] theorem State.updStack_host (k : Nat) (f : StackSt → StackSt) : (s.updStack k f).host = s.host := rfl
@[simp] theorem State.updStack_fieldNet (k : Nat) (f : StackSt → StackSt) : (s.updStack k f).fieldNet = s.fieldNet := rfl
@[simp] theorem State.updStack_actions (k : Nat) (f : StackSt → StackSt) : (s.updStack k f).actions = s.actions := rfl
@[simp] theorem State.updStack_power (k : Nat) (f : StackSt → StackSt) : (s.updStack k f).power = s.power := rfl
@[simp] theorem State.updStack_reset (k : Nat) (f : StackSt → StackSt) : (s.updStack k f).reset_ = s.reset_ := rfl
@[simp] theorem State.updStack_fw (k : Nat) (f : StackSt → StackSt) : (s.updStack k f).fw = s.fw := rfl
@[simp] theorem State.updStack_gaz (k : Nat) (f : StackSt → StackSt) : (s.updStack k f).gaz = s.gaz := rfl
@[simp] theorem State.updStack_log (k : Nat) (f : StackSt → StackSt) : (s.updStack k f).log = s.log := rfl
@[simp] theorem State.updStack_nv (k : Nat) (f : StackSt → StackSt) : (s.updStack k f).nv = s.nv := rfl
@[simp] theorem State.updStack_aon (k : Nat) (f : StackSt → StackSt) : (s.updStack k f).aon = s.aon := rfl
@[simp] theorem State.updStack_freshCount (k : Nat) (f : StackSt → StackSt) : (s.updStack k f).freshCount = s.freshCount := rfl
@[simp] theorem State.updStack_out (k : Nat) (f : StackSt → StackSt) : (s.updStack k f).out = s.out := rfl
@[simp] theorem State.updStack_pending (k : Nat) (f : StackSt → StackSt) : (s.updStack k f).pending = s.pending := rfl

/-! ### writeStack -/

@[simp] theorem State.writeStack_wafer (k a : Nat) (l : List Byte) (who : Consumer) : (s.writeStack k a l who).wafer = s.wafer := rfl
@[simp] theorem State.writeStack_cores (k a : Nat) (l : List Byte) (who : Consumer) : (s.writeStack k a l who).cores = s.cores := rfl
@[simp] theorem State.writeStack_flight (k a : Nat) (l : List Byte) (who : Consumer) : (s.writeStack k a l who).flight = s.flight := rfl
@[simp] theorem State.writeStack_fabric (k a : Nat) (l : List Byte) (who : Consumer) : (s.writeStack k a l who).fabric = s.fabric := rfl
@[simp] theorem State.writeStack_job (k a : Nat) (l : List Byte) (who : Consumer) : (s.writeStack k a l who).job = s.job := rfl
@[simp] theorem State.writeStack_halyard (k a : Nat) (l : List Byte) (who : Consumer) : (s.writeStack k a l who).halyard = s.halyard := rfl
@[simp] theorem State.writeStack_plotter (k a : Nat) (l : List Byte) (who : Consumer) : (s.writeStack k a l who).plotter = s.plotter := rfl
@[simp] theorem State.writeStack_fmt (k a : Nat) (l : List Byte) (who : Consumer) : (s.writeStack k a l who).fmt = s.fmt := rfl
@[simp] theorem State.writeStack_net (k a : Nat) (l : List Byte) (who : Consumer) : (s.writeStack k a l who).net = s.net := rfl
@[simp] theorem State.writeStack_host (k a : Nat) (l : List Byte) (who : Consumer) : (s.writeStack k a l who).host = s.host := rfl
@[simp] theorem State.writeStack_fieldNet (k a : Nat) (l : List Byte) (who : Consumer) : (s.writeStack k a l who).fieldNet = s.fieldNet := rfl
@[simp] theorem State.writeStack_actions (k a : Nat) (l : List Byte) (who : Consumer) : (s.writeStack k a l who).actions = s.actions := rfl
@[simp] theorem State.writeStack_power (k a : Nat) (l : List Byte) (who : Consumer) : (s.writeStack k a l who).power = s.power := rfl
@[simp] theorem State.writeStack_reset (k a : Nat) (l : List Byte) (who : Consumer) : (s.writeStack k a l who).reset_ = s.reset_ := rfl
@[simp] theorem State.writeStack_fw (k a : Nat) (l : List Byte) (who : Consumer) : (s.writeStack k a l who).fw = s.fw := rfl
@[simp] theorem State.writeStack_gaz (k a : Nat) (l : List Byte) (who : Consumer) : (s.writeStack k a l who).gaz = s.gaz := rfl
@[simp] theorem State.writeStack_log (k a : Nat) (l : List Byte) (who : Consumer) : (s.writeStack k a l who).log = s.log := rfl
@[simp] theorem State.writeStack_nv (k a : Nat) (l : List Byte) (who : Consumer) : (s.writeStack k a l who).nv = s.nv := rfl
@[simp] theorem State.writeStack_aon (k a : Nat) (l : List Byte) (who : Consumer) : (s.writeStack k a l who).aon = s.aon := rfl
@[simp] theorem State.writeStack_freshCount (k a : Nat) (l : List Byte) (who : Consumer) : (s.writeStack k a l who).freshCount = s.freshCount := rfl
@[simp] theorem State.writeStack_out (k a : Nat) (l : List Byte) (who : Consumer) : (s.writeStack k a l who).out = s.out := rfl
@[simp] theorem State.writeStack_pending (k a : Nat) (l : List Byte) (who : Consumer) : (s.writeStack k a l who).pending = s.pending := rfl

/-! ### setCoreState -/

@[simp] theorem State.setCoreState_cores (n : Nat) (x : CoreState) : (s.setCoreState n x).cores = s.cores := rfl
@[simp] theorem State.setCoreState_flight (n : Nat) (x : CoreState) : (s.setCoreState n x).flight = s.flight := rfl
@[simp] theorem State.setCoreState_fabric (n : Nat) (x : CoreState) : (s.setCoreState n x).fabric = s.fabric := rfl
@[simp] theorem State.setCoreState_hbm (n : Nat) (x : CoreState) : (s.setCoreState n x).hbm = s.hbm := rfl
@[simp] theorem State.setCoreState_job (n : Nat) (x : CoreState) : (s.setCoreState n x).job = s.job := rfl
@[simp] theorem State.setCoreState_halyard (n : Nat) (x : CoreState) : (s.setCoreState n x).halyard = s.halyard := rfl
@[simp] theorem State.setCoreState_plotter (n : Nat) (x : CoreState) : (s.setCoreState n x).plotter = s.plotter := rfl
@[simp] theorem State.setCoreState_fmt (n : Nat) (x : CoreState) : (s.setCoreState n x).fmt = s.fmt := rfl
@[simp] theorem State.setCoreState_net (n : Nat) (x : CoreState) : (s.setCoreState n x).net = s.net := rfl
@[simp] theorem State.setCoreState_host (n : Nat) (x : CoreState) : (s.setCoreState n x).host = s.host := rfl
@[simp] theorem State.setCoreState_fieldNet (n : Nat) (x : CoreState) : (s.setCoreState n x).fieldNet = s.fieldNet := rfl
@[simp] theorem State.setCoreState_actions (n : Nat) (x : CoreState) : (s.setCoreState n x).actions = s.actions := rfl
@[simp] theorem State.setCoreState_power (n : Nat) (x : CoreState) : (s.setCoreState n x).power = s.power := rfl
@[simp] theorem State.setCoreState_reset (n : Nat) (x : CoreState) : (s.setCoreState n x).reset_ = s.reset_ := rfl
@[simp] theorem State.setCoreState_fw (n : Nat) (x : CoreState) : (s.setCoreState n x).fw = s.fw := rfl
@[simp] theorem State.setCoreState_gaz (n : Nat) (x : CoreState) : (s.setCoreState n x).gaz = s.gaz := rfl
@[simp] theorem State.setCoreState_log (n : Nat) (x : CoreState) : (s.setCoreState n x).log = s.log := rfl
@[simp] theorem State.setCoreState_nv (n : Nat) (x : CoreState) : (s.setCoreState n x).nv = s.nv := rfl
@[simp] theorem State.setCoreState_aon (n : Nat) (x : CoreState) : (s.setCoreState n x).aon = s.aon := rfl
@[simp] theorem State.setCoreState_freshCount (n : Nat) (x : CoreState) : (s.setCoreState n x).freshCount = s.freshCount := rfl
@[simp] theorem State.setCoreState_out (n : Nat) (x : CoreState) : (s.setCoreState n x).out = s.out := rfl
@[simp] theorem State.setCoreState_pending (n : Nat) (x : CoreState) : (s.setCoreState n x).pending = s.pending := rfl

/-! ### send -/

@[simp] theorem State.send_wafer (o : Out) : (s.send o).wafer = s.wafer := rfl
@[simp] theorem State.send_cores (o : Out) : (s.send o).cores = s.cores := rfl
@[simp] theorem State.send_flight (o : Out) : (s.send o).flight = s.flight := rfl
@[simp] theorem State.send_fabric (o : Out) : (s.send o).fabric = s.fabric := rfl
@[simp] theorem State.send_hbm (o : Out) : (s.send o).hbm = s.hbm := rfl
@[simp] theorem State.send_job (o : Out) : (s.send o).job = s.job := rfl
@[simp] theorem State.send_halyard (o : Out) : (s.send o).halyard = s.halyard := rfl
@[simp] theorem State.send_plotter (o : Out) : (s.send o).plotter = s.plotter := rfl
@[simp] theorem State.send_fmt (o : Out) : (s.send o).fmt = s.fmt := rfl
@[simp] theorem State.send_net (o : Out) : (s.send o).net = s.net := rfl
@[simp] theorem State.send_host (o : Out) : (s.send o).host = s.host := rfl
@[simp] theorem State.send_fieldNet (o : Out) : (s.send o).fieldNet = s.fieldNet := rfl
@[simp] theorem State.send_actions (o : Out) : (s.send o).actions = s.actions := rfl
@[simp] theorem State.send_power (o : Out) : (s.send o).power = s.power := rfl
@[simp] theorem State.send_reset (o : Out) : (s.send o).reset_ = s.reset_ := rfl
@[simp] theorem State.send_fw (o : Out) : (s.send o).fw = s.fw := rfl
@[simp] theorem State.send_gaz (o : Out) : (s.send o).gaz = s.gaz := rfl
@[simp] theorem State.send_log (o : Out) : (s.send o).log = s.log := rfl
@[simp] theorem State.send_nv (o : Out) : (s.send o).nv = s.nv := rfl
@[simp] theorem State.send_aon (o : Out) : (s.send o).aon = s.aon := rfl
@[simp] theorem State.send_freshCount (o : Out) : (s.send o).freshCount = s.freshCount := rfl
@[simp] theorem State.send_pending (o : Out) : (s.send o).pending = s.pending := rfl

/-! ### until -/

@[simp] theorem State.until_wafer (t : Nat) : (s.until t).wafer = s.wafer := rfl
@[simp] theorem State.until_cores (t : Nat) : (s.until t).cores = s.cores := rfl
@[simp] theorem State.until_flight (t : Nat) : (s.until t).flight = s.flight := rfl
@[simp] theorem State.until_fabric (t : Nat) : (s.until t).fabric = s.fabric := rfl
@[simp] theorem State.until_hbm (t : Nat) : (s.until t).hbm = s.hbm := rfl
@[simp] theorem State.until_job (t : Nat) : (s.until t).job = s.job := rfl
@[simp] theorem State.until_halyard (t : Nat) : (s.until t).halyard = s.halyard := rfl
@[simp] theorem State.until_plotter (t : Nat) : (s.until t).plotter = s.plotter := rfl
@[simp] theorem State.until_fmt (t : Nat) : (s.until t).fmt = s.fmt := rfl
@[simp] theorem State.until_net (t : Nat) : (s.until t).net = s.net := rfl
@[simp] theorem State.until_host (t : Nat) : (s.until t).host = s.host := rfl
@[simp] theorem State.until_fieldNet (t : Nat) : (s.until t).fieldNet = s.fieldNet := rfl
@[simp] theorem State.until_actions (t : Nat) : (s.until t).actions = s.actions := rfl
@[simp] theorem State.until_power (t : Nat) : (s.until t).power = s.power := rfl
@[simp] theorem State.until_reset (t : Nat) : (s.until t).reset_ = s.reset_ := rfl
@[simp] theorem State.until_fw (t : Nat) : (s.until t).fw = s.fw := rfl
@[simp] theorem State.until_gaz (t : Nat) : (s.until t).gaz = s.gaz := rfl
@[simp] theorem State.until_log (t : Nat) : (s.until t).log = s.log := rfl
@[simp] theorem State.until_nv (t : Nat) : (s.until t).nv = s.nv := rfl
@[simp] theorem State.until_freshCount (t : Nat) : (s.until t).freshCount = s.freshCount := rfl
@[simp] theorem State.until_out (t : Nat) : (s.until t).out = s.out := rfl
@[simp] theorem State.until_pending (t : Nat) : (s.until t).pending = s.pending := rfl

/-! ### elapse -/

@[simp] theorem State.elapse_wafer (t : Nat) : (s.elapse t).wafer = s.wafer := rfl
@[simp] theorem State.elapse_cores (t : Nat) : (s.elapse t).cores = s.cores := rfl
@[simp] theorem State.elapse_flight (t : Nat) : (s.elapse t).flight = s.flight := rfl
@[simp] theorem State.elapse_fabric (t : Nat) : (s.elapse t).fabric = s.fabric := rfl
@[simp] theorem State.elapse_hbm (t : Nat) : (s.elapse t).hbm = s.hbm := rfl
@[simp] theorem State.elapse_job (t : Nat) : (s.elapse t).job = s.job := rfl
@[simp] theorem State.elapse_halyard (t : Nat) : (s.elapse t).halyard = s.halyard := rfl
@[simp] theorem State.elapse_plotter (t : Nat) : (s.elapse t).plotter = s.plotter := rfl
@[simp] theorem State.elapse_fmt (t : Nat) : (s.elapse t).fmt = s.fmt := rfl
@[simp] theorem State.elapse_net (t : Nat) : (s.elapse t).net = s.net := rfl
@[simp] theorem State.elapse_host (t : Nat) : (s.elapse t).host = s.host := rfl
@[simp] theorem State.elapse_fieldNet (t : Nat) : (s.elapse t).fieldNet = s.fieldNet := rfl
@[simp] theorem State.elapse_actions (t : Nat) : (s.elapse t).actions = s.actions := rfl
@[simp] theorem State.elapse_power (t : Nat) : (s.elapse t).power = s.power := rfl
@[simp] theorem State.elapse_reset (t : Nat) : (s.elapse t).reset_ = s.reset_ := rfl
@[simp] theorem State.elapse_fw (t : Nat) : (s.elapse t).fw = s.fw := rfl
@[simp] theorem State.elapse_gaz (t : Nat) : (s.elapse t).gaz = s.gaz := rfl
@[simp] theorem State.elapse_log (t : Nat) : (s.elapse t).log = s.log := rfl
@[simp] theorem State.elapse_nv (t : Nat) : (s.elapse t).nv = s.nv := rfl
@[simp] theorem State.elapse_freshCount (t : Nat) : (s.elapse t).freshCount = s.freshCount := rfl
@[simp] theorem State.elapse_out (t : Nat) : (s.elapse t).out = s.out := rfl
@[simp] theorem State.elapse_pending (t : Nat) : (s.elapse t).pending = s.pending := rfl

/-! ### actionStart -/

@[simp] theorem State.actionStart_wafer (i j : Nat) : (s.actionStart i j).wafer = s.wafer := rfl
@[simp] theorem State.actionStart_cores (i j : Nat) : (s.actionStart i j).cores = s.cores := rfl
@[simp] theorem State.actionStart_flight (i j : Nat) : (s.actionStart i j).flight = s.flight := rfl
@[simp] theorem State.actionStart_fabric (i j : Nat) : (s.actionStart i j).fabric = s.fabric := rfl
@[simp] theorem State.actionStart_hbm (i j : Nat) : (s.actionStart i j).hbm = s.hbm := rfl
@[simp] theorem State.actionStart_job (i j : Nat) : (s.actionStart i j).job = s.job := rfl
@[simp] theorem State.actionStart_halyard (i j : Nat) : (s.actionStart i j).halyard = s.halyard := rfl
@[simp] theorem State.actionStart_plotter (i j : Nat) : (s.actionStart i j).plotter = s.plotter := rfl
@[simp] theorem State.actionStart_fmt (i j : Nat) : (s.actionStart i j).fmt = s.fmt := rfl
@[simp] theorem State.actionStart_net (i j : Nat) : (s.actionStart i j).net = s.net := rfl
@[simp] theorem State.actionStart_host (i j : Nat) : (s.actionStart i j).host = s.host := rfl
@[simp] theorem State.actionStart_fieldNet (i j : Nat) : (s.actionStart i j).fieldNet = s.fieldNet := rfl
@[simp] theorem State.actionStart_power (i j : Nat) : (s.actionStart i j).power = s.power := rfl
@[simp] theorem State.actionStart_reset (i j : Nat) : (s.actionStart i j).reset_ = s.reset_ := rfl
@[simp] theorem State.actionStart_fw (i j : Nat) : (s.actionStart i j).fw = s.fw := rfl
@[simp] theorem State.actionStart_gaz (i j : Nat) : (s.actionStart i j).gaz = s.gaz := rfl
@[simp] theorem State.actionStart_log (i j : Nat) : (s.actionStart i j).log = s.log := rfl
@[simp] theorem State.actionStart_nv (i j : Nat) : (s.actionStart i j).nv = s.nv := rfl
@[simp] theorem State.actionStart_aon (i j : Nat) : (s.actionStart i j).aon = s.aon := rfl
@[simp] theorem State.actionStart_freshCount (i j : Nat) : (s.actionStart i j).freshCount = s.freshCount := rfl
@[simp] theorem State.actionStart_out (i j : Nat) : (s.actionStart i j).out = s.out := rfl
@[simp] theorem State.actionStart_pending (i j : Nat) : (s.actionStart i j).pending = s.pending := rfl

/-! ### actionEnd -/

@[simp] theorem State.actionEnd_wafer (i j st : Nat) : (s.actionEnd i j st).wafer = s.wafer := rfl
@[simp] theorem State.actionEnd_cores (i j st : Nat) : (s.actionEnd i j st).cores = s.cores := rfl
@[simp] theorem State.actionEnd_flight (i j st : Nat) : (s.actionEnd i j st).flight = s.flight := rfl
@[simp] theorem State.actionEnd_fabric (i j st : Nat) : (s.actionEnd i j st).fabric = s.fabric := rfl
@[simp] theorem State.actionEnd_hbm (i j st : Nat) : (s.actionEnd i j st).hbm = s.hbm := rfl
@[simp] theorem State.actionEnd_job (i j st : Nat) : (s.actionEnd i j st).job = s.job := rfl
@[simp] theorem State.actionEnd_halyard (i j st : Nat) : (s.actionEnd i j st).halyard = s.halyard := rfl
@[simp] theorem State.actionEnd_plotter (i j st : Nat) : (s.actionEnd i j st).plotter = s.plotter := rfl
@[simp] theorem State.actionEnd_fmt (i j st : Nat) : (s.actionEnd i j st).fmt = s.fmt := rfl
@[simp] theorem State.actionEnd_net (i j st : Nat) : (s.actionEnd i j st).net = s.net := rfl
@[simp] theorem State.actionEnd_host (i j st : Nat) : (s.actionEnd i j st).host = s.host := rfl
@[simp] theorem State.actionEnd_fieldNet (i j st : Nat) : (s.actionEnd i j st).fieldNet = s.fieldNet := rfl
@[simp] theorem State.actionEnd_power (i j st : Nat) : (s.actionEnd i j st).power = s.power := rfl
@[simp] theorem State.actionEnd_reset (i j st : Nat) : (s.actionEnd i j st).reset_ = s.reset_ := rfl
@[simp] theorem State.actionEnd_fw (i j st : Nat) : (s.actionEnd i j st).fw = s.fw := rfl
@[simp] theorem State.actionEnd_gaz (i j st : Nat) : (s.actionEnd i j st).gaz = s.gaz := rfl
@[simp] theorem State.actionEnd_log (i j st : Nat) : (s.actionEnd i j st).log = s.log := rfl
@[simp] theorem State.actionEnd_nv (i j st : Nat) : (s.actionEnd i j st).nv = s.nv := rfl
@[simp] theorem State.actionEnd_aon (i j st : Nat) : (s.actionEnd i j st).aon = s.aon := rfl
@[simp] theorem State.actionEnd_freshCount (i j st : Nat) : (s.actionEnd i j st).freshCount = s.freshCount := rfl
@[simp] theorem State.actionEnd_out (i j st : Nat) : (s.actionEnd i j st).out = s.out := rfl
@[simp] theorem State.actionEnd_pending (i j st : Nat) : (s.actionEnd i j st).pending = s.pending := rfl

/-! ### actionDone -/

@[simp] theorem State.actionDone_wafer (i j st : Nat) : (s.actionDone i j st).wafer = s.wafer := rfl
@[simp] theorem State.actionDone_cores (i j st : Nat) : (s.actionDone i j st).cores = s.cores := rfl
@[simp] theorem State.actionDone_flight (i j st : Nat) : (s.actionDone i j st).flight = s.flight := rfl
@[simp] theorem State.actionDone_fabric (i j st : Nat) : (s.actionDone i j st).fabric = s.fabric := rfl
@[simp] theorem State.actionDone_hbm (i j st : Nat) : (s.actionDone i j st).hbm = s.hbm := rfl
@[simp] theorem State.actionDone_job (i j st : Nat) : (s.actionDone i j st).job = s.job := rfl
@[simp] theorem State.actionDone_halyard (i j st : Nat) : (s.actionDone i j st).halyard = s.halyard := rfl
@[simp] theorem State.actionDone_plotter (i j st : Nat) : (s.actionDone i j st).plotter = s.plotter := rfl
@[simp] theorem State.actionDone_fmt (i j st : Nat) : (s.actionDone i j st).fmt = s.fmt := rfl
@[simp] theorem State.actionDone_net (i j st : Nat) : (s.actionDone i j st).net = s.net := rfl
@[simp] theorem State.actionDone_host (i j st : Nat) : (s.actionDone i j st).host = s.host := rfl
@[simp] theorem State.actionDone_fieldNet (i j st : Nat) : (s.actionDone i j st).fieldNet = s.fieldNet := rfl
@[simp] theorem State.actionDone_power (i j st : Nat) : (s.actionDone i j st).power = s.power := rfl
@[simp] theorem State.actionDone_reset (i j st : Nat) : (s.actionDone i j st).reset_ = s.reset_ := rfl
@[simp] theorem State.actionDone_fw (i j st : Nat) : (s.actionDone i j st).fw = s.fw := rfl
@[simp] theorem State.actionDone_gaz (i j st : Nat) : (s.actionDone i j st).gaz = s.gaz := rfl
@[simp] theorem State.actionDone_log (i j st : Nat) : (s.actionDone i j st).log = s.log := rfl
@[simp] theorem State.actionDone_nv (i j st : Nat) : (s.actionDone i j st).nv = s.nv := rfl
@[simp] theorem State.actionDone_aon (i j st : Nat) : (s.actionDone i j st).aon = s.aon := rfl
@[simp] theorem State.actionDone_freshCount (i j st : Nat) : (s.actionDone i j st).freshCount = s.freshCount := rfl
@[simp] theorem State.actionDone_out (i j st : Nat) : (s.actionDone i j st).out = s.out := rfl
@[simp] theorem State.actionDone_pending (i j st : Nat) : (s.actionDone i j st).pending = s.pending := rfl

/-! ### clearWants -/

@[simp] theorem State.clearWants_wafer : (s.clearWants).wafer = s.wafer := rfl
@[simp] theorem State.clearWants_cores : (s.clearWants).cores = s.cores := rfl
@[simp] theorem State.clearWants_flight : (s.clearWants).flight = s.flight := rfl
@[simp] theorem State.clearWants_fabric : (s.clearWants).fabric = s.fabric := rfl
@[simp] theorem State.clearWants_hbm : (s.clearWants).hbm = s.hbm := rfl
@[simp] theorem State.clearWants_halyard : (s.clearWants).halyard = s.halyard := rfl
@[simp] theorem State.clearWants_plotter : (s.clearWants).plotter = s.plotter := rfl
@[simp] theorem State.clearWants_fmt : (s.clearWants).fmt = s.fmt := rfl
@[simp] theorem State.clearWants_net : (s.clearWants).net = s.net := rfl
@[simp] theorem State.clearWants_host : (s.clearWants).host = s.host := rfl
@[simp] theorem State.clearWants_fieldNet : (s.clearWants).fieldNet = s.fieldNet := rfl
@[simp] theorem State.clearWants_actions : (s.clearWants).actions = s.actions := rfl
@[simp] theorem State.clearWants_power : (s.clearWants).power = s.power := rfl
@[simp] theorem State.clearWants_reset : (s.clearWants).reset_ = s.reset_ := rfl
@[simp] theorem State.clearWants_fw : (s.clearWants).fw = s.fw := rfl
@[simp] theorem State.clearWants_gaz : (s.clearWants).gaz = s.gaz := rfl
@[simp] theorem State.clearWants_log : (s.clearWants).log = s.log := rfl
@[simp] theorem State.clearWants_nv : (s.clearWants).nv = s.nv := rfl
@[simp] theorem State.clearWants_aon : (s.clearWants).aon = s.aon := rfl
@[simp] theorem State.clearWants_freshCount : (s.clearWants).freshCount = s.freshCount := rfl
@[simp] theorem State.clearWants_out : (s.clearWants).out = s.out := rfl
@[simp] theorem State.clearWants_pending : (s.clearWants).pending = s.pending := rfl

/-! ### askStop -/

@[simp] theorem State.askStop_wafer (st : Nat) : (s.askStop st).wafer = s.wafer := rfl
@[simp] theorem State.askStop_cores (st : Nat) : (s.askStop st).cores = s.cores := rfl
@[simp] theorem State.askStop_flight (st : Nat) : (s.askStop st).flight = s.flight := rfl
@[simp] theorem State.askStop_fabric (st : Nat) : (s.askStop st).fabric = s.fabric := rfl
@[simp] theorem State.askStop_hbm (st : Nat) : (s.askStop st).hbm = s.hbm := rfl
@[simp] theorem State.askStop_halyard (st : Nat) : (s.askStop st).halyard = s.halyard := rfl
@[simp] theorem State.askStop_plotter (st : Nat) : (s.askStop st).plotter = s.plotter := rfl
@[simp] theorem State.askStop_fmt (st : Nat) : (s.askStop st).fmt = s.fmt := rfl
@[simp] theorem State.askStop_net (st : Nat) : (s.askStop st).net = s.net := rfl
@[simp] theorem State.askStop_host (st : Nat) : (s.askStop st).host = s.host := rfl
@[simp] theorem State.askStop_fieldNet (st : Nat) : (s.askStop st).fieldNet = s.fieldNet := rfl
@[simp] theorem State.askStop_actions (st : Nat) : (s.askStop st).actions = s.actions := rfl
@[simp] theorem State.askStop_power (st : Nat) : (s.askStop st).power = s.power := rfl
@[simp] theorem State.askStop_reset (st : Nat) : (s.askStop st).reset_ = s.reset_ := rfl
@[simp] theorem State.askStop_fw (st : Nat) : (s.askStop st).fw = s.fw := rfl
@[simp] theorem State.askStop_gaz (st : Nat) : (s.askStop st).gaz = s.gaz := rfl
@[simp] theorem State.askStop_log (st : Nat) : (s.askStop st).log = s.log := rfl
@[simp] theorem State.askStop_nv (st : Nat) : (s.askStop st).nv = s.nv := rfl
@[simp] theorem State.askStop_aon (st : Nat) : (s.askStop st).aon = s.aon := rfl
@[simp] theorem State.askStop_freshCount (st : Nat) : (s.askStop st).freshCount = s.freshCount := rfl
@[simp] theorem State.askStop_out (st : Nat) : (s.askStop st).out = s.out := rfl
@[simp] theorem State.askStop_pending (st : Nat) : (s.askStop st).pending = s.pending := rfl

/-! ### askB -/

@[simp] theorem State.askB_wafer (f : FaultB) : (s.askB f).wafer = s.wafer := rfl
@[simp] theorem State.askB_cores (f : FaultB) : (s.askB f).cores = s.cores := rfl
@[simp] theorem State.askB_flight (f : FaultB) : (s.askB f).flight = s.flight := rfl
@[simp] theorem State.askB_fabric (f : FaultB) : (s.askB f).fabric = s.fabric := rfl
@[simp] theorem State.askB_hbm (f : FaultB) : (s.askB f).hbm = s.hbm := rfl
@[simp] theorem State.askB_halyard (f : FaultB) : (s.askB f).halyard = s.halyard := rfl
@[simp] theorem State.askB_plotter (f : FaultB) : (s.askB f).plotter = s.plotter := rfl
@[simp] theorem State.askB_fmt (f : FaultB) : (s.askB f).fmt = s.fmt := rfl
@[simp] theorem State.askB_net (f : FaultB) : (s.askB f).net = s.net := rfl
@[simp] theorem State.askB_host (f : FaultB) : (s.askB f).host = s.host := rfl
@[simp] theorem State.askB_fieldNet (f : FaultB) : (s.askB f).fieldNet = s.fieldNet := rfl
@[simp] theorem State.askB_actions (f : FaultB) : (s.askB f).actions = s.actions := rfl
@[simp] theorem State.askB_power (f : FaultB) : (s.askB f).power = s.power := rfl
@[simp] theorem State.askB_reset (f : FaultB) : (s.askB f).reset_ = s.reset_ := rfl
@[simp] theorem State.askB_fw (f : FaultB) : (s.askB f).fw = s.fw := rfl
@[simp] theorem State.askB_gaz (f : FaultB) : (s.askB f).gaz = s.gaz := rfl
@[simp] theorem State.askB_log (f : FaultB) : (s.askB f).log = s.log := rfl
@[simp] theorem State.askB_nv (f : FaultB) : (s.askB f).nv = s.nv := rfl
@[simp] theorem State.askB_aon (f : FaultB) : (s.askB f).aon = s.aon := rfl
@[simp] theorem State.askB_freshCount (f : FaultB) : (s.askB f).freshCount = s.freshCount := rfl
@[simp] theorem State.askB_out (f : FaultB) : (s.askB f).out = s.out := rfl
@[simp] theorem State.askB_pending (f : FaultB) : (s.askB f).pending = s.pending := rfl

/-! ### askC -/

@[simp] theorem State.askC_wafer (f : FaultC) : (s.askC f).wafer = s.wafer := rfl
@[simp] theorem State.askC_cores (f : FaultC) : (s.askC f).cores = s.cores := rfl
@[simp] theorem State.askC_flight (f : FaultC) : (s.askC f).flight = s.flight := rfl
@[simp] theorem State.askC_fabric (f : FaultC) : (s.askC f).fabric = s.fabric := rfl
@[simp] theorem State.askC_hbm (f : FaultC) : (s.askC f).hbm = s.hbm := rfl
@[simp] theorem State.askC_halyard (f : FaultC) : (s.askC f).halyard = s.halyard := rfl
@[simp] theorem State.askC_plotter (f : FaultC) : (s.askC f).plotter = s.plotter := rfl
@[simp] theorem State.askC_fmt (f : FaultC) : (s.askC f).fmt = s.fmt := rfl
@[simp] theorem State.askC_net (f : FaultC) : (s.askC f).net = s.net := rfl
@[simp] theorem State.askC_host (f : FaultC) : (s.askC f).host = s.host := rfl
@[simp] theorem State.askC_fieldNet (f : FaultC) : (s.askC f).fieldNet = s.fieldNet := rfl
@[simp] theorem State.askC_actions (f : FaultC) : (s.askC f).actions = s.actions := rfl
@[simp] theorem State.askC_power (f : FaultC) : (s.askC f).power = s.power := rfl
@[simp] theorem State.askC_reset (f : FaultC) : (s.askC f).reset_ = s.reset_ := rfl
@[simp] theorem State.askC_fw (f : FaultC) : (s.askC f).fw = s.fw := rfl
@[simp] theorem State.askC_gaz (f : FaultC) : (s.askC f).gaz = s.gaz := rfl
@[simp] theorem State.askC_log (f : FaultC) : (s.askC f).log = s.log := rfl
@[simp] theorem State.askC_nv (f : FaultC) : (s.askC f).nv = s.nv := rfl
@[simp] theorem State.askC_aon (f : FaultC) : (s.askC f).aon = s.aon := rfl
@[simp] theorem State.askC_freshCount (f : FaultC) : (s.askC f).freshCount = s.freshCount := rfl
@[simp] theorem State.askC_out (f : FaultC) : (s.askC f).out = s.out := rfl
@[simp] theorem State.askC_pending (f : FaultC) : (s.askC f).pending = s.pending := rfl

/-! ### nvBegin -/

@[simp] theorem State.nvBegin_wafer (i : NvImage) : (s.nvBegin i).wafer = s.wafer := rfl
@[simp] theorem State.nvBegin_cores (i : NvImage) : (s.nvBegin i).cores = s.cores := rfl
@[simp] theorem State.nvBegin_flight (i : NvImage) : (s.nvBegin i).flight = s.flight := rfl
@[simp] theorem State.nvBegin_fabric (i : NvImage) : (s.nvBegin i).fabric = s.fabric := rfl
@[simp] theorem State.nvBegin_hbm (i : NvImage) : (s.nvBegin i).hbm = s.hbm := rfl
@[simp] theorem State.nvBegin_job (i : NvImage) : (s.nvBegin i).job = s.job := rfl
@[simp] theorem State.nvBegin_halyard (i : NvImage) : (s.nvBegin i).halyard = s.halyard := rfl
@[simp] theorem State.nvBegin_plotter (i : NvImage) : (s.nvBegin i).plotter = s.plotter := rfl
@[simp] theorem State.nvBegin_fmt (i : NvImage) : (s.nvBegin i).fmt = s.fmt := rfl
@[simp] theorem State.nvBegin_net (i : NvImage) : (s.nvBegin i).net = s.net := rfl
@[simp] theorem State.nvBegin_host (i : NvImage) : (s.nvBegin i).host = s.host := rfl
@[simp] theorem State.nvBegin_fieldNet (i : NvImage) : (s.nvBegin i).fieldNet = s.fieldNet := rfl
@[simp] theorem State.nvBegin_actions (i : NvImage) : (s.nvBegin i).actions = s.actions := rfl
@[simp] theorem State.nvBegin_power (i : NvImage) : (s.nvBegin i).power = s.power := rfl
@[simp] theorem State.nvBegin_reset (i : NvImage) : (s.nvBegin i).reset_ = s.reset_ := rfl
@[simp] theorem State.nvBegin_fw (i : NvImage) : (s.nvBegin i).fw = s.fw := rfl
@[simp] theorem State.nvBegin_gaz (i : NvImage) : (s.nvBegin i).gaz = s.gaz := rfl
@[simp] theorem State.nvBegin_log (i : NvImage) : (s.nvBegin i).log = s.log := rfl
@[simp] theorem State.nvBegin_aon (i : NvImage) : (s.nvBegin i).aon = s.aon := rfl
@[simp] theorem State.nvBegin_freshCount (i : NvImage) : (s.nvBegin i).freshCount = s.freshCount := rfl
@[simp] theorem State.nvBegin_out (i : NvImage) : (s.nvBegin i).out = s.out := rfl
@[simp] theorem State.nvBegin_pending (i : NvImage) : (s.nvBegin i).pending = s.pending := rfl

/-! ### setHost -/

@[simp] theorem State.setHost_wafer (f : HostSt → HostSt) : (s.setHost f).wafer = s.wafer := rfl
@[simp] theorem State.setHost_cores (f : HostSt → HostSt) : (s.setHost f).cores = s.cores := rfl
@[simp] theorem State.setHost_flight (f : HostSt → HostSt) : (s.setHost f).flight = s.flight := rfl
@[simp] theorem State.setHost_fabric (f : HostSt → HostSt) : (s.setHost f).fabric = s.fabric := rfl
@[simp] theorem State.setHost_hbm (f : HostSt → HostSt) : (s.setHost f).hbm = s.hbm := rfl
@[simp] theorem State.setHost_job (f : HostSt → HostSt) : (s.setHost f).job = s.job := rfl
@[simp] theorem State.setHost_halyard (f : HostSt → HostSt) : (s.setHost f).halyard = s.halyard := rfl
@[simp] theorem State.setHost_plotter (f : HostSt → HostSt) : (s.setHost f).plotter = s.plotter := rfl
@[simp] theorem State.setHost_fmt (f : HostSt → HostSt) : (s.setHost f).fmt = s.fmt := rfl
@[simp] theorem State.setHost_net (f : HostSt → HostSt) : (s.setHost f).net = s.net := rfl
@[simp] theorem State.setHost_fieldNet (f : HostSt → HostSt) : (s.setHost f).fieldNet = s.fieldNet := rfl
@[simp] theorem State.setHost_actions (f : HostSt → HostSt) : (s.setHost f).actions = s.actions := rfl
@[simp] theorem State.setHost_power (f : HostSt → HostSt) : (s.setHost f).power = s.power := rfl
@[simp] theorem State.setHost_reset (f : HostSt → HostSt) : (s.setHost f).reset_ = s.reset_ := rfl
@[simp] theorem State.setHost_fw (f : HostSt → HostSt) : (s.setHost f).fw = s.fw := rfl
@[simp] theorem State.setHost_gaz (f : HostSt → HostSt) : (s.setHost f).gaz = s.gaz := rfl
@[simp] theorem State.setHost_log (f : HostSt → HostSt) : (s.setHost f).log = s.log := rfl
@[simp] theorem State.setHost_nv (f : HostSt → HostSt) : (s.setHost f).nv = s.nv := rfl
@[simp] theorem State.setHost_aon (f : HostSt → HostSt) : (s.setHost f).aon = s.aon := rfl
@[simp] theorem State.setHost_freshCount (f : HostSt → HostSt) : (s.setHost f).freshCount = s.freshCount := rfl
@[simp] theorem State.setHost_out (f : HostSt → HostSt) : (s.setHost f).out = s.out := rfl
@[simp] theorem State.setHost_pending (f : HostSt → HostSt) : (s.setHost f).pending = s.pending := rfl

/-! ### netCount -/

@[simp] theorem State.netCount_wafer (i : Nat) (f : NetCounts → NetCounts) : (s.netCount i f).wafer = s.wafer := by unfold State.netCount; split <;> rfl
@[simp] theorem State.netCount_cores (i : Nat) (f : NetCounts → NetCounts) : (s.netCount i f).cores = s.cores := by unfold State.netCount; split <;> rfl
@[simp] theorem State.netCount_flight (i : Nat) (f : NetCounts → NetCounts) : (s.netCount i f).flight = s.flight := by unfold State.netCount; split <;> rfl
@[simp] theorem State.netCount_fabric (i : Nat) (f : NetCounts → NetCounts) : (s.netCount i f).fabric = s.fabric := by unfold State.netCount; split <;> rfl
@[simp] theorem State.netCount_hbm (i : Nat) (f : NetCounts → NetCounts) : (s.netCount i f).hbm = s.hbm := by unfold State.netCount; split <;> rfl
@[simp] theorem State.netCount_job (i : Nat) (f : NetCounts → NetCounts) : (s.netCount i f).job = s.job := by unfold State.netCount; split <;> rfl
@[simp] theorem State.netCount_halyard (i : Nat) (f : NetCounts → NetCounts) : (s.netCount i f).halyard = s.halyard := by unfold State.netCount; split <;> rfl
@[simp] theorem State.netCount_plotter (i : Nat) (f : NetCounts → NetCounts) : (s.netCount i f).plotter = s.plotter := by unfold State.netCount; split <;> rfl
@[simp] theorem State.netCount_fmt (i : Nat) (f : NetCounts → NetCounts) : (s.netCount i f).fmt = s.fmt := by unfold State.netCount; split <;> rfl
@[simp] theorem State.netCount_host (i : Nat) (f : NetCounts → NetCounts) : (s.netCount i f).host = s.host := by unfold State.netCount; split <;> rfl
@[simp] theorem State.netCount_fieldNet (i : Nat) (f : NetCounts → NetCounts) : (s.netCount i f).fieldNet = s.fieldNet := by unfold State.netCount; split <;> rfl
@[simp] theorem State.netCount_actions (i : Nat) (f : NetCounts → NetCounts) : (s.netCount i f).actions = s.actions := by unfold State.netCount; split <;> rfl
@[simp] theorem State.netCount_power (i : Nat) (f : NetCounts → NetCounts) : (s.netCount i f).power = s.power := by unfold State.netCount; split <;> rfl
@[simp] theorem State.netCount_reset (i : Nat) (f : NetCounts → NetCounts) : (s.netCount i f).reset_ = s.reset_ := by unfold State.netCount; split <;> rfl
@[simp] theorem State.netCount_fw (i : Nat) (f : NetCounts → NetCounts) : (s.netCount i f).fw = s.fw := by unfold State.netCount; split <;> rfl
@[simp] theorem State.netCount_gaz (i : Nat) (f : NetCounts → NetCounts) : (s.netCount i f).gaz = s.gaz := by unfold State.netCount; split <;> rfl
@[simp] theorem State.netCount_log (i : Nat) (f : NetCounts → NetCounts) : (s.netCount i f).log = s.log := by unfold State.netCount; split <;> rfl
@[simp] theorem State.netCount_nv (i : Nat) (f : NetCounts → NetCounts) : (s.netCount i f).nv = s.nv := by unfold State.netCount; split <;> rfl
@[simp] theorem State.netCount_aon (i : Nat) (f : NetCounts → NetCounts) : (s.netCount i f).aon = s.aon := by unfold State.netCount; split <;> rfl
@[simp] theorem State.netCount_freshCount (i : Nat) (f : NetCounts → NetCounts) : (s.netCount i f).freshCount = s.freshCount := by unfold State.netCount; split <;> rfl
@[simp] theorem State.netCount_out (i : Nat) (f : NetCounts → NetCounts) : (s.netCount i f).out = s.out := by unfold State.netCount; split <;> rfl
@[simp] theorem State.netCount_pending (i : Nat) (f : NetCounts → NetCounts) : (s.netCount i f).pending = s.pending := by unfold State.netCount; split <;> rfl

/-! ### setPeer -/

@[simp] theorem State.setPeer_wafer (p : PeerSt) : (s.setPeer p).wafer = s.wafer := rfl
@[simp] theorem State.setPeer_cores (p : PeerSt) : (s.setPeer p).cores = s.cores := rfl
@[simp] theorem State.setPeer_flight (p : PeerSt) : (s.setPeer p).flight = s.flight := rfl
@[simp] theorem State.setPeer_fabric (p : PeerSt) : (s.setPeer p).fabric = s.fabric := rfl
@[simp] theorem State.setPeer_hbm (p : PeerSt) : (s.setPeer p).hbm = s.hbm := rfl
@[simp] theorem State.setPeer_job (p : PeerSt) : (s.setPeer p).job = s.job := rfl
@[simp] theorem State.setPeer_halyard (p : PeerSt) : (s.setPeer p).halyard = s.halyard := rfl
@[simp] theorem State.setPeer_plotter (p : PeerSt) : (s.setPeer p).plotter = s.plotter := rfl
@[simp] theorem State.setPeer_fmt (p : PeerSt) : (s.setPeer p).fmt = s.fmt := rfl
@[simp] theorem State.setPeer_host (p : PeerSt) : (s.setPeer p).host = s.host := rfl
@[simp] theorem State.setPeer_fieldNet (p : PeerSt) : (s.setPeer p).fieldNet = s.fieldNet := rfl
@[simp] theorem State.setPeer_actions (p : PeerSt) : (s.setPeer p).actions = s.actions := rfl
@[simp] theorem State.setPeer_power (p : PeerSt) : (s.setPeer p).power = s.power := rfl
@[simp] theorem State.setPeer_reset (p : PeerSt) : (s.setPeer p).reset_ = s.reset_ := rfl
@[simp] theorem State.setPeer_fw (p : PeerSt) : (s.setPeer p).fw = s.fw := rfl
@[simp] theorem State.setPeer_gaz (p : PeerSt) : (s.setPeer p).gaz = s.gaz := rfl
@[simp] theorem State.setPeer_log (p : PeerSt) : (s.setPeer p).log = s.log := rfl
@[simp] theorem State.setPeer_nv (p : PeerSt) : (s.setPeer p).nv = s.nv := rfl
@[simp] theorem State.setPeer_aon (p : PeerSt) : (s.setPeer p).aon = s.aon := rfl
@[simp] theorem State.setPeer_freshCount (p : PeerSt) : (s.setPeer p).freshCount = s.freshCount := rfl
@[simp] theorem State.setPeer_out (p : PeerSt) : (s.setPeer p).out = s.out := rfl
@[simp] theorem State.setPeer_pending (p : PeerSt) : (s.setPeer p).pending = s.pending := rfl

/-! ### fieldCount -/

@[simp] theorem State.fieldCount_wafer (f : FieldSt → FieldSt) : (s.fieldCount f).wafer = s.wafer := rfl
@[simp] theorem State.fieldCount_cores (f : FieldSt → FieldSt) : (s.fieldCount f).cores = s.cores := rfl
@[simp] theorem State.fieldCount_flight (f : FieldSt → FieldSt) : (s.fieldCount f).flight = s.flight := rfl
@[simp] theorem State.fieldCount_fabric (f : FieldSt → FieldSt) : (s.fieldCount f).fabric = s.fabric := rfl
@[simp] theorem State.fieldCount_hbm (f : FieldSt → FieldSt) : (s.fieldCount f).hbm = s.hbm := rfl
@[simp] theorem State.fieldCount_job (f : FieldSt → FieldSt) : (s.fieldCount f).job = s.job := rfl
@[simp] theorem State.fieldCount_halyard (f : FieldSt → FieldSt) : (s.fieldCount f).halyard = s.halyard := rfl
@[simp] theorem State.fieldCount_plotter (f : FieldSt → FieldSt) : (s.fieldCount f).plotter = s.plotter := rfl
@[simp] theorem State.fieldCount_fmt (f : FieldSt → FieldSt) : (s.fieldCount f).fmt = s.fmt := rfl
@[simp] theorem State.fieldCount_net (f : FieldSt → FieldSt) : (s.fieldCount f).net = s.net := rfl
@[simp] theorem State.fieldCount_host (f : FieldSt → FieldSt) : (s.fieldCount f).host = s.host := rfl
@[simp] theorem State.fieldCount_actions (f : FieldSt → FieldSt) : (s.fieldCount f).actions = s.actions := rfl
@[simp] theorem State.fieldCount_power (f : FieldSt → FieldSt) : (s.fieldCount f).power = s.power := rfl
@[simp] theorem State.fieldCount_reset (f : FieldSt → FieldSt) : (s.fieldCount f).reset_ = s.reset_ := rfl
@[simp] theorem State.fieldCount_fw (f : FieldSt → FieldSt) : (s.fieldCount f).fw = s.fw := rfl
@[simp] theorem State.fieldCount_gaz (f : FieldSt → FieldSt) : (s.fieldCount f).gaz = s.gaz := rfl
@[simp] theorem State.fieldCount_log (f : FieldSt → FieldSt) : (s.fieldCount f).log = s.log := rfl
@[simp] theorem State.fieldCount_nv (f : FieldSt → FieldSt) : (s.fieldCount f).nv = s.nv := rfl
@[simp] theorem State.fieldCount_aon (f : FieldSt → FieldSt) : (s.fieldCount f).aon = s.aon := rfl
@[simp] theorem State.fieldCount_freshCount (f : FieldSt → FieldSt) : (s.fieldCount f).freshCount = s.freshCount := rfl
@[simp] theorem State.fieldCount_out (f : FieldSt → FieldSt) : (s.fieldCount f).out = s.out := rfl
@[simp] theorem State.fieldCount_pending (f : FieldSt → FieldSt) : (s.fieldCount f).pending = s.pending := rfl

/-! ### updReg -/

@[simp] theorem State.updReg_wafer (r : Nat) (f : RegSt → RegSt) : (s.updReg r f).wafer = s.wafer := rfl
@[simp] theorem State.updReg_cores (r : Nat) (f : RegSt → RegSt) : (s.updReg r f).cores = s.cores := rfl
@[simp] theorem State.updReg_flight (r : Nat) (f : RegSt → RegSt) : (s.updReg r f).flight = s.flight := rfl
@[simp] theorem State.updReg_fabric (r : Nat) (f : RegSt → RegSt) : (s.updReg r f).fabric = s.fabric := rfl
@[simp] theorem State.updReg_hbm (r : Nat) (f : RegSt → RegSt) : (s.updReg r f).hbm = s.hbm := rfl
@[simp] theorem State.updReg_job (r : Nat) (f : RegSt → RegSt) : (s.updReg r f).job = s.job := rfl
@[simp] theorem State.updReg_halyard (r : Nat) (f : RegSt → RegSt) : (s.updReg r f).halyard = s.halyard := rfl
@[simp] theorem State.updReg_plotter (r : Nat) (f : RegSt → RegSt) : (s.updReg r f).plotter = s.plotter := rfl
@[simp] theorem State.updReg_fmt (r : Nat) (f : RegSt → RegSt) : (s.updReg r f).fmt = s.fmt := rfl
@[simp] theorem State.updReg_net (r : Nat) (f : RegSt → RegSt) : (s.updReg r f).net = s.net := rfl
@[simp] theorem State.updReg_host (r : Nat) (f : RegSt → RegSt) : (s.updReg r f).host = s.host := rfl
@[simp] theorem State.updReg_fieldNet (r : Nat) (f : RegSt → RegSt) : (s.updReg r f).fieldNet = s.fieldNet := rfl
@[simp] theorem State.updReg_actions (r : Nat) (f : RegSt → RegSt) : (s.updReg r f).actions = s.actions := rfl
@[simp] theorem State.updReg_reset (r : Nat) (f : RegSt → RegSt) : (s.updReg r f).reset_ = s.reset_ := rfl
@[simp] theorem State.updReg_fw (r : Nat) (f : RegSt → RegSt) : (s.updReg r f).fw = s.fw := rfl
@[simp] theorem State.updReg_gaz (r : Nat) (f : RegSt → RegSt) : (s.updReg r f).gaz = s.gaz := rfl
@[simp] theorem State.updReg_log (r : Nat) (f : RegSt → RegSt) : (s.updReg r f).log = s.log := rfl
@[simp] theorem State.updReg_nv (r : Nat) (f : RegSt → RegSt) : (s.updReg r f).nv = s.nv := rfl
@[simp] theorem State.updReg_aon (r : Nat) (f : RegSt → RegSt) : (s.updReg r f).aon = s.aon := rfl
@[simp] theorem State.updReg_freshCount (r : Nat) (f : RegSt → RegSt) : (s.updReg r f).freshCount = s.freshCount := rfl
@[simp] theorem State.updReg_out (r : Nat) (f : RegSt → RegSt) : (s.updReg r f).out = s.out := rfl
@[simp] theorem State.updReg_pending (r : Nat) (f : RegSt → RegSt) : (s.updReg r f).pending = s.pending := rfl

/-! ### setGovernor -/

@[simp] theorem State.setGovernor_wafer (k : Nat) (g : GovSt) : (s.setGovernor k g).wafer = s.wafer := rfl
@[simp] theorem State.setGovernor_cores (k : Nat) (g : GovSt) : (s.setGovernor k g).cores = s.cores := rfl
@[simp] theorem State.setGovernor_flight (k : Nat) (g : GovSt) : (s.setGovernor k g).flight = s.flight := rfl
@[simp] theorem State.setGovernor_fabric (k : Nat) (g : GovSt) : (s.setGovernor k g).fabric = s.fabric := rfl
@[simp] theorem State.setGovernor_hbm (k : Nat) (g : GovSt) : (s.setGovernor k g).hbm = s.hbm := rfl
@[simp] theorem State.setGovernor_job (k : Nat) (g : GovSt) : (s.setGovernor k g).job = s.job := rfl
@[simp] theorem State.setGovernor_halyard (k : Nat) (g : GovSt) : (s.setGovernor k g).halyard = s.halyard := rfl
@[simp] theorem State.setGovernor_plotter (k : Nat) (g : GovSt) : (s.setGovernor k g).plotter = s.plotter := rfl
@[simp] theorem State.setGovernor_fmt (k : Nat) (g : GovSt) : (s.setGovernor k g).fmt = s.fmt := rfl
@[simp] theorem State.setGovernor_net (k : Nat) (g : GovSt) : (s.setGovernor k g).net = s.net := rfl
@[simp] theorem State.setGovernor_host (k : Nat) (g : GovSt) : (s.setGovernor k g).host = s.host := rfl
@[simp] theorem State.setGovernor_fieldNet (k : Nat) (g : GovSt) : (s.setGovernor k g).fieldNet = s.fieldNet := rfl
@[simp] theorem State.setGovernor_actions (k : Nat) (g : GovSt) : (s.setGovernor k g).actions = s.actions := rfl
@[simp] theorem State.setGovernor_reset (k : Nat) (g : GovSt) : (s.setGovernor k g).reset_ = s.reset_ := rfl
@[simp] theorem State.setGovernor_fw (k : Nat) (g : GovSt) : (s.setGovernor k g).fw = s.fw := rfl
@[simp] theorem State.setGovernor_gaz (k : Nat) (g : GovSt) : (s.setGovernor k g).gaz = s.gaz := rfl
@[simp] theorem State.setGovernor_log (k : Nat) (g : GovSt) : (s.setGovernor k g).log = s.log := rfl
@[simp] theorem State.setGovernor_nv (k : Nat) (g : GovSt) : (s.setGovernor k g).nv = s.nv := rfl
@[simp] theorem State.setGovernor_aon (k : Nat) (g : GovSt) : (s.setGovernor k g).aon = s.aon := rfl
@[simp] theorem State.setGovernor_freshCount (k : Nat) (g : GovSt) : (s.setGovernor k g).freshCount = s.freshCount := rfl
@[simp] theorem State.setGovernor_out (k : Nat) (g : GovSt) : (s.setGovernor k g).out = s.out := rfl
@[simp] theorem State.setGovernor_pending (k : Nat) (g : GovSt) : (s.setGovernor k g).pending = s.pending := rfl

/-! ### What an update writes -/

@[simp] theorem State.core_setCore (n : Nat) (c : CoreSt) : (s.setCore n c).core n = c := by simp [State.core, State.setCore]
theorem State.core_setCore_other {m n : Nat} (c : CoreSt) (h : m ≠ n) : (s.setCore n c).core m = s.core m := by
  simp [State.core, State.setCore, Tab.get_set_other _ _ _ h]
@[simp] theorem State.core_updCore (n : Nat) (f : CoreSt → CoreSt) : (s.updCore n f).core n = f (s.core n) := by simp [State.updCore]
theorem State.core_updCore_other {m n : Nat} (f : CoreSt → CoreSt) (h : m ≠ n) : (s.updCore n f).core m = s.core m := by
  simp [State.updCore, State.core_setCore_other s _ h]
@[simp] theorem State.stack_setStack (k : Nat) (x : StackSt) : (s.setStack k x).stack k = x := by simp [State.stack, State.setStack]
theorem State.stack_setStack_other {j k : Nat} (x : StackSt) (h : j ≠ k) : (s.setStack k x).stack j = s.stack j := by
  simp [State.stack, State.setStack, Tab.get_set_other _ _ _ h]
@[simp] theorem State.stack_updStack (k : Nat) (f : StackSt → StackSt) : (s.updStack k f).stack k = f (s.stack k) := by
  simp [State.updStack]
theorem State.stack_updStack_other {j k : Nat} (f : StackSt → StackSt) (h : j ≠ k) : (s.updStack k f).stack j = s.stack j := by
  simp [State.updStack, State.stack_setStack_other s _ h]
@[simp] theorem State.stack_writeStack (k a : Nat) (l : List Byte) (who : Consumer) :
    (s.writeStack k a l who).stack k = (s.stack k).write a l who := by
  simp [State.writeStack]
theorem State.stack_writeStack_other {j k : Nat} (a : Nat) (l : List Byte) (who : Consumer) (h : j ≠ k) :
    (s.writeStack k a l who).stack j = s.stack j := by
  simp [State.writeStack, State.stack_updStack_other s _ h]
@[simp] theorem State.stack_updCore (k n : Nat) (f : CoreSt → CoreSt) : (s.updCore n f).stack k = s.stack k := rfl
@[simp] theorem State.core_updStack (n k : Nat) (f : StackSt → StackSt) : (s.updStack k f).core n = s.core n := rfl
@[simp] theorem State.core_writeStack (n k a : Nat) (l : List Byte) (who : Consumer) : (s.writeStack k a l who).core n = s.core n := rfl
@[simp] theorem State.send_out (o : Out) : (s.send o).out = s.out ++ [o] := rfl
@[simp] theorem State.until_aon (t : Nat) : (s.until t).aon = max s.aon (25 * t) := rfl
@[simp] theorem State.elapse_aon (t : Nat) : (s.elapse t).aon = s.aon + 25 * t := rfl
@[simp] theorem State.setHost_host (f : HostSt → HostSt) : (s.setHost f).host = f s.host := rfl
@[simp] theorem State.fieldCount_fieldNet (f : FieldSt → FieldSt) : (s.fieldCount f).fieldNet = f s.fieldNet := rfl

/-! ### Queues of a core -/

@[simp] theorem CoreSt.queue_setQueue (c : CoreSt) (q : QName) (x : Queue) : (c.setQueue q x).queue q = x := by cases q <;> rfl
theorem CoreSt.queue_setQueue_other (c : CoreSt) {p q : QName} (x : Queue) (h : p ≠ q) : (c.setQueue q x).queue p = c.queue p := by
  cases p <;> cases q <;> first | rfl | exact absurd rfl h

@[simp] theorem CoreSt.setQueue_stopped (c : CoreSt) (q : QName) (x : Queue) : (c.setQueue q x).stopped = c.stopped := by cases q <;> rfl
@[simp] theorem CoreSt.setQueue_issueSeq (c : CoreSt) (q : QName) (x : Queue) : (c.setQueue q x).issueSeq = c.issueSeq := by cases q <;> rfl
@[simp] theorem CoreSt.setQueue_pen (c : CoreSt) (q : QName) (x : Queue) : (c.setQueue q x).pen = c.pen := by cases q <;> rfl
@[simp] theorem CoreSt.setQueue_plotPen (c : CoreSt) (q : QName) (x : Queue) : (c.setQueue q x).plotPen = c.plotPen := by cases q <;> rfl
@[simp] theorem CoreSt.setQueue_act (c : CoreSt) (q : QName) (x : Queue) : (c.setQueue q x).act = c.act := by cases q <;> rfl
@[simp] theorem CoreSt.setQueue_sbuf (c : CoreSt) (q : QName) (x : Queue) : (c.setQueue q x).sbuf = c.sbuf := by cases q <;> rfl
@[simp] theorem CoreSt.setQueue_istore (c : CoreSt) (q : QName) (x : Queue) : (c.setQueue q x).istore = c.istore := by cases q <;> rfl
@[simp] theorem CoreSt.setQueue_acc (c : CoreSt) (q : QName) (x : Queue) : (c.setQueue q x).acc = c.acc := by cases q <;> rfl
@[simp] theorem CoreSt.setQueue_accErr (c : CoreSt) (q : QName) (x : Queue) : (c.setQueue q x).accErr = c.accErr := by cases q <;> rfl
@[simp] theorem CoreSt.setQueue_sramErr (c : CoreSt) (q : QName) (x : Queue) : (c.setQueue q x).sramErr = c.sramErr := by cases q <;> rfl
@[simp] theorem CoreSt.setQueue_window (c : CoreSt) (q : QName) (x : Queue) : (c.setQueue q x).window = c.window := by cases q <;> rfl
@[simp] theorem CoreSt.setQueue_active (c : CoreSt) (q : QName) (x : Queue) : (c.setQueue q x).active = c.active := by cases q <;> rfl
@[simp] theorem CoreSt.setQueue_shadow (c : CoreSt) (q : QName) (x : Queue) : (c.setQueue q x).shadow = c.shadow := by cases q <;> rfl
@[simp] theorem CoreSt.setQueue_plotSet (c : CoreSt) (q : QName) (x : Queue) : (c.setQueue q x).plotSet = c.plotSet := by cases q <;> rfl
@[simp] theorem CoreSt.setQueue_shadowFull (c : CoreSt) (q : QName) (x : Queue) : (c.setQueue q x).shadowFull = c.shadowFull := by cases q <;> rfl
@[simp] theorem CoreSt.setQueue_fwgtWait (c : CoreSt) (q : QName) (x : Queue) : (c.setQueue q x).fwgtWait = c.fwgtWait := by cases q <;> rfl
@[simp] theorem CoreSt.setQueue_floadRun (c : CoreSt) (q : QName) (x : Queue) : (c.setQueue q x).floadRun = c.floadRun := by cases q <;> rfl
@[simp] theorem CoreSt.setQueue_staging (c : CoreSt) (q : QName) (x : Queue) : (c.setQueue q x).staging = c.staging := by cases q <;> rfl
@[simp] theorem CoreSt.setQueue_plotStaging (c : CoreSt) (q : QName) (x : Queue) : (c.setQueue q x).plotStaging = c.plotStaging := by cases q <;> rfl
@[simp] theorem CoreSt.setQueue_plotFeed (c : CoreSt) (q : QName) (x : Queue) : (c.setQueue q x).plotFeed = c.plotFeed := by cases q <;> rfl
@[simp] theorem CoreSt.setQueue_plotRows (c : CoreSt) (q : QName) (x : Queue) : (c.setQueue q x).plotRows = c.plotRows := by cases q <;> rfl
@[simp] theorem CoreSt.setQueue_plotFwgt (c : CoreSt) (q : QName) (x : Queue) : (c.setQueue q x).plotFwgt = c.plotFwgt := by cases q <;> rfl
@[simp] theorem CoreSt.setQueue_plotRun (c : CoreSt) (q : QName) (x : Queue) : (c.setQueue q x).plotRun = c.plotRun := by cases q <;> rfl
@[simp] theorem CoreSt.setQueue_mmulRun (c : CoreSt) (q : QName) (x : Queue) : (c.setQueue q x).mmulRun = c.mmulRun := by cases q <;> rfl
@[simp] theorem CoreSt.setQueue_mmulCount (c : CoreSt) (q : QName) (x : Queue) : (c.setQueue q x).mmulCount = c.mmulCount := by cases q <;> rfl
@[simp] theorem CoreSt.setQueue_scales (c : CoreSt) (q : QName) (x : Queue) : (c.setQueue q x).scales = c.scales := by cases q <;> rfl
@[simp] theorem CoreSt.setQueue_flush (c : CoreSt) (q : QName) (x : Queue) : (c.setQueue q x).flush = c.flush := by cases q <;> rfl
@[simp] theorem CoreSt.setQueue_accSat (c : CoreSt) (q : QName) (x : Queue) : (c.setQueue q x).accSat = c.accSat := by cases q <;> rfl
@[simp] theorem CoreSt.setQueue_qsat (c : CoreSt) (q : QName) (x : Queue) : (c.setQueue q x).qsat = c.qsat := by cases q <;> rfl
@[simp] theorem CoreSt.setQueue_qnonfinite (c : CoreSt) (q : QName) (x : Queue) : (c.setQueue q x).qnonfinite = c.qnonfinite := by cases q <;> rfl
@[simp] theorem CoreSt.setQueue_encerr (c : CoreSt) (q : QName) (x : Queue) : (c.setQueue q x).encerr = c.encerr := by cases q <;> rfl
@[simp] theorem CoreSt.setQueue_triDropped (c : CoreSt) (q : QName) (x : Queue) : (c.setQueue q x).triDropped = c.triDropped := by cases q <;> rfl
@[simp] theorem CoreSt.setQueue_dexitSat (c : CoreSt) (q : QName) (x : Queue) : (c.setQueue q x).dexitSat = c.dexitSat := by cases q <;> rfl
@[simp] theorem CoreSt.setQueue_dexitNonfinite (c : CoreSt) (q : QName) (x : Queue) : (c.setQueue q x).dexitNonfinite = c.dexitNonfinite := by cases q <;> rfl
@[simp] theorem CoreSt.setQueue_accCorrected (c : CoreSt) (q : QName) (x : Queue) : (c.setQueue q x).accCorrected = c.accCorrected := by cases q <;> rfl
@[simp] theorem CoreSt.setQueue_dexitCount (c : CoreSt) (q : QName) (x : Queue) : (c.setQueue q x).dexitCount = c.dexitCount := by cases q <;> rfl
@[simp] theorem CoreSt.setQueue_codes (c : CoreSt) (q : QName) (x : Queue) : (c.setQueue q x).codes = c.codes := by cases q <;> rfl
@[simp] theorem CoreSt.setQueue_merge (c : CoreSt) (q : QName) (x : Queue) : (c.setQueue q x).merge = c.merge := by cases q <;> rfl
@[simp] theorem CoreSt.setQueue_dexits (c : CoreSt) (q : QName) (x : Queue) : (c.setQueue q x).dexits = c.dexits := by cases q <;> rfl
@[simp] theorem CoreSt.setQueue_tri (c : CoreSt) (q : QName) (x : Queue) : (c.setQueue q x).tri = c.tri := by cases q <;> rfl
@[simp] theorem CoreSt.setQueue_alarms (c : CoreSt) (q : QName) (x : Queue) : (c.setQueue q x).alarms = c.alarms := by cases q <;> rfl
@[simp] theorem CoreSt.setQueue_recvs (c : CoreSt) (q : QName) (x : Queue) : (c.setQueue q x).recvs = c.recvs := by cases q <;> rfl
@[simp] theorem CoreSt.setQueue_recvAsked (c : CoreSt) (q : QName) (x : Queue) : (c.setQueue q x).recvAsked = c.recvAsked := by cases q <;> rfl
@[simp] theorem CoreSt.setQueue_recvHeld (c : CoreSt) (q : QName) (x : Queue) : (c.setQueue q x).recvHeld = c.recvHeld := by cases q <;> rfl
@[simp] theorem CoreSt.setQueue_loads (c : CoreSt) (q : QName) (x : Queue) : (c.setQueue q x).loads = c.loads := by cases q <;> rfl
@[simp] theorem CoreSt.setQueue_vc4 (c : CoreSt) (q : QName) (x : Queue) : (c.setQueue q x).vc4 = c.vc4 := by cases q <;> rfl
@[simp] theorem CoreSt.setQueue_tally (c : CoreSt) (q : QName) (x : Queue) : (c.setQueue q x).tally = c.tally := by cases q <;> rfl
@[simp] theorem CoreSt.setQueue_tallyBase (c : CoreSt) (q : QName) (x : Queue) : (c.setQueue q x).tallyBase = c.tallyBase := by cases q <;> rfl
@[simp] theorem CoreSt.setQueue_counters (c : CoreSt) (q : QName) (x : Queue) : (c.setQueue q x).counters = c.counters := by cases q <;> rfl
@[simp] theorem CoreSt.setQueue_counterBase (c : CoreSt) (q : QName) (x : Queue) : (c.setQueue q x).counterBase = c.counterBase := by cases q <;> rfl
@[simp] theorem CoreSt.setQueue_wrapped (c : CoreSt) (q : QName) (x : Queue) : (c.setQueue q x).wrapped = c.wrapped := by cases q <;> rfl
@[simp] theorem CoreSt.setQueue_freeBase (c : CoreSt) (q : QName) (x : Queue) : (c.setQueue q x).freeBase = c.freeBase := by cases q <;> rfl
@[simp] theorem CoreSt.setQueue_reported (c : CoreSt) (q : QName) (x : Queue) : (c.setQueue q x).reported = c.reported := by cases q <;> rfl

end Sys2Proof.Machine
end

