-- ==== Sys2Proof/Laws/Event.lean ====
section
/-!
SUPPORT. What logging an event leaves alone (R541, R542, R592, R593, R599), and how a command ends: job control has nothing to act on, or
acts and forgets.
-/

namespace Sys2Proof.Machine

variable (s : State)

/-! ### Vectors and event copies -/

@[simp] theorem State.vector_wafer (v : Nat) : (s.vector v).wafer = s.wafer := by
  unfold State.vector
  split
  · rfl
  · split <;> rfl
@[simp] theorem State.vector_cores (v : Nat) : (s.vector v).cores = s.cores := by
  unfold State.vector
  split
  · rfl
  · split <;> rfl
@[simp] theorem State.vector_flight (v : Nat) : (s.vector v).flight = s.flight := by
  unfold State.vector
  split
  · rfl
  · split <;> rfl
@[simp] theorem State.vector_fabric (v : Nat) : (s.vector v).fabric = s.fabric := by
  unfold State.vector
  split
  · rfl
  · split <;> rfl
@[simp] theorem State.vector_hbm (v : Nat) : (s.vector v).hbm = s.hbm := by
  unfold State.vector
  split
  · rfl
  · split <;> rfl
@[simp] theorem State.vector_job (v : Nat) : (s.vector v).job = s.job := by
  unfold State.vector
  split
  · rfl
  · split <;> rfl
@[simp] theorem State.vector_halyard (v : Nat) : (s.vector v).halyard = s.halyard := by
  unfold State.vector
  split
  · rfl
  · split <;> rfl
@[simp] theorem State.vector_plotter (v : Nat) : (s.vector v).plotter = s.plotter := by
  unfold State.vector
  split
  · rfl
  · split <;> rfl
@[simp] theorem State.vector_fmt (v : Nat) : (s.vector v).fmt = s.fmt := by
  unfold State.vector
  split
  · rfl
  · split <;> rfl
@[simp] theorem State.vector_net (v : Nat) : (s.vector v).net = s.net := by
  unfold State.vector
  split
  · rfl
  · split <;> rfl
@[simp] theorem State.vector_fieldNet (v : Nat) : (s.vector v).fieldNet = s.fieldNet := by
  unfold State.vector
  split
  · rfl
  · split <;> rfl
@[simp] theorem State.vector_actions (v : Nat) : (s.vector v).actions = s.actions := by
  unfold State.vector
  split
  · rfl
  · split <;> rfl
@[simp] theorem State.vector_power (v : Nat) : (s.vector v).power = s.power := by
  unfold State.vector
  split
  · rfl
  · split <;> rfl
@[simp] theorem State.vector_reset (v : Nat) : (s.vector v).reset_ = s.reset_ := by
  unfold State.vector
  split
  · rfl
  · split <;> rfl
@[simp] theorem State.vector_fw (v : Nat) : (s.vector v).fw = s.fw := by
  unfold State.vector
  split
  · rfl
  · split <;> rfl
@[simp] theorem State.vector_gaz (v : Nat) : (s.vector v).gaz = s.gaz := by
  unfold State.vector
  split
  · rfl
  · split <;> rfl
@[simp] theorem State.vector_log (v : Nat) : (s.vector v).log = s.log := by
  unfold State.vector
  split
  · rfl
  · split <;> rfl
@[simp] theorem State.vector_nv (v : Nat) : (s.vector v).nv = s.nv := by
  unfold State.vector
  split
  · rfl
  · split <;> rfl
@[simp] theorem State.vector_aon (v : Nat) : (s.vector v).aon = s.aon := by
  unfold State.vector
  split
  · rfl
  · split <;> rfl
@[simp] theorem State.vector_freshCount (v : Nat) : (s.vector v).freshCount = s.freshCount := by
  unfold State.vector
  split
  · rfl
  · split <;> rfl
@[simp] theorem State.vector_pending (v : Nat) : (s.vector v).pending = s.pending := by
  unfold State.vector
  split
  · rfl
  · split <;> rfl

@[simp] theorem State.copyEvents_wafer (n : Nat) : (s.copyEvents n).wafer = s.wafer := by
  induction n generalizing s with
  | zero => rfl
  | succ n ih =>
    unfold State.copyEvents
    dsimp only
    split
    · split
      · rfl
      · simp [ih]
    · rfl
@[simp] theorem State.copyEvents_cores (n : Nat) : (s.copyEvents n).cores = s.cores := by
  induction n generalizing s with
  | zero => rfl
  | succ n ih =>
    unfold State.copyEvents
    dsimp only
    split
    · split
      · rfl
      · simp [ih]
    · rfl
@[simp] theorem State.copyEvents_flight (n : Nat) : (s.copyEvents n).flight = s.flight := by
  induction n generalizing s with
  | zero => rfl
  | succ n ih =>
    unfold State.copyEvents
    dsimp only
    split
    · split
      · rfl
      · simp [ih]
    · rfl
@[simp] theorem State.copyEvents_fabric (n : Nat) : (s.copyEvents n).fabric = s.fabric := by
  induction n generalizing s with
  | zero => rfl
  | succ n ih =>
    unfold State.copyEvents
    dsimp only
    split
    · split
      · rfl
      · simp [ih]
    · rfl
@[simp] theorem State.copyEvents_hbm (n : Nat) : (s.copyEvents n).hbm = s.hbm := by
  induction n generalizing s with
  | zero => rfl
  | succ n ih =>
    unfold State.copyEvents
    dsimp only
    split
    · split
      · rfl
      · simp [ih]
    · rfl
@[simp] theorem State.copyEvents_job (n : Nat) : (s.copyEvents n).job = s.job := by
  induction n generalizing s with
  | zero => rfl
  | succ n ih =>
    unfold State.copyEvents
    dsimp only
    split
    · split
      · rfl
      · simp [ih]
    · rfl
@[simp] theorem State.copyEvents_halyard (n : Nat) : (s.copyEvents n).halyard = s.halyard := by
  induction n generalizing s with
  | zero => rfl
  | succ n ih =>
    unfold State.copyEvents
    dsimp only
    split
    · split
      · rfl
      · simp [ih]
    · rfl
@[simp] theorem State.copyEvents_plotter (n : Nat) : (s.copyEvents n).plotter = s.plotter := by
  induction n generalizing s with
  | zero => rfl
  | succ n ih =>
    unfold State.copyEvents
    dsimp only
    split
    · split
      · rfl
      · simp [ih]
    · rfl
@[simp] theorem State.copyEvents_fmt (n : Nat) : (s.copyEvents n).fmt = s.fmt := by
  induction n generalizing s with
  | zero => rfl
  | succ n ih =>
    unfold State.copyEvents
    dsimp only
    split
    · split
      · rfl
      · simp [ih]
    · rfl
@[simp] theorem State.copyEvents_net (n : Nat) : (s.copyEvents n).net = s.net := by
  induction n generalizing s with
  | zero => rfl
  | succ n ih =>
    unfold State.copyEvents
    dsimp only
    split
    · split
      · rfl
      · simp [ih]
    · rfl
@[simp] theorem State.copyEvents_fieldNet (n : Nat) : (s.copyEvents n).fieldNet = s.fieldNet := by
  induction n generalizing s with
  | zero => rfl
  | succ n ih =>
    unfold State.copyEvents
    dsimp only
    split
    · split
      · rfl
      · simp [ih]
    · rfl
@[simp] theorem State.copyEvents_actions (n : Nat) : (s.copyEvents n).actions = s.actions := by
  induction n generalizing s with
  | zero => rfl
  | succ n ih =>
    unfold State.copyEvents
    dsimp only
    split
    · split
      · rfl
      · simp [ih]
    · rfl
@[simp] theorem State.copyEvents_power (n : Nat) : (s.copyEvents n).power = s.power := by
  induction n generalizing s with
  | zero => rfl
  | succ n ih =>
    unfold State.copyEvents
    dsimp only
    split
    · split
      · rfl
      · simp [ih]
    · rfl
@[simp] theorem State.copyEvents_reset (n : Nat) : (s.copyEvents n).reset_ = s.reset_ := by
  induction n generalizing s with
  | zero => rfl
  | succ n ih =>
    unfold State.copyEvents
    dsimp only
    split
    · split
      · rfl
      · simp [ih]
    · rfl
@[simp] theorem State.copyEvents_fw (n : Nat) : (s.copyEvents n).fw = s.fw := by
  induction n generalizing s with
  | zero => rfl
  | succ n ih =>
    unfold State.copyEvents
    dsimp only
    split
    · split
      · rfl
      · simp [ih]
    · rfl
@[simp] theorem State.copyEvents_gaz (n : Nat) : (s.copyEvents n).gaz = s.gaz := by
  induction n generalizing s with
  | zero => rfl
  | succ n ih =>
    unfold State.copyEvents
    dsimp only
    split
    · split
      · rfl
      · simp [ih]
    · rfl
@[simp] theorem State.copyEvents_log (n : Nat) : (s.copyEvents n).log = s.log := by
  induction n generalizing s with
  | zero => rfl
  | succ n ih =>
    unfold State.copyEvents
    dsimp only
    split
    · split
      · rfl
      · simp [ih]
    · rfl
@[simp] theorem State.copyEvents_nv (n : Nat) : (s.copyEvents n).nv = s.nv := by
  induction n generalizing s with
  | zero => rfl
  | succ n ih =>
    unfold State.copyEvents
    dsimp only
    split
    · split
      · rfl
      · simp [ih]
    · rfl
@[simp] theorem State.copyEvents_aon (n : Nat) : (s.copyEvents n).aon = s.aon := by
  induction n generalizing s with
  | zero => rfl
  | succ n ih =>
    unfold State.copyEvents
    dsimp only
    split
    · split
      · rfl
      · simp [ih]
    · rfl
@[simp] theorem State.copyEvents_freshCount (n : Nat) : (s.copyEvents n).freshCount = s.freshCount := by
  induction n generalizing s with
  | zero => rfl
  | succ n ih =>
    unfold State.copyEvents
    dsimp only
    split
    · split
      · rfl
      · simp [ih]
    · rfl
@[simp] theorem State.copyEvents_pending (n : Nat) : (s.copyEvents n).pending = s.pending := by
  induction n generalizing s with
  | zero => rfl
  | succ n ih =>
    unfold State.copyEvents
    dsimp only
    split
    · split
      · rfl
      · simp [ih]
    · rfl

/-! ### Events -/

@[simp] theorem State.event_wafer (name : String) (c k src : Nat) (i : List Nat) : (s.event name c k src i).wafer = s.wafer := by
  unfold State.event
  simp only [State.copyEvents_wafer]
  split <;> rfl
@[simp] theorem State.info_wafer (name : String) (i : List Nat) : (s.info name i).wafer = s.wafer := by simp [State.info]
@[simp] theorem State.regEvent_wafer (name : String) (r : Nat) (i : List Nat) : (s.regEvent name r i).wafer = s.wafer := by simp [State.regEvent]
@[simp] theorem State.halEvent_wafer (name : String) (c r : Nat) (i : List Nat) : (s.halEvent name c r i).wafer = s.wafer := by simp [State.halEvent]
@[simp] theorem State.event_cores (name : String) (c k src : Nat) (i : List Nat) : (s.event name c k src i).cores = s.cores := by
  unfold State.event
  simp only [State.copyEvents_cores]
  split <;> rfl
@[simp] theorem State.info_cores (name : String) (i : List Nat) : (s.info name i).cores = s.cores := by simp [State.info]
@[simp] theorem State.regEvent_cores (name : String) (r : Nat) (i : List Nat) : (s.regEvent name r i).cores = s.cores := by simp [State.regEvent]
@[simp] theorem State.halEvent_cores (name : String) (c r : Nat) (i : List Nat) : (s.halEvent name c r i).cores = s.cores := by simp [State.halEvent]
@[simp] theorem State.event_flight (name : String) (c k src : Nat) (i : List Nat) : (s.event name c k src i).flight = s.flight := by
  unfold State.event
  simp only [State.copyEvents_flight]
  split <;> rfl
@[simp] theorem State.info_flight (name : String) (i : List Nat) : (s.info name i).flight = s.flight := by simp [State.info]
@[simp] theorem State.regEvent_flight (name : String) (r : Nat) (i : List Nat) : (s.regEvent name r i).flight = s.flight := by simp [State.regEvent]
@[simp] theorem State.halEvent_flight (name : String) (c r : Nat) (i : List Nat) : (s.halEvent name c r i).flight = s.flight := by simp [State.halEvent]
@[simp] theorem State.event_fabric (name : String) (c k src : Nat) (i : List Nat) : (s.event name c k src i).fabric = s.fabric := by
  unfold State.event
  simp only [State.copyEvents_fabric]
  split <;> rfl
@[simp] theorem State.info_fabric (name : String) (i : List Nat) : (s.info name i).fabric = s.fabric := by simp [State.info]
@[simp] theorem State.regEvent_fabric (name : String) (r : Nat) (i : List Nat) : (s.regEvent name r i).fabric = s.fabric := by simp [State.regEvent]
@[simp] theorem State.halEvent_fabric (name : String) (c r : Nat) (i : List Nat) : (s.halEvent name c r i).fabric = s.fabric := by simp [State.halEvent]
@[simp] theorem State.event_hbm (name : String) (c k src : Nat) (i : List Nat) : (s.event name c k src i).hbm = s.hbm := by
  unfold State.event
  simp only [State.copyEvents_hbm]
  split <;> rfl
@[simp] theorem State.info_hbm (name : String) (i : List Nat) : (s.info name i).hbm = s.hbm := by simp [State.info]
@[simp] theorem State.regEvent_hbm (name : String) (r : Nat) (i : List Nat) : (s.regEvent name r i).hbm = s.hbm := by simp [State.regEvent]
@[simp] theorem State.halEvent_hbm (name : String) (c r : Nat) (i : List Nat) : (s.halEvent name c r i).hbm = s.hbm := by simp [State.halEvent]
@[simp] theorem State.event_job (name : String) (c k src : Nat) (i : List Nat) : (s.event name c k src i).job = s.job := by
  unfold State.event
  simp only [State.copyEvents_job]
  split <;> rfl
@[simp] theorem State.info_job (name : String) (i : List Nat) : (s.info name i).job = s.job := by simp [State.info]
@[simp] theorem State.regEvent_job (name : String) (r : Nat) (i : List Nat) : (s.regEvent name r i).job = s.job := by simp [State.regEvent]
@[simp] theorem State.halEvent_job (name : String) (c r : Nat) (i : List Nat) : (s.halEvent name c r i).job = s.job := by simp [State.halEvent]
@[simp] theorem State.event_halyard (name : String) (c k src : Nat) (i : List Nat) : (s.event name c k src i).halyard = s.halyard := by
  unfold State.event
  simp only [State.copyEvents_halyard]
  split <;> rfl
@[simp] theorem State.info_halyard (name : String) (i : List Nat) : (s.info name i).halyard = s.halyard := by simp [State.info]
@[simp] theorem State.regEvent_halyard (name : String) (r : Nat) (i : List Nat) : (s.regEvent name r i).halyard = s.halyard := by simp [State.regEvent]
@[simp] theorem State.event_plotter (name : String) (c k src : Nat) (i : List Nat) : (s.event name c k src i).plotter = s.plotter := by
  unfold State.event
  simp only [State.copyEvents_plotter]
  split <;> rfl
@[simp] theorem State.info_plotter (name : String) (i : List Nat) : (s.info name i).plotter = s.plotter := by simp [State.info]
@[simp] theorem State.regEvent_plotter (name : String) (r : Nat) (i : List Nat) : (s.regEvent name r i).plotter = s.plotter := by simp [State.regEvent]
@[simp] theorem State.halEvent_plotter (name : String) (c r : Nat) (i : List Nat) : (s.halEvent name c r i).plotter = s.plotter := by simp [State.halEvent]
@[simp] theorem State.event_fmt (name : String) (c k src : Nat) (i : List Nat) : (s.event name c k src i).fmt = s.fmt := by
  unfold State.event
  simp only [State.copyEvents_fmt]
  split <;> rfl
@[simp] theorem State.info_fmt (name : String) (i : List Nat) : (s.info name i).fmt = s.fmt := by simp [State.info]
@[simp] theorem State.regEvent_fmt (name : String) (r : Nat) (i : List Nat) : (s.regEvent name r i).fmt = s.fmt := by simp [State.regEvent]
@[simp] theorem State.halEvent_fmt (name : String) (c r : Nat) (i : List Nat) : (s.halEvent name c r i).fmt = s.fmt := by simp [State.halEvent]
@[simp] theorem State.event_net (name : String) (c k src : Nat) (i : List Nat) : (s.event name c k src i).net = s.net := by
  unfold State.event
  simp only [State.copyEvents_net]
  split <;> rfl
@[simp] theorem State.info_net (name : String) (i : List Nat) : (s.info name i).net = s.net := by simp [State.info]
@[simp] theorem State.regEvent_net (name : String) (r : Nat) (i : List Nat) : (s.regEvent name r i).net = s.net := by simp [State.regEvent]
@[simp] theorem State.halEvent_net (name : String) (c r : Nat) (i : List Nat) : (s.halEvent name c r i).net = s.net := by simp [State.halEvent]
@[simp] theorem State.event_actions (name : String) (c k src : Nat) (i : List Nat) : (s.event name c k src i).actions = s.actions := by
  unfold State.event
  simp only [State.copyEvents_actions]
  split <;> rfl
@[simp] theorem State.info_actions (name : String) (i : List Nat) : (s.info name i).actions = s.actions := by simp [State.info]
@[simp] theorem State.regEvent_actions (name : String) (r : Nat) (i : List Nat) : (s.regEvent name r i).actions = s.actions := by simp [State.regEvent]
@[simp] theorem State.halEvent_actions (name : String) (c r : Nat) (i : List Nat) : (s.halEvent name c r i).actions = s.actions := by simp [State.halEvent]
@[simp] theorem State.event_power (name : String) (c k src : Nat) (i : List Nat) : (s.event name c k src i).power = s.power := by
  unfold State.event
  simp only [State.copyEvents_power]
  split <;> rfl
@[simp] theorem State.info_power (name : String) (i : List Nat) : (s.info name i).power = s.power := by simp [State.info]
@[simp] theorem State.regEvent_power (name : String) (r : Nat) (i : List Nat) : (s.regEvent name r i).power = s.power := by simp [State.regEvent]
@[simp] theorem State.halEvent_power (name : String) (c r : Nat) (i : List Nat) : (s.halEvent name c r i).power = s.power := by simp [State.halEvent]
@[simp] theorem State.event_reset (name : String) (c k src : Nat) (i : List Nat) : (s.event name c k src i).reset_ = s.reset_ := by
  unfold State.event
  simp only [State.copyEvents_reset]
  split <;> rfl
@[simp] theorem State.info_reset (name : String) (i : List Nat) : (s.info name i).reset_ = s.reset_ := by simp [State.info]
@[simp] theorem State.regEvent_reset (name : String) (r : Nat) (i : List Nat) : (s.regEvent name r i).reset_ = s.reset_ := by simp [State.regEvent]
@[simp] theorem State.halEvent_reset (name : String) (c r : Nat) (i : List Nat) : (s.halEvent name c r i).reset_ = s.reset_ := by simp [State.halEvent]
@[simp] theorem State.event_fw (name : String) (c k src : Nat) (i : List Nat) : (s.event name c k src i).fw = s.fw := by
  unfold State.event
  simp only [State.copyEvents_fw]
  split <;> rfl
@[simp] theorem State.info_fw (name : String) (i : List Nat) : (s.info name i).fw = s.fw := by simp [State.info]
@[simp] theorem State.regEvent_fw (name : String) (r : Nat) (i : List Nat) : (s.regEvent name r i).fw = s.fw := by simp [State.regEvent]
@[simp] theorem State.halEvent_fw (name : String) (c r : Nat) (i : List Nat) : (s.halEvent name c r i).fw = s.fw := by simp [State.halEvent]
@[simp] theorem State.event_gaz (name : String) (c k src : Nat) (i : List Nat) : (s.event name c k src i).gaz = s.gaz := by
  unfold State.event
  simp only [State.copyEvents_gaz]
  split <;> rfl
@[simp] theorem State.info_gaz (name : String) (i : List Nat) : (s.info name i).gaz = s.gaz := by simp [State.info]
@[simp] theorem State.regEvent_gaz (name : String) (r : Nat) (i : List Nat) : (s.regEvent name r i).gaz = s.gaz := by simp [State.regEvent]
@[simp] theorem State.halEvent_gaz (name : String) (c r : Nat) (i : List Nat) : (s.halEvent name c r i).gaz = s.gaz := by simp [State.halEvent]
@[simp] theorem State.event_aon (name : String) (c k src : Nat) (i : List Nat) : (s.event name c k src i).aon = s.aon := by
  unfold State.event
  simp only [State.copyEvents_aon]
  split <;> rfl
@[simp] theorem State.info_aon (name : String) (i : List Nat) : (s.info name i).aon = s.aon := by simp [State.info]
@[simp] theorem State.regEvent_aon (name : String) (r : Nat) (i : List Nat) : (s.regEvent name r i).aon = s.aon := by simp [State.regEvent]
@[simp] theorem State.halEvent_aon (name : String) (c r : Nat) (i : List Nat) : (s.halEvent name c r i).aon = s.aon := by simp [State.halEvent]
@[simp] theorem State.event_freshCount (name : String) (c k src : Nat) (i : List Nat) : (s.event name c k src i).freshCount = s.freshCount := by
  unfold State.event
  simp only [State.copyEvents_freshCount]
  split <;> rfl
@[simp] theorem State.info_freshCount (name : String) (i : List Nat) : (s.info name i).freshCount = s.freshCount := by simp [State.info]
@[simp] theorem State.regEvent_freshCount (name : String) (r : Nat) (i : List Nat) : (s.regEvent name r i).freshCount = s.freshCount := by simp [State.regEvent]
@[simp] theorem State.halEvent_freshCount (name : String) (c r : Nat) (i : List Nat) : (s.halEvent name c r i).freshCount = s.freshCount := by simp [State.halEvent]
@[simp] theorem State.event_pending (name : String) (c k src : Nat) (i : List Nat) : (s.event name c k src i).pending = s.pending := by
  unfold State.event
  simp only [State.copyEvents_pending]
  split <;> rfl
@[simp] theorem State.info_pending (name : String) (i : List Nat) : (s.info name i).pending = s.pending := by simp [State.info]
@[simp] theorem State.regEvent_pending (name : String) (r : Nat) (i : List Nat) : (s.regEvent name r i).pending = s.pending := by simp [State.regEvent]
@[simp] theorem State.halEvent_pending (name : String) (c r : Nat) (i : List Nat) : (s.halEvent name c r i).pending = s.pending := by simp [State.halEvent]

/-- The log after an event (R541, R542). -/
theorem State.event_log (name : String) (c k src : Nat) (i : List Nat) :
    (s.event name c k src i).log.seq = (s.log.seq + 1) % 2 ^ 32 := by
  unfold State.event
  simp only [State.copyEvents_log]
  split <;> rfl

/-! ### The end of a command -/

/-- A quiet state has nothing for job control to act on: a command that leaves it so ends there. -/
theorem State.settle_quiet (h : s.quiet) : s.settle = s := by
  obtain ⟨h1, h2, h3⟩ := h
  have hc : s.clearWants = s := by
    unfold State.clearWants
    rw [← h1, ← h2, ← h3]
  simp [State.settle, hc, h1, h2, h3]

theorem done_quiet (h : s.quiet) : done s = .next s := by rw [done, State.settle_quiet s h]

/-- Every command that has its effect leaves job control quiet. -/
theorem State.quiet_settle : s.settle.quiet := ⟨rfl, rfl, rfl⟩

/-- Job control looks at its own fields alone. -/
theorem State.quiet_of_job {s t : State} (h : s.quiet) (hj : t.job = s.job) : t.quiet := by
  unfold State.quiet at *
  rw [hj]
  exact h

end Sys2Proof.Machine
end

