-- ==== Sys2Proof/Laws/Issue.lean ====
section
/-!
SUPPORT. The issue of an instruction (R74, R86, R252, R253, R262, R297): what stands in front of a queue that can issue, and what issue
itself does to the core.
-/

namespace Sys2Proof.Machine

/-- No decode trap holds, so none is the lowest (R252). -/
theorem lowestCause_none {l : Causes} (h : noTrap l) : lowestCause l = none := by
  have e : l.filter (fun p => p.2) = [] := List.filter_eq_nil_iff.2 (fun p hp => by simp [h p hp])
  simp [lowestCause, e]

/-- An instruction that can issue, holds no decode trap and meets its ordering condition stands in front of its queue alone. -/
theorem State.standAlone_go {s : State} {n : Nat} {q : QName} {op : Nat} (h : s.ready n q op)
    (hc : noTrap (s.causes n q (s.atFront n q))) (hr : s.ordered n q (s.atFront n q) = true) : s.standAlone n q = .go := by
  obtain ⟨⟨hn, hst, hi, hh, ht, hpc⟩, hop, hl, hw, ⟨hg1, hg2⟩, hq, -, hst', -⟩ := h
  unfold State.standAlone
  simp only [State.atFront] at *
  have e1 : ((q != .plotter && (s.core n).stopped) || decide (((s.core n).queue q).st = .idle)
      || decide (((s.core n).queue q).st = .halted) || decide (((s.core n).queue q).st = .trapped)) = false := by simp [hst, hi, hh, ht]
  have hpc' : ¬ ((s.core n).queue q).pc ≥ ((s.core n).queue q).qlen := by omega
  have hcodes : (decide (op = 0x43) && codesMissing n s (s.core n) ((s.core n).fetch q)) = false := by
    by_cases ho : op = 0x43
    · simp only [State.ordered, hop, ho] at hr
      simp_all
    · simp [ho]
  have hthr : (((waitOf ((s.core n).fetch q)).2.1 != 0)
      && decide ((s.core n).pennantOf q (waitOf ((s.core n).fetch q)).1 < (waitOf ((s.core n).fetch q)).2.1)) = false := by
    simp only [CoreSt.pennantOf, hq, if_false]
    rcases hg1 with h0 | h1
    · simp [h0]
    · have : ¬ (s.core n).pennant (waitOf ((s.core n).fetch q)).1 < (waitOf ((s.core n).fetch q)).2.1 := by omega
      simp [this]
  have hslot : ((s.core n).queue q).full q op = false := by
    rw [hop] at hg2
    unfold Queue.full
    simp only [hq, if_false]
    rcases hg2 with h0 | h1
    · simp [h0]
    · have : ¬ ((s.core n).queue q).inflight ≥ slotsOf q := by omega
      simp [this]
  have hlow : lowestCause ((cWRONG_QUEUE, false) :: s.causes n q ((s.core n).fetch q)) = none :=
    lowestCause_none (by
      intro p hp
      rcases List.mem_cons.1 hp with rfl | hp
      · rfl
      · exact hc p hp)
  simp only [e1, hpc', hop, hl, hw, hthr, hr, hslot, hlow, Bool.false_eq_true, if_false, Bool.and_false, Bool.not_true,
    Bool.not_false, Bool.true_and, Bool.and_true]
  simp only [hcodes, hst', Bool.false_eq_true, if_false]

/-- And it stands there as this row's own. -/
theorem State.front_go {s : State} {n : Nat} {q : QName} {op : Nat} (h : s.ready n q op)
    (hc : noTrap (s.causes n q (s.atFront n q))) (hr : s.ordered n q (s.atFront n q) = true):
    s.front n q op = .go (s.atFront n q) (s.core n).issueSeq := by
  have hs := State.standAlone_go h hc hr
  obtain ⟨-, hop, -, -, -, hq, ho, -⟩ := h
  have hy : s.yields n q = false := by simp [State.yields, hq]
  simp only [State.atFront] at *
  simp [State.front, State.rowOf, State.stand, State.standProgram, hop, hs, ho, hy]

/-- Such an instruction issues, and has its effect on the state after issue. -/
theorem issue_go {s : State} {n : Nat} {q : QName} {op : Nat} (draws : InstrWord → Bool) (eff : State → InstrWord → Nat → State)
    (h : s.ready n q op) (hc : noTrap (s.causes n q (s.atFront n q))) (hr : s.ordered n q (s.atFront n q) = true):
    issue s n q op draws eff
      = done (eff (s.issued n q (s.atFront n q) (draws (s.atFront n q))) (s.atFront n q) (s.core n).issueSeq) := by
  have hn : n < numCores := h.1.1
  have hs : (s.core n).sramErr = [] := h.2.2.2.2.2.2.2.2
  simp only [issue, withCore, hn, if_true, State.front_go h hc hr, hs, State.sramRead, List.isEmpty_nil]

/-! ### What issue does to the core -/

/-- A count of a core changes its counters alone. -/
theorem State.count_core {s : State} {b : Nat} (hb : b < 1344) (ev q v c : Nat) :
    s.count b ev q v c = s.updCore b (fun x =>
      { x with counters := (countIn (s.gaz.ctl b) 8 ev q v c (x.counters, x.wrapped)).1,
               wrapped := (countIn (s.gaz.ctl b) 8 ev q v c (x.counters, x.wrapped)).2 }) := by
  simp only [State.count, hb, if_true]

/-- A count of a core leaves everything else alone. -/
theorem State.count_other {s : State} {b : Nat} (hb : b < 1344) (ev q v c : Nat) :
    s.count b ev q v c = { s with cores := (s.count b ev q v c).cores } := by rw [State.count_core hb]; rfl

theorem State.updCore_updCore_cores (s : State) (n : Nat) (f g : CoreSt → CoreSt) :
    ((s.updCore n f).updCore n g).core n = g (f (s.core n)) := by simp

/-- The core after issue. -/
theorem State.issued_core {s : State} {n : Nat} (hn : n < numCores) (q : QName) (w : InstrWord) (d : Bool) :
    (s.issued n q w d).core n =
      { (if (waitOf w).2.2 && (waitOf w).2.1 != 0 then
            (s.core n).setPennantOf q (waitOf w).1 ((s.core n).pennantOf q (waitOf w).1 - (waitOf w).2.1) else s.core n).setQueue q
          { (s.core n).queue q with
            pc := ((s.core n).queue q).pc + 1
            st := .run
            opSeq := if d then (((s.core n).queue q).opSeq + 1) % 2 ^ 31 else ((s.core n).queue q).opSeq } with
        issueSeq := (s.core n).issueSeq + 1
        counters := ((s.issued n q w d).core n).counters
        wrapped := ((s.issued n q w d).core n).wrapped } := by
  have hb : n < 1344 := hn
  unfold State.issued
  simp only [State.count_core hb, State.core_updCore]
  split <;> cases q <;> rfl

/-- Issue leaves the other cores, and all that is no core, alone. -/
theorem State.issued_other {s : State} {n : Nat} (hn : n < numCores) (q : QName) (w : InstrWord) (d : Bool) :
    s.issued n q w d = { s with cores := (s.issued n q w d).cores } := by
  have hb : n < 1344 := hn
  unfold State.issued
  simp only [State.count_core hb]
  rfl

theorem State.issued_core_other {s : State} {n m : Nat} (hn : n < numCores) (q : QName) (w : InstrWord) (d : Bool) (h : m ≠ n) :
    (s.issued n q w d).core m = s.core m := by
  have hb : n < 1344 := hn
  unfold State.issued
  simp only [State.count_core hb]
  rw [State.core_updCore_other _ _ h, State.core_updCore_other _ _ h]

theorem CoreSt.pennant_setPennant (c : CoreSt) (i j v : Nat) : (c.setPennant i v).pennant j = if j = i then v else c.pennant j := by
  unfold CoreSt.setPennant CoreSt.pennant
  split
  · subst_vars; simp
  · exact Tab.get_set_other _ _ _ ‹_›

@[simp] theorem CoreSt.pennant_setQueue (c : CoreSt) (q : QName) (x : Queue) (i : Nat) : (c.setQueue q x).pennant i = c.pennant i := by
  simp [CoreSt.pennant]

/-- The pennants after issue: the wait is consumed (R86). -/
theorem State.issued_pennant {s : State} {n : Nat} (hn : n < numCores) {q : QName} (hq : q ≠ .plotter) (w : InstrWord) (d : Bool)
    (i : Nat) :
    ((s.issued n q w d).core n).pennant i = (s.core n).waited w i := by
  rw [State.issued_core hn]
  simp only [CoreSt.pennant, CoreSt.setQueue_pen, CoreSt.waited, CoreSt.setPennantOf, CoreSt.pennantOf, hq, if_false]
  by_cases h1 : (waitOf w).2.2 = true
  · by_cases h2 : (waitOf w).2.1 = 0
    · simp [h1, h2]
    · by_cases h3 : (waitOf w).1 = i
      · simp [h1, h2, h3, CoreSt.setPennant]
      · have h4 : i ≠ (waitOf w).1 := fun e => h3 e.symm
        simp [h1, h2, h3, CoreSt.setPennant, Tab.get_set_other _ _ _ h4]
  · simp [h1]

/-- The queue after issue: its program counter has moved on by one instruction, and it runs (R253). -/
theorem State.issued_queue {s : State} {n : Nat} (hn : n < numCores) (q : QName) (w : InstrWord) (d : Bool) :
    ((s.issued n q w d).core n).queue q =
      { (s.core n).queue q with
        pc := ((s.core n).queue q).pc + 1
        st := .run
        opSeq := if d then (((s.core n).queue q).opSeq + 1) % 2 ^ 31 else ((s.core n).queue q).opSeq } := by
  rw [State.issued_core hn]
  cases q <;> rfl

theorem State.issued_queue_other {s : State} {n : Nat} (hn : n < numCores) (q p : QName) (w : InstrWord) (d : Bool) (h : p ≠ q) :
    ((s.issued n q w d).core n).queue p = (s.core n).queue p := by
  rw [State.issued_core hn]
  split <;> cases q <;> cases p <;> first | rfl | exact absurd rfl h

end Sys2Proof.Machine
end

