-- ==== Sys2Proof/Laws/Lines.lean ====
section
/-!
SUPPORT. Stacks whose lines read as they were written: what a read and a write of one comes to (R304 to R311, R314).
-/

namespace Sys2Proof.Machine

/-- A clean stack meets nothing on the way. -/
theorem StackSt.scan_clean {x : StackSt} (h : x.clean) (sel : Nat → Bool) : x.scan sel = { after := x, lost := [], fixed := [] } := by
  obtain ⟨hb, -, hi, -⟩ := h
  simp [StackSt.scan, StackSt.errLines, StackSt.innerReports, StackSt.noteInner, hb, hi]

/-- A read of it gives what has been written, and changes nothing. -/
theorem StackSt.readRange_clean {x : StackSt} (h : x.clean) (a n : Nat) :
    x.readRange a n = { after := x, lost := [], data := Memory.readN x.mem a n } := by
  simp [StackSt.readRange, StackSt.scan_clean h]

/-- A line of it that has been written is a line without errors still. -/
theorem StackSt.wrote_clean {x : StackSt} (h : x.clean) (line : Nat) : x.wrote line = x := by
  obtain ⟨hb, hs, hi, hm, -⟩ := h
  obtain ⟨mem, bad, stuck, inner, merges⟩ := x
  simp only at hb hs hi hm
  subst hb hs hi hm
  simp [StackSt.wrote, Tab.get, Tab.erase]

/-- A write to it changes the memory, and mirror fetches of the groups written learn of it (R314). -/
theorem StackSt.write_clean {x : StackSt} (h : x.clean) (a : Nat) (l : List Byte) (who : Consumer) :
    x.write a l who = { x with mem := Memory.writeN x.mem a l
                               fetches := x.fetches.map (fun f => (linesOf a l.length).foldl FetchSt.overtake f) } := by
  have key : ∀ (ls : List Nat) (y : StackSt), y.clean →
      ls.foldl (fun (y : StackSt) line => { y.wrote line with fetches := y.fetches.map (fun f => f.overtake line) }) y
        = { y with fetches := y.fetches.map (fun f => ls.foldl FetchSt.overtake f) } := by
    intro ls
    induction ls with
    | nil => intro y _; simp
    | cons i t ih =>
      intro y hy
      have := ih { y with fetches := y.fetches.map (fun f => f.overtake i) } hy
      rw [List.foldl_cons]
      simp only [StackSt.wrote_clean hy]
      refine this.trans ?_
      simp [List.map_map, Function.comp_def]
  simp only [StackSt.write, StackSt.scan_clean h, List.foldl_nil, List.contains_nil, Bool.false_eq_true, if_false]
  exact key _ _ h

/-- So does a write by a consumer, which asks for nothing. -/
theorem State.askMerges_clean {s : State} {k : Nat} (h : (s.stack k).merges = []) : s.askMerges k = s := by
  simp [State.askMerges, h]

/-- An event of a block that is no core changes the counts of the blocks alone. -/
theorem State.count_blocks (s : State) {b : Nat} (h : 1344 ≤ b) (ev q v n : Nat) :
    ∃ x, s.count b ev q v n = { s with gaz := { s.gaz with blocks := x } } := by
  unfold State.count
  simp only [if_neg (show ¬ b < 1344 by omega)]
  exact ⟨_, rfl⟩

/-- So does the count of a consumer's lines (R756). -/
theorem State.linesAt_blocks (s : State) (k a n : Nat) (c : Consumer) :
    ∃ x, s.linesAt k a n c = { s with gaz := { s.gaz with blocks := x } } := by
  unfold State.linesAt
  split
  · exact ⟨_, rfl⟩
  · exact s.count_blocks (by simp [blkStack]; omega) _ _ _ _

@[simp] theorem State.linesAt_stack (s : State) (k a n : Nat) (c : Consumer) (j : Nat) : (s.linesAt k a n c).stack j = s.stack j := by
  obtain ⟨x, hx⟩ := s.linesAt_blocks k a n c
  rw [hx]; rfl

/-- And the count of the flits of packets at routers. -/
theorem State.landed_blocks (s : State) (l : List Packet) : ∃ x, s.landed l = { s with gaz := { s.gaz with blocks := x } } := by
  have one : ∀ (r : List Nat) (p : Packet) (t : State), ∃ x, t.flitsOut p r = { t with gaz := { t.gaz with blocks := x } } := by
    intro r p
    induction r with
    | nil => intro t; exact ⟨_, rfl⟩
    | cons n r ih =>
      intro t
      obtain ⟨x, hx⟩ := t.count_blocks (b := blkRouter n) (by simp [blkRouter]) evFLITS_OUT (2 ^ p.vc + (if p.escape then 64 else 32)) 1 p.flits
      obtain ⟨y, hy⟩ := ih { t with gaz := { t.gaz with blocks := x } }
      exact ⟨y, by simp only [State.flitsOut, List.foldl_cons] at hy ⊢; rw [hx, hy]⟩
  induction l generalizing s with
  | nil => exact ⟨_, rfl⟩
  | cons p l ih =>
    obtain ⟨x, hx⟩ := one (s.wayLeft p) p s
    obtain ⟨y, hy⟩ := ih { s with gaz := { s.gaz with blocks := x } }
    exact ⟨y, by simp only [State.landed, List.foldl_cons] at hy ⊢; rw [hx, hy]⟩

/-- A checked read of a clean stack gives what has been written. -/
theorem State.readHbm_clean {s : State} {k : Nat} (h : s.clean k) (a n : Nat) (c : Consumer) :
    s.readHbm k a n c = ((s.linesAt k a n c).setStack k (s.stack k), some (Memory.readN (s.stack k).mem a n)) := by
  have hr : s.heldRead k a n c = none := by simp [State.heldRead, h.2.2.2.2]
  simp [State.readHbm, hr, State.readStart, State.afterRead, StackSt.readRange_clean h]

end Sys2Proof.Machine
end

