-- ==== Sys2Proof/Tests/Slice0.lean ====
section
/-!
SUPPORT. Tests: for every statement of Certificates/Slice0/Obligations.lean a small state that meets its hypotheses (`witness_…`), a
command of each kind that WellFormed refuses, and values that the spec itself gives (`test_…`).
-/

namespace Sys2Proof.Tests

set_option maxRecDepth 20000
set_option Elab.async false

open Machine

/-! ### Small states -/

/-- An instruction word: the opcode, and values at bit positions (R249). -/
def word (op : Nat) (fields : List (Nat × Nat)) : InstrWord :=
  BitVec.ofNat 128 (fields.foldl (fun a p => a + p.2 * 2 ^ p.1) (op * 2 ^ 120))

/-- An instruction at address 0 of a core's instruction store, in front of one of its queues. -/
def holding (c : CoreSt) (q : QName) (w : InstrWord) : CoreSt :=
  CoreSt.setQueue { c with istore := Memory.writeN [] 0 (leBytes w.toNat 16) } q { Queue.idle with qlen := 1, st := .run }

/-- `s`, but core `n` is `c` with an instruction in front of a queue. -/
def inFront (s : State) (n : Nat) (c : CoreSt) (q : QName) (w : InstrWord) : State := s.setCore n (holding c q w)

/-- A plan without anything in it. -/
def plan0 : Plan :=
  { hdr := { stepping := 0, waferSerial := 0, imageLength := 4096, jobId := 7, firstStep := 1, seqLen := 1, cores := 2, layers := 1,
             moduleId := 0, moduleCount := 2, schedule := 0, microbatches := 1 }
    digest := [], cores := [], pennants := [], legend := [], routing := .empty, regions := [], regionTables := [], streams := []
    counters := [], copyCtrs := [], gathers := [], holders := [], halyard := [], chains := [], ledgers := [], schedule := []
    layers := [], scaleGroups := [], scaleInit := [], seed := none, receive := [], inputs := [] }

/-- A layer of one tile, with its placements. -/
def layerOf (n owner mirror : Nat) (l : List Placement) : PlanLayer :=
  { layer := n, owner := owner, mirror := mirror, rung := fBF16, rungCap := fBF16, back := 3, tent := 0, promote := true
    tri := { rate := none, threshold := none, limit := none, tiles := [] }, variants := [], placements := l, chains := [0], tiles := 1 }

/-- Reset, with a plan loaded whose two logical cores are physical cores 0 and 1. -/
def planned (p : Plan) : State :=
  { State.reset with job := { JobSt.reset with plan := some p, jobState := jsLOADED, role := 1 }
                     wafer := { WaferSt.reset with logical := [(0, 0), (1, 0)] } }

/-- The same in a step: the record of step 1 is RUNNING. -/
def stepping (p : Plan) : State :=
  { planned p with job := { JobSt.reset with plan := some p, jobState := jsRUNNING, role := 1, next := 2
                                             rec1 := { StepRec.free with step := 1, st := .running } } }

/-- Router 0 sends to router 1 by its east port (R378). -/
def routed (s : State) : State := { s with fabric := { FabricSt.reset with routing := { Routing.empty with nextHop := [(1, 32)] } } }

/-! ### Control instructions -/

def pwait1 : State := inFront .reset 1343 { CoreSt.reset with pen := [(31, 2)] } .fetch (word 0x01 [(87, 31), (71, 2)])

theorem witness_PwaitConsumes :
    pwait1.quiet ∧ pwait1.ready 1343 .fetch 0x01 ∧ noTrap (pwaitCauses (pwait1.atFront 1343 .fetch)) := by decide +kernel

def praise1 : State := inFront .reset 0 .reset .array (word 0x02 [(87, 3), (71, 65535)])
def fence1 : State := inFront .reset 0 { CoreSt.reset with pen := [(1, 1)] } .vector (word 0x03 [(115, 1), (104, 1), (99, 2), (92, 1), (91, 1)])
def halt1 : State := inFront .reset 0 .reset .dispatch (word 0x06 [])

theorem witness_ControlRetiresAtOnce_praise : praise1.quiet ∧ ((praise1.core 0).queue .array).ops = []
    ∧ (raiseOf (praise1.atFront 0 .array)).2.2 = none
    ∧ (praise1.core 0).raised (praise1.atFront 0 .array) (raiseOf (praise1.atFront 0 .array)).1 ≤ 65535
    ∧ praise1.ready 0 .array 0x02 ∧ noTrap (praiseCauses praise1.planCores (praise1.atFront 0 .array)) := by decide +kernel

theorem witness_ControlRetiresAtOnce_fence : fence1.quiet ∧ ((fence1.core 0).queue .vector).ops = []
    ∧ (raiseOf (fence1.atFront 0 .vector)).2.2 = none
    ∧ (fence1.core 0).raised (fence1.atFront 0 .vector) (raiseOf (fence1.atFront 0 .vector)).1 ≤ 65535
    ∧ fence1.ready 0 .vector 0x03 ∧ noTrap (fenceCauses (fence1.atFront 0 .vector))
    ∧ fenceReady .vector (fence1.core 0) (fence1.atFront 0 .vector) = true := by decide +kernel

theorem witness_ControlRetiresAtOnce_halt : halt1.quiet ∧ ((halt1.core 0).queue .dispatch).ops = []
    ∧ (raiseOf (halt1.atFront 0 .dispatch)).2.2 = none
    ∧ (halt1.core 0).raised (halt1.atFront 0 .dispatch) (raiseOf (halt1.atFront 0 .dispatch)).1 ≤ 65535
    ∧ halt1.ready 0 .dispatch 0x06 ∧ noTrap (bareCauses (halt1.atFront 0 .dispatch)) := by decide +kernel

def loop1 (count : Nat) : State := inFront .reset 0 .reset .fetch (word 0x04 [(68, count)])
def endloop1 : State :=
  let s := inFront .reset 0 .reset .fetch (word 0x05 [])
  s.updCore 0 (fun c => { c with fq := { c.fq with loops := [{ body := 0, left := 2 }] } })

theorem witness_LoopsCount : (∀ count ∈ [0, 1, 2 ^ 24 - 1],
      (loop1 count).quiet ∧ (((loop1 count).core 0).queue .fetch).ops = []
        ∧ ((loop1 count).core 0).raised ((loop1 count).atFront 0 .fetch) (raiseOf ((loop1 count).atFront 0 .fetch)).1 ≤ 65535
        ∧ (loop1 count).ready 0 .fetch 0x04 ∧ noTrap (loopCauses ((loop1 count).atFront 0 .fetch))
        ∧ loopCount ((loop1 count).atFront 0 .fetch) = count ∧ (((loop1 count).core 0).queue .fetch).loops.length < 4)
    ∧ endloop1.quiet ∧ endloop1.ready 0 .fetch 0x05 ∧ noTrap (bareCauses (endloop1.atFront 0 .fetch))
    ∧ ((endloop1.core 0).queue .fetch).loops = [{ body := 0, left := 2 }] := by decide +kernel

/-- An operation that carries a raise. -/
def op1 : Op := { opcode := 0x20, raiseIdx := 4, raiseInc := 1, seq := 0, done := true, key := 0, control := false, remote := none }
def retire1 : State := State.reset.updCore 0 (fun c => { c with aq := { Queue.idle with ops := [op1] }, pen := [(4, 65534)] })
def remote1 : State := inFront (routed (planned plan0)) 0 .reset .fetch (word 0x02 [(87, 5), (71, 7), (70, 1), (59, 1)])
/-- A packet of one flit on its way. -/
def pkt1 (vc seq dst : Nat) : Packet :=
  { vc := vc, escape := false, seq := seq, dst := dst, flits := 1, last := true, here := 0, hops := 0, crc := [], track := [] }
def raise1 : RaiseMsg := { src := 0, dst := 1, idx := 5, inc := 7, pkt := pkt1 0 0 1, place := .flying }
def raise2 : RaiseMsg := { raise1 with idx := 6, pkt := pkt1 0 1 1 }
def arriving1 (l : List RaiseMsg) : State := { planned plan0 with flight := { FlightSt.reset with raises := l } }

theorem witness_RaisesArrive :
    (retire1.quiet ∧ ((retire1.core 0).queue .array).ops = [op1] ∧ op1.done = true ∧ op1.remote = none ∧ (retire1.core 0).vc4 = []
      ∧ (retire1.core 0).pennant op1.raiseIdx + op1.raiseInc ≤ 65535)
    ∧ (remote1.quiet ∧ remote1.ready 0 .fetch 0x02 ∧ noTrap (praiseCauses remote1.planCores (remote1.atFront 0 .fetch))
      ∧ ((remote1.core 0).queue .fetch).ops = [] ∧ (raiseOf (remote1.atFront 0 .fetch)).2.2 = some 1
      ∧ remote1.dropAt 0 (remote1.phys 1) = none)
    ∧ (∀ s ∈ [arriving1 [raise1], arriving1 [raise1, raise2]], s.quiet ∧ (s.flight.raisesOf 0 1).head? = some raise1
      ∧ (∀ x ∈ s.flight.raises, x.place = .flying) ∧ s.coreStateOf 0 ≠ .fenced
      ∧ s.coreStateOf 1 ≠ .fenced ∧ (s.core 1).pennant raise1.idx + raise1.inc ≤ 65535)
    ∧ ((arriving1 [raise1, raise2]).flight.raisesOf 0 1)[1]? = some raise2 := by decide +kernel

def range1 : State := State.reset.updCore 0 (fun c => { c with fq := { Queue.idle with st := .run } })
def opcode1 : State := inFront .reset 0 .reset .fetch (word 0x07 [])

theorem witness_QueueTraps :
    (range1.quiet ∧ (∀ p ∈ [QName.array, .vector, .dispatch, .plotter], range1.stand 0 p = .still) ∧ (range1.core 0).stopped = false ∧ ((range1.core 0).queue .fetch).st = .run ∧ range1.inJob = false
      ∧ ((range1.core 0).queue .fetch).qlen ≤ ((range1.core 0).queue .fetch).pc)
    ∧ (opcode1.quiet ∧ (∀ p ∈ [QName.array, .vector, .dispatch, .plotter], opcode1.stand 0 p = .still) ∧ (opcode1.core 0).stopped = false ∧ ((opcode1.core 0).queue .fetch).st = .run ∧ opcode1.inJob = false
      ∧ ((opcode1.core 0).queue .fetch).pc < ((opcode1.core 0).queue .fetch).qlen
      ∧ opcodeListed (opcodeOf (opcode1.atFront 0 .fetch)) = false ∧ waitThresholdOf (opcode1.atFront 0 .fetch) = 0) := by decide +kernel

/-! ### Fetch, array and vector instructions -/

/-- A window descriptor of one dimension of two positions, C = 4 INT8 values (R273), at activation store address 0. -/
def desc1 : List Byte :=
  leBytes (4 * 2 ^ 32 + 2 ^ 25 + 6 * 2 ^ 52 + (2 + 2 * 2 ^ 20 + 2 ^ 40 + 2 ^ 48 + 2 ^ 56) * 2 ^ 128) 64

def fload1 (op m : Nat) : State :=
  inFront .reset 0 { CoreSt.reset with act := Memory.writeN [] 0 desc1 } .fetch (word op [(61, m), (52, 4)])

theorem witness_FetchFillsStaging : ∀ m ∈ [0, 2],
    (fload1 0x10 m).quiet ∧ ((fload1 0x10 m).core 0).floadRun = [] ∧ ((fload1 0x10 m).core 0).fwgtWait = []
    ∧ ((fload1 0x10 m).core 0).mmulRun = none ∧ ((fload1 0x10 m).core 0).staging.length < 8
    ∧ (floadF ((fload1 0x10 m).atFront 0 .fetch)).m ≤ slotSpan (floadF ((fload1 0x10 m).atFront 0 .fetch)).pack
    ∧ (fload1 0x10 m).ready 0 .fetch 0x10
    ∧ noTrap (floadCauses ((fload1 0x10 m).core 0) false ((fload1 0x10 m).atFront 0 .fetch))
    ∧ (fload1 0x11 m).ready 0 .fetch 0x11
    ∧ noTrap (floadCauses ((fload1 0x11 m).core 0) true ((fload1 0x11 m).atFront 0 .fetch)) := by decide +kernel

def fwgt1 (full : Bool) : State :=
  inFront .reset 0 { CoreSt.reset with shadowFull := full } .fetch (word 0x12 [(74, 6), (66, 128)])
def mswap1 : State := inFront .reset 0 { CoreSt.reset with shadowFull := true } .array (word 0x21 [])

theorem witness_WeightSetsLoadAndSwap_fwgt : ∀ b ∈ [false, true],
    (fwgt1 b).quiet ∧ ((fwgt1 b).core 0).floadRun = [] ∧ ((fwgt1 b).core 0).fwgtWait = [] ∧ ((fwgt1 b).core 0).mmulRun = none
      ∧ (fwgt1 b).ready 0 .fetch 0x12 ∧ noTrap (fwgtCauses ((fwgt1 b).atFront 0 .fetch))
      ∧ ((fwgt1 b).core 0).shadowFull = b := by decide +kernel

theorem witness_WeightSetsLoadAndSwap_mswap :
    mswap1.quiet ∧ (mswap1.core 0).floadRun = [] ∧ (mswap1.core 0).fwgtWait = [] ∧ (mswap1.core 0).mmulRun = none
    ∧ mswap1.ready 0 .array 0x21 ∧ noTrap (mswapCauses (mswap1.atFront 0 .array))
    ∧ mswapReady (mswap1.core 0) = true := by decide +kernel

/-- An instruction that the sheet's Plotter has fed to a core's Plotter queue. -/
def fed (c : CoreSt) (w : InstrWord) : State :=
  State.reset.setCore 0 { c with plotFeed := [w], pq := { Queue.idle with qlen := 1, st := .run } }

theorem witness_WeightSetsLoadAndSwap_plotter :
    ((fed .reset (word 0x12 [(74, 6), (66, 128)])).quiet ∧ (fed .reset (word 0x12 [(74, 6), (66, 128)])).plotReady 0 0x12
      ∧ noTrap (fwgtCauses ((fed .reset (word 0x12 [(74, 6), (66, 128)])).atFront 0 .plotter)))
    ∧ ((fed .reset (word 0x21 [])).quiet ∧ (fed .reset (word 0x21 [])).plotReady 0 0x21
      ∧ noTrap (mswapCauses ((fed .reset (word 0x21 [])).atFront 0 .plotter))) := by decide +kernel

/-- One row of INT8 weights and activations, 3 and 5. -/
def slot1 : Slot := { form := 6, packed := false, rows := [{ form := 6, codes := [5], scales := [], pens := [] }], pads := [false] }
def mmul1 (m : Nat) : State :=
  inFront .reset 0 { CoreSt.reset with active := { form := some 6, n := 1, cols := [3 :: zeros 255] }, staging := [slot1] } .array
    (word 0x20 [(79, m), (71, 1), (62, 1), (58, 6), (54, 6)])

/-- The core that rows of an MMUL leave. -/
def okOf (x : RowRes) : CoreSt := match x with | .ok c => c | .bad c _ _ => c

def rows1 : RowRes × Nat × Nat :=
  mmulSlotRows 0 (mmulF ((mmul1 1).atFront 0 .array)) ((mmul1 1).core 0).active.vecs (slot1.rows.zip (wastedRows false (slot1.pads.take 1))) 0 0
    ((mmul1 1).core 0)

theorem witness_MmulAccumulates : (∀ m ∈ [0, 1],
      (mmul1 m).quiet ∧ (mmul1 m).ready 0 .array 0x20 ∧ noTrap (mmulCauses ((mmul1 m).core 0) ((mmul1 m).atFront 0 .array))
        ∧ mmulReady ((mmul1 m).core 0) ((mmul1 m).atFront 0 .array) = true ∧ ((mmul1 m).core 0).floadRun = []
        ∧ ((mmul1 m).core 0).fwgtWait = [] ∧ (mmulF ((mmul1 m).atFront 0 .array)).m = m)
    ∧ (mmulF ((mmul1 1).atFront 0 .array)).n ≠ 0 ∧ (mmulF ((mmul1 1).atFront 0 .array)).k ≠ 0 ∧ ((mmul1 1).core 0).staging = [slot1]
    ∧ slot1.form = (mmulF ((mmul1 1).atFront 0 .array)).af ∧ rows1 = (.ok (okOf rows1.1), 1, 1)
    ∧ isDouble (mmulF ((mmul1 1).atFront 0 .array)).wf (mmulF ((mmul1 1).atFront 0 .array)).af = false := by decide +kernel

def plotMmul1 : State :=
  fed { CoreSt.reset with plotSet := { form := some 6, n := 1, cols := [3 :: zeros 255] }, plotStaging := some [5 :: zeros 255] }
    (word 0x20 [(79, 1), (71, 1), (62, 1), (58, 6), (54, 6)])

def plotRows1 : RowRes × Nat × Nat :=
  mmulSlotRows 0 (mmulF (plotMmul1.atFront 0 .plotter)) (plotMmul1.core 0).plotSet.vecs
    (([5 :: zeros 255].take 1).map (fun b => (Vec.ofBytes 6 (kT 6) b, false))) 0 0 (plotMmul1.core 0)

theorem witness_MmulAccumulates_plotter : plotMmul1.quiet ∧ plotMmul1.plotReady 0 0x20
    ∧ noTrap (mmulCauses (plotMmul1.core 0).plotView (plotMmul1.atFront 0 .plotter))
    ∧ plotMmulReady (plotMmul1.core 0) (plotMmul1.atFront 0 .plotter) = true ∧ (mmulF (plotMmul1.atFront 0 .plotter)).m = 1
    ∧ (mmulF (plotMmul1.atFront 0 .plotter)).n ≠ 0 ∧ (mmulF (plotMmul1.atFront 0 .plotter)).k ≠ 0
    ∧ (mmulF (plotMmul1.atFront 0 .plotter)).af = 6 ∧ (mmulF (plotMmul1.atFront 0 .plotter)).wf = 6
    ∧ plotRows1 = (.ok (okOf plotRows1.1), 1, 1) := by decide +kernel

/-- The product of R132 and its place (R124, R211): 3 · 5 at row 0, column 0. -/
theorem test_mmul_int8 : (okOf rows1.1).accGet 0 0 = 15 := by decide +kernel

def vec1 (w : InstrWord) : State := inFront .reset 0 { CoreSt.reset with acc := [(0, 0x3F800000#32)] } .vector w
def vop1 : State := vec1 (word 0x30 [(85, 1), (86, 7), (26, 2), (13, 1)])
def vred1 : State := vec1 (word 0x31 [(88, 1), (90, 1), (47, 2), (34, 1)])
def vquant1 : State := vec1 (word 0x32 [(91, 1), (49, 4), (24, 1), (17, 1)])
def vtstore1 : State := vec1 (word 0x33 [(91, 1), (46, 4), (34, 1), (26, 1), (22, 11)])
def vrand1 : State := vec1 (word 0x34 [(73, 1), (60, 2), (43, 32768)])

theorem witness_VectorOperationsWrite_vop :
    vop1.quiet ∧ vop1.memOk ∧ vop1.ready 0 .vector 0x30 ∧ noTrap (vopCauses (vop1.core 0) (vop1.atFront 0 .vector))
      ∧ (vopF (vop1.atFront 0 .vector)).m = 1 ∧ (vopF (vop1.atFront 0 .vector)).bf16 = false
      ∧ (srcScan (vop1.core 0) (vopF (vop1.atFront 0 .vector)).src 1).2 = none := by decide +kernel

theorem witness_VectorOperationsWrite_vred :
    vred1.quiet ∧ vred1.memOk ∧ vred1.ready 0 .vector 0x31 ∧ noTrap (vredCauses (vred1.core 0) (vred1.atFront 0 .vector))
      ∧ (vredF (vred1.atFront 0 .vector)).m ≠ 0 ∧ (srcScan (vred1.core 0) (vredF (vred1.atFront 0 .vector)).src 1).2 = none := by decide +kernel

theorem witness_VectorOperationsWrite_vquant :
    vquant1.quiet ∧ vquant1.memOk ∧ vquant1.ready 0 .vector 0x32
      ∧ noTrap (vquantCauses (vquant1.core 0) (vquant1.atFront 0 .vector)) ∧ (vquantF (vquant1.atFront 0 .vector)).m = 1
      ∧ (vquantF (vquant1.atFront 0 .vector)).image = false ∧ (vquantF (vquant1.atFront 0 .vector)).rmode ≠ 2
      ∧ (srcScan (vquant1.core 0) (vquantF (vquant1.atFront 0 .vector)).src 1).2 = none := by decide +kernel

theorem witness_VectorOperationsWrite_vtstore :
    vtstore1.quiet ∧ vtstore1.memOk ∧ vtstore1.ready 0 .vector 0x33
      ∧ noTrap (vtstoreCauses (vtstore1.core 0) (vtstore1.atFront 0 .vector)) ∧ (vtstoreF (vtstore1.atFront 0 .vector)).m ≠ 0
      ∧ (vtstoreF (vtstore1.atFront 0 .vector)).form = 11
      ∧ (srcScan (vtstore1.core 0) (vtstoreF (vtstore1.atFront 0 .vector)).src 1).2 = none := by decide +kernel

theorem witness_VectorOperationsWrite_vrand :
    vrand1.quiet ∧ vrand1.memOk ∧ vrand1.ready 0 .vector 0x34 ∧ noTrap (vrandCauses (vrand1.atFront 0 .vector))
      ∧ (vrandF (vrand1.atFront 0 .vector)).m ≠ 0 := by decide +kernel

def plotVec1 (w : InstrWord) : State := fed { CoreSt.reset with acc := [(0, 0x3F800000#32)] } w
def plotVop1 : State := plotVec1 (word 0x30 [(85, 1), (86, 7), (26, 2), (13, 1)])
def plotVred1 : State := plotVec1 (word 0x31 [(88, 1), (90, 1), (47, 2), (34, 1)])
def plotVquant1 : State := plotVec1 (word 0x32 [(91, 1), (49, 4), (24, 1), (17, 1)])

theorem witness_VectorOperationsWrite_plotter :
    (plotVop1.plotReady 0 0x30 ∧ noTrap (vopCauses (plotVop1.core 0).plotView (plotVop1.atFront 0 .plotter))
      ∧ (vopF (plotVop1.atFront 0 .plotter)).m = 1 ∧ (srcScan (plotVop1.core 0) (vopF (plotVop1.atFront 0 .plotter)).src 1).2 = none)
    ∧ (plotVred1.plotReady 0 0x31 ∧ noTrap (vredCauses (plotVred1.core 0).plotView (plotVred1.atFront 0 .plotter))
      ∧ (vredF (plotVred1.atFront 0 .plotter)).m = 1 ∧ (srcScan (plotVred1.core 0) (vredF (plotVred1.atFront 0 .plotter)).src 1).2 = none)
    ∧ (plotVquant1.plotReady 0 0x32 ∧ noTrap (vquantCauses (plotVquant1.core 0).plotView (plotVquant1.atFront 0 .plotter))
      ∧ (vquantF (plotVquant1.atFront 0 .plotter)).m = 1
      ∧ (srcScan (plotVquant1.core 0) (vquantF (plotVquant1.atFront 0 .plotter)).src 1).2 = none) := by decide +kernel

def tri1 : TriSample := { layer := 0, ordinal := 0, wf := fBF16, af := fBF16, n := 1, m := 0, row := [0x40000000#32] }
def triTile1 : TriTile := { core := 0, ordinal := 0, addr := 0, pitch := 2, k := 1, row0 := 0, col0 := 0, tent := 0 }
/-- Layer 0 is a BF16 matrix of one element, 1.0, in row 0 of its backward copy on stack 0. -/
def triLayer1 : PlanLayer :=
  { layerOf 0 0 1 [{ part := 1, region := 0, stride := 0, offset := 0, first := 0, count := 1 }] with
    tri := { rate := none, threshold := none, limit := none, tiles := [triTile1] } }
def triSchedule1 : List Byte :=
  zeros 8 ++ leBytes 1 2 ++ zeros 10 ++ leBytes 64 4 ++ zeros 40 ++ zeros 4 ++ leBytes 1 4 ++ leBytes 1 4 ++ zeros 20
/-- Its sample has y = 2.0; the activation is 1.0. -/
def triangulated1 : State :=
  let s := planned { plan0 with layers := [triLayer1], schedule := triSchedule1, regions := [{ kind := 1, stack := 0, base := 0, len := 64 }] }
  { s with cores := [(0, { CoreSt.reset with tri := [tri1], act := [(0, 0x80), (1, 0x3F)] })]
           hbm := [(0, { StackSt.reset with mem := [(0, 0x80), (1, 0x3F)] })] }
def triRef1 : List (Word32 × Flushes) :=
  triReference 0 (triActs 0 (triangulated1.core 0) triTile1 0) ([[triangulated1.readStack 0 0 256]].map (triWeights 0 fBF16)) 0 1 0

theorem witness_TriangulationAlarms_sample : triangulated1.quiet ∧ (triangulated1.core 0).pq.st ≠ .run ∧ (triangulated1.core 0).tri.find? (fun y => y.ordinal = 0) = some tri1
    ∧ triangulated1.planLayer 0 = some triLayer1 ∧ triangulated1.logicalOf 0 = some 0
    ∧ triangulated1.triRanges triLayer1 triTile1 1 = some [[(0, 0, 256)]] ∧ triangulated1.clean 0
    ∧ triangulated1.backForm triLayer1 = fBF16 ∧ triExp (triangulated1.core 0) triLayer1 triTile1 tri1 = 0
    ∧ triRef1.map (fun p => p.1) = [0x3F800000#32] := by decide +kernel

/-- A row of 2.0 against a reference of 1.0 is past the threshold of 0.125; one of 2.0 is not (R201). -/
theorem witness_TriangulationAlarms : triAlarm FmtSt.reset.triThreshold tri1.row [0x3F800000#32] false = true
    ∧ triAlarm FmtSt.reset.triThreshold tri1.row [0x40000000#32] false = false := by decide +kernel

/-! ### Dispatch instructions and the gradient exit -/

def dsend1 : State :=
  routed (inFront (planned plan0) 0 { CoreSt.reset with act := [(3, 0x5A)] } .dispatch
    (word 0x40 [(60, 1), (46, 1), (21, 2), (18, 1), (13, 31)]))
def send1 : SendMsg := { src := 0, dst := 1, vc := 2, dmem := true, daddr := 64, data := [1, 0, 2], pen := some 31, key := 0, pkt := pkt1 2 0 1, place := .flying }
def sent1 : State := { planned plan0 with flight := { FlightSt.reset with sends := [send1] } }
def recv1 : RecvEntry := { tag := 9, core := 0, source := 5, region := 0, offset := 0, len := 1, ready := 3 }
def drecv1 : State := inFront (stepping { plan0 with receive := [recv1] }) 0 .reset .dispatch (word 0x44 [(76, 9), (43, 1)])

theorem witness_CoresSendAndReceive_send : dsend1.quiet ∧ dsend1.memOk ∧ dsend1.ready 0 .dispatch 0x40
    ∧ noTrap (dsendCauses dsend1.planCores (dsend1.atFront 0 .dispatch)) ∧ (dsendF (dsend1.atFront 0 .dispatch)).dkind = 0
    ∧ dsend1.dropAt 0 (dsend1.phys (dsendF (dsend1.atFront 0 .dispatch)).dest) = none := by decide +kernel

theorem witness_CoresSendAndReceive_arrive : sent1.quiet ∧ sent1.memOk
    ∧ sent1.flight.sendsOf 0 1 2 = [send1] ∧ (∀ x ∈ sent1.flight.sends, x.place = .flying) ∧ sent1.coreStateOf 0 ≠ .fenced
    ∧ sent1.coreStateOf 1 ≠ .fenced ∧ (sent1.core 1).pennant 31 < 65535 := by decide +kernel

theorem witness_CoresSendAndReceive_recv : drecv1.quiet ∧ drecv1.ready 0 .dispatch 0x44
    ∧ noTrap (drecvCauses 0 drecv1 (drecv1.core 0) (drecv1.atFront 0 .dispatch))
    ∧ drecv1.recvEntry 0 (drecvF (drecv1.atFront 0 .dispatch)).tag = some recv1
    ∧ (drecv1.core 0).recvHeld.find? (fun x => x.1 = 9) = none := by decide +kernel

/-- A GENERAL region of one group on stack 43, entry 0 of core 0's region table. -/
def region1 : Region := { kind := 7, stack := 43, base := 2, len := 1 }
/-- Core 0 stands at an attachment router of the station of its sheet; its target table and the tables of the stations that its plan's
targets have lead it there and back (R383). -/
def attached (s : State) (t : Nat) : State :=
  { s with fabric := { s.fabric with routing := { Routing.empty with
      target := [(t, 2048 * targetStation 0)], station := [(1344 * targetStation t, 2048 * targetStation 0)] } } }
def dmove1 (op : Nat) : State :=
  inFront (attached (stepping { plan0 with regions := [region1], regionTables := [[0]] }) 43) 0 { CoreSt.reset with act := [(3, 0x5A)] } .dispatch
    (word op [(60, 1), (25, 7)])

theorem witness_DstoreAndDloadMove : (dmove1 0x41).quiet ∧ (dmove1 0x41).memOk ∧ (dmove1 0x41).ready 0 .dispatch 0x41
    ∧ (dmove1 0x41).moveRange 0 (dmoveF ((dmove1 0x41).atFront 0 .dispatch)) = some (43, 1472)
    ∧ noTrap (dstoreCauses 0 (dmove1 0x41) ((dmove1 0x41).core 0) ((dmove1 0x41).atFront 0 .dispatch))
    ∧ (dmove1 0x42).ready 0 .dispatch 0x42 ∧ (dmove1 0x42).clean 43 ∧ (dmove1 0x42).reachesTarget 0 43 1
    ∧ ((dmove1 0x42).stationWay (targetStation 43) 0).map (fun x => (dmove1 0x42).dropAt x.1 0) = some none
    ∧ noTrap (dloadCauses 0 (dmove1 0x42) ((dmove1 0x42).core 0) ((dmove1 0x42).atFront 0 .dispatch)) := by decide +kernel

/-- Entry 0 of core 0: layer 3, one tile of 8 × 1, NEXT_KIND `kind`, chain 2, codes in region table entry 0, one merge slot (R439). -/
def halWord (kind : Nat) : Nat :=
  3 * 2 ^ 240 + 2 ^ 208 + 8 * 2 ^ 195 + 2 ^ 187 + 4 * 2 ^ 184 + kind * 2 ^ 173 + 2 * 2 ^ 150 + 2 ^ 108 + 2 ^ 90
/-- Chain 2: NEXT 5, OWNER 6, MIRROR 7, one upstream module, depth 1, group 1 (R441). -/
def chainWord (owner : Nat) : Nat :=
  2 * 2 ^ 244 + 5 * 2 ^ 230 + 5 * 2 ^ 216 + 5 * 2 ^ 202 + 6 * 2 ^ 188 + 7 * 2 ^ 174 + 9 * 2 ^ 160 + 2 ^ 115 + 2 ^ 107 + 2 ^ 105
    + owner * 2 ^ 101 + 64 * 2 ^ 77

def exitPlan (kind : Nat) : Plan :=
  { plan0 with regions := [region1], regionTables := [[0]], halyard := [(0, halWord kind)], chains := [chainWord 0]
               ledgers := [{ core := 0, htab := 0, region := 0, offset := 0, m := 8, n := 1, expect := 2 }] }

def dexit1 (codes : Option (List Nat)) : State :=
  inFront (attached (stepping (exitPlan 1)) 45) 0 { CoreSt.reset with codes := codes } .dispatch (word 0x43 [(67, 8), (59, 1), (8, 1)])

theorem witness_DexitSendsItsBlocks_codes : (dexit1 none).quiet
    ∧ (dexit1 none).codeRange 0 (dexitF ((dexit1 none).atFront 0 .dispatch)).htab = some (43, 1024, 1)
    ∧ ((dexit1 none).core 0).dq.st ≠ .idle ∧ ((dexit1 none).core 0).dq.pc < ((dexit1 none).core 0).dq.qlen
    ∧ opcodeOf ((dexit1 none).atFront 0 .dispatch) = 0x43 ∧ ((dexit1 none).core 0).codes = none ∧ (dexit1 none).clean 43
    ∧ (dexit1 none).stackFull 43 = false := by
  decide +kernel

theorem witness_DexitSendsItsBlocks_send : (dexit1 (some [130])).quiet ∧ (dexit1 (some [130])).ready 0 .dispatch 0x43
    ∧ (dexit1 (some [130])).codeRange 0 (dexitF ((dexit1 (some [130])).atFront 0 .dispatch)).htab = some (43, 1024, 1)
    ∧ noTrap (dexitPlanCauses 0 (dexit1 (some [130])) ((dexit1 (some [130])).core 0) ((dexit1 (some [130])).atFront 0 .dispatch))
    ∧ (dexit1 (some [130])).entryOf 0 0 = some (halEntryOf (halWord 1)) ∧ (dexit1 (some [130])).entryFaulty (halEntryOf (halWord 1)) = false
    ∧ (halEntryOf (halWord 1)).upstream = false ∧ (dexitF ((dexit1 (some [130])).atFront 0 .dispatch)).rmode ≠ 2
    ∧ (dexit1 (some [130])).dexitDest 0 (dexitF ((dexit1 (some [130])).atFront 0 .dispatch)) (halEntryOf (halWord 1)) 0 = some (.unit 1) ∧ (dexit1 (some [130])).reachesTarget 0 45 4
    ∧ ((dexit1 (some [130])).core 0).vc4 = [] ∧ (dexit1 (some [130])).vc4Full 0 ((dexit1 (some [130])).atFront 0 .dispatch) = false
    ∧ ((dexit1 (some [130])).core 0).accScan 0 8 1 1 = (0, none) := by decide +kernel

/-- Block 0 of a tile of 8 × 1. -/
def block1 : DexBlock :=
  { idx := 0, code := 130, sat := 0, nonfin := 0, rows := List.replicate 8 [1], contribs := 1, tokens := 5, last := true }
def contrib1 (dest : ContribDest) : ContribMsg :=
  { src := 0, dest := dest, htab := 0, layer := 3, tile := 0, chain := 2, step := 1, attempt := 0, round := 1, m := 8, n := 1
    blocks := [block1], pkts := [] }
def contributed (kind : Nat) (dest : ContribDest) : State :=
  { stepping (exitPlan kind) with flight := { FlightSt.reset with contribs := [contrib1 dest] } }

theorem witness_ContributionsArrive_merge : (contributed 1 (.core 0)).quiet ∧ (contributed 1 (.core 0)).memOk
    ∧ (contributed 1 (.core 0)).nextMerge 0 [] (contributed 1 (.core 0)).flight.contribs = some (contrib1 (.core 0)) ∧ (contrib1 (.core 0)).blocks = [block1]
    ∧ (contributed 1 (.core 0)).entryOf 0 0 = some (halEntryOf (halWord 1)) ∧ ((contributed 1 (.core 0)).core 0).dexits = []
    ∧ ((contributed 1 (.core 0)).core 0).merge = [] ∧ (halEntryOf (halWord 1)).mergeSlots = 1 ∧ (halEntryOf (halWord 1)).n = 1
    ∧ (halEntryOf (halWord 1)).slotAddr 0 + 6 * 1 * 8 ≤ memBytes true := by
  decide +kernel

def ledger1 : LedgerTile := { core := 0, htab := 0, region := 0, offset := 0, m := 8, n := 1, expect := 2 }

theorem witness_ContributionsArrive_ledger : (contributed 2 (.ledger 43)).quiet ∧ (contributed 2 (.ledger 43)).memOk
    ∧ (contributed 2 (.ledger 43)).clean 43
    ∧ (contributed 2 (.ledger 43)).flight.contribs.find? (fun m => decide (m.dest = .ledger 43) && m.blocks.any (fun b => b.last)) = some (contrib1 (.ledger 43))
    ∧ (contributed 2 (.ledger 43)).entryOf 0 0 = some (halEntryOf (halWord 2))
    ∧ (contributed 2 (.ledger 43)).ledgerTile (((contributed 2 (.ledger 43)).logicalOf 0).getD 0) 0 0 = some ledger1
    ∧ ledger1.expect ≠ 1
    ∧ (ledgerHdrOf ((contributed 2 (.ledger 43)).readStack 43 ((contributed 2 (.ledger 43)).ledgerPlace ledger1).2 576)).step ≠ 1 := by
  decide +kernel

theorem witness_ContributionsArrive_unit : (contributed 1 (.unit 1)).quiet ∧ (contributed 1 (.unit 1)).memOk
    ∧ (contributed 1 (.unit 1)).flight.contribs.filter
        (fun x => decide (x.dest = .unit 1) && x.layer = 3 && x.tile = 0 && x.step = 1) = [contrib1 (.unit 1)]
    ∧ ceilDiv (contrib1 (.unit 1)).m 8 ≤ (contrib1 (.unit 1)).blocks.length
    ∧ (contributed 1 (.unit 1)).chainEntry 2 = some (chainEntryOf (chainWord 0)) ∧ (chainEntryOf (chainWord 0)).upstream ≠ 0
    ∧ (contributed 1 (.unit 1)).roleOf 3 ≠ 3 ∧ (contributed 1 (.unit 1)).ownSent 3 0 (stampOf 1 1) = false
    ∧ (contributed 1 (.unit 1)).isLate 3 0 (stampOf 1 1) = false
    ∧ (contributed 1 (.unit 1)).openSum (chainEntryOf (chainWord 0)).group 3 0 1 1 = none
    ∧ (contributed 1 (.unit 1)).openCount (chainEntryOf (chainWord 0)).group < 1024
    ∧ (ownOfBlocks [block1]).contributors ≤ maxContributors := by decide +kernel

/-! ### Stream units, held copy writes, lines and links -/

/-- A stream descriptor: INT8 tiles of one column to core 1, credit wait 1 on pennant 2, LWAIT 3 on counter 4, LRAISE 1 of counter 5,
destination pennant 6 (R328). -/
def descWord (cwait : Nat) : Nat :=
  1 * 2 ^ 252 + 6 * 2 ^ 248 + 1 * 2 ^ 240 + 16 * 2 ^ 210 + 1 * 2 ^ 194 + 1 * 2 ^ 157 + 2 ^ 115 + 2 ^ 114 + 6 * 2 ^ 109 + 2 * 2 ^ 104
    + cwait * 2 ^ 93 + 4 * 2 ^ 85 + 3 * 2 ^ 69 + 5 * 2 ^ 61 + 2 ^ 53

def streamPlan (cwait : Nat) : Plan := { plan0 with streams := [(4 * 43 + 3, [descWord cwait])] }
def unit1 (st : UnitState) (pend : List Nat) (out : Nat) : UnitSt := 
  { UnitSt.stopped with st := st, pend := pend, out := out, asks := pend.map (fun l => (l, pkt1 0 0 l)) }
def unitState (cwait : Nat) (x : UnitSt) : State :=
  { stepping (streamPlan cwait) with
    hbm := [(43, { StackSt.reset with units := [(3, x)], counters := [(4, 3)] })]
    cores := [(1, { CoreSt.reset with pen := [(2, 1)] })] }

theorem witness_StreamUnitsAdvance_lwait : ∀ c ∈ [0, 1], (unitState c (unit1 .lwait [] 0)).quiet ∧ (unitState c (unit1 .lwait [] 0)).memOk
    ∧ (unitState c (unit1 .lwait [] 0)).unit 43 3 = unit1 .lwait [] 0
    ∧ (unitState c (unit1 .lwait [] 0)).streamDesc 43 3 0 = streamDescOf (descWord c) ∧ (streamDescOf (descWord c)).lwaitThr = 3
    ∧ (streamDescOf (descWord c)).lwaitThr ≤ ((unitState c (unit1 .lwait [] 0)).stack 43).counter (streamDescOf (descWord c)).lwaitIdx := by
  decide +kernel

theorem witness_StreamUnitsAdvance_credit : (unitState 1 (unit1 .credits [1] 0)).quiet ∧ (unitState 1 (unit1 .credits [1] 0)).memOk
    ∧ (unitState 1 (unit1 .credits [1] 0)).unit 43 3 = unit1 .credits [1] 0
    ∧ (unitState 1 (unit1 .credits [1] 0)).streamDesc 43 3 0 = streamDescOf (descWord 1)
    ∧ (unitState 1 (unit1 .credits [1] 0)).logicalOf 1 = some 1 ∧ 1 ∈ (unit1 .credits [1] 0).pend
    ∧ (unit1 .credits [1] 0).asks.any (fun y => y.1 = 1) = true ∧ (unitState 1 (unit1 .credits [1] 0)).localGrant 1 2 = false ∧ (streamDescOf (descWord 1)).cwaitIdx = 2
    ∧ (streamDescOf (descWord 1)).cwaitThr ≤ ((unitState 1 (unit1 .credits [1] 0)).core 1).pennant (streamDescOf (descWord 1)).cwaitIdx := by
  decide +kernel

def tile1 : TileMsg := { stack := 43, unit := 3, dst := 1, addr := 128, data := [0, 7], pen := some 6, rep := 0, pkts := [pkt1 1 0 1], lost := [] }
def tiled1 : State := { unitState 0 (unit1 .sending [] 1) with flight := { FlightSt.reset with tiles := [tile1] } }

theorem witness_StreamUnitsAdvance_tile : tiled1.quiet ∧ tiled1.memOk
    ∧ tiled1.flight.tiles.find? (fun y => y.stack = 43 && y.unit = 3 && y.dst = 1) = some tile1 ∧ tiled1.coreStateOf 1 ≠ .fenced
    ∧ (tiled1.core 1).pennant 6 < 65535 := by decide +kernel

theorem witness_StreamUnitsAdvance_end : (unitState 0 (unit1 .sending [] 0)).quiet ∧ (unitState 0 (unit1 .sending [] 0)).memOk
    ∧ (unitState 0 (unit1 .sending [] 0)).unit 43 3 = unit1 .sending [] 0
    ∧ ((unitState 0 (unit1 .sending [] 0)).stack 43).counter (streamDescOf (descWord 0)).lraiseIdx + (streamDescOf (descWord 0)).lraiseInc ≤ 65535
    ∧ ((unitState 0 (unit1 .sending [] 0)).streamDesc 43 3 1).op = 0 := by decide +kernel

/-- Stack 43's station has a way to core 1 by the attachment router where it stands. -/
def tileWay1 (st : UnitState) : State :=
  let s := unitState 1 (unit1 st [] 0)
  { s with fabric := { s.fabric with routing := { Routing.empty with station := [(1344 * targetStation 43 + 1, 2048 * targetStation 0 + 1)] } } }

def tileReady1 : State := tileWay1 .ready

theorem witness_StreamUnitsAdvance_asks : (tileWay1 .lwait).quiet ∧ (tileWay1 .lwait).memOk ∧ (tileWay1 .lwait).unit 43 3 = unit1 .lwait [] 0
    ∧ (tileWay1 .lwait).streamDesc 43 3 0 = streamDescOf (descWord 1) ∧ (streamDescOf (descWord 1)).cwaitThr ≠ 0
    ∧ (streamDescOf (descWord 1)).lwaitThr ≤ ((tileWay1 .lwait).stack 43).counter (streamDescOf (descWord 1)).lwaitIdx
    ∧ (tileWay1 .lwait).receivers (streamDescOf (descWord 1)) = [1]
    ∧ ((tileWay1 .lwait).stationWay (targetStation 43) ((tileWay1 .lwait).phys 1)).map (fun x => (tileWay1 .lwait).dropAt x.1 ((tileWay1 .lwait).phys 1)) = some none := by
  decide +kernel

theorem witness_StreamTileGoesOut_way : tileReady1.receivers (streamDescOf (descWord 1)) = [1] ∧ tileReady1.stackFull 43 = false
    ∧ (tileReady1.stationWay (targetStation 43) (tileReady1.phys 1)).map (fun x => tileReady1.dropAt x.1 (tileReady1.phys 1)) = some none := by decide +kernel

theorem witness_StreamTileGoesOut : (unitState 1 (unit1 .ready [] 0)).quiet ∧ (unitState 1 (unit1 .ready [] 0)).clean 43
    ∧ (unitState 1 (unit1 .ready [] 0)).unit 43 3 = unit1 .ready [] 0
    ∧ (unitState 1 (unit1 .ready [] 0)).streamDesc 43 3 0 = streamDescOf (descWord 1) ∧ (streamDescOf (descWord 1)).op ≠ 3
    ∧ (unitState 1 (unit1 .ready [] 0)).staleKeep 43 (streamDescOf (descWord 1)).src = none ∧ (streamDescOf (descWord 1)).rep ≤ 1 := by
  decide +kernel

/-- Layer 3, owned by module 6 and mirrored by module 7: two code records on stack 43 (PART 2), released by counter 1, arriving at
counter 2 (R340, R795). -/
def copyLayer : PlanLayer :=
  { layerOf 3 6 7 [{ part := 2, region := 0, stride := 2, offset := 0, first := 0, count := 2 }] with
    promote := false, chains := [2], tiles := 2 }
def copyPlan : Plan :=
  { plan0 with regions := [{ kind := 1, stack := 43, base := 2, len := 1 }], layers := [copyLayer], chains := [chainWord 0]
               copyCtrs := [{ layer := 3, stack := 43, release := 1, threshold := 2, arrival := 2 }] }
def held1 : HeldWrite := { layer := 3, step := 1, part := 2, first := 1, count := 1, data := [130] }
def late1 : HeldWrite := { held1 with step := 2 }
def heldState (ctr : Nat) : State :=
  { stepping copyPlan with hbm := [(43, { StackSt.reset with held := [held1, late1], counters := [(1, ctr)] })] }

theorem witness_HeldWritesWaitForRelease_hold : (heldState 1).quiet ∧ (heldState 1).memOk
    ∧ (heldState 1).copyCtr 3 43 = some { layer := 3, stack := 43, release := 1, threshold := 2, arrival := 2 }
    ∧ ((heldState 1).stack 43).counter 1 < 2 := by decide +kernel

theorem witness_HeldWritesWaitForRelease_go : (heldState 2).quiet ∧ (heldState 2).memOk
    ∧ 2 ≤ ((heldState 2).stack 43).counter 1 ∧ ((heldState 2).stack 43).held = [held1, late1] ∧ (heldState 2).isHeld 3 43 2 1 = false
    ∧ (heldState 2).clean 43 ∧ held1.step < late1.step ∧ (heldState 2).planLayer 3 = some copyLayer
    ∧ (heldState 2).copyPlace copyLayer 2 1 = some { part := 2, region := 0, stride := 2, offset := 0, first := 0, count := 2 } ∧ held1.data ≠ []
    ∧ ((heldState 2).placeAddr { part := 2, region := 0, stride := 2, offset := 0, first := 0, count := 2 } 1).1 = 43
    ∧ ((heldState 2).copyItems copyLayer 43).any
        (fun i => i != 2 ^ 32 * 2 + 1 && !(heldState 2).halyard.written.contains (64 * 3 + 43, 1, i)) = true := by decide +kernel

/-- A mirror fetch of line 9 of stack 0, before and after its data has come. -/
def fetch1 (good : Option (List Byte)) (cs : List Consumer) : FetchSt :=
  { line := 9, consumers := cs, sources := [], tag := 6, start := 100, overwritten := [], good := good
    parts := [], items := [(512, zeros 512)], came := false }
def fetching (good : Option (List Byte)) (cs : List Consumer) : State :=
  { State.reset with hbm := [(0, { StackSt.reset with fetches := [fetch1 good cs], bad := [(9, ⟨[(0, 1), (9, 2), (18, 3), (27, 4), (36, 5)], []⟩)] })] }

theorem witness_LinesAreRepaired_timeout : (fetching none [.scrub]).quiet ∧ (fetching none [.scrub]).memOk
    ∧ (fetching none [.scrub]).fetchOf 0 9 = some (fetch1 none [.scrub]) := by decide +kernel

theorem witness_LinesAreRepaired_verify : (fetching (some (zeros 512)) []).quiet ∧ (fetching (some (zeros 512)) []).memOk
    ∧ (fetching (some (zeros 512)) []).fetchOf 0 9 = some (fetch1 (some (zeros 512)) []) ∧ (zeros 512).length = 512
    ∧ ((fetching (some (zeros 512)) []).stack 0).verifies 1 (zeros 512) (fetch1 (some (zeros 512)) []).covers = true
    ∧ (((fetching (some (zeros 512)) []).stack 0).bad.map (fun p => p.1)).Pairwise (fun a b => a < b) ∧ ((fetching (some (zeros 512)) []).stack 0).badLines.length < 4096 := by
  decide +kernel

def latent1 : State := { State.reset with hbm := [(0, { StackSt.reset with bad := [(5, ⟨[(63, 0x80), (64, 1)], [(71, 255)]⟩)] })] }

theorem witness_LinesAreRepaired_scrub : latent1.quiet ∧ latent1.memOk ∧ (latent1.stack 0).errLines (fun _ => true) = [5] ∧ latent1.job.scrubPeriod ≠ 0 ∧ latent1.power.powerState ≤ 1
    ∧ (latent1.stack 0).counts.corrected < 2 ^ 32 ∧ (latent1.stack 0).readLine 5 = .data (zeros 64) true false := by decide +kernel

/-- A line whose last byte is 1 has the coefficients of the generator polynomial as its check bytes (R309). -/
theorem test_outer_code : rsCheck (List.replicate 63 0 ++ [1]) = rsGenerator.drop 1 := by decide +kernel

def linkState (x : LinkSt) : State := { State.reset with fabric := { FabricSt.reset with links := [(5, x)] } }

theorem witness_LinksRetryAndTest : (linkState .up).quiet ∧ linkExists 5 = true ∧ ((linkState .up).link 5).st = .up
    ∧ ((linkState { LinkSt.up with retryAt := List.replicate 16 0 }).link 5).st = .up
    ∧ (linkState { LinkSt.up with retryAt := List.replicate 16 0 }).fabric.selftestTrigger ≤ ((linkState { LinkSt.up with retryAt := List.replicate 16 0 }).link 5).retryAt.length
    ∧ ((linkState { LinkSt.up with st := .selfTest }).link 5).st = .selfTest := by decide +kernel

/-- Router 0 sends to router 1 by its primary east port, and by no escape port. -/
def escaping1 : State := routed .reset

theorem witness_LinksRetryAndTest_escape : escaping1.quiet ∧ escaping1.fabric.escapeWait ≤ 64
    ∧ escapeEnd escaping1.fabric.routing.hop numCores 0 2 = some 0 ∧ escapeEnd escaping1.fabric.routing.hop numCores 1 1 = none := by
  decide +kernel

theorem witness_LinksRetryAndTest_test : ((linkState { LinkSt.up with st := .selfTest }).link 5).spares + [7, 1023].length ≤ 128
    ∧ ((linkState { LinkSt.up with fails := 6 }).link 5).fails < 7 ∧ ((linkState { LinkSt.up with fails := 6 }).link 5).st = .up := by decide +kernel
/-! ### Faults, the routing reload and what follows a batch -/

def planned1 : State := planned plan0
def batchOf (stage : BatchStage) : Batch := { Batch.idle with stage := stage }
/-- A job whose batch is at a stage, in a step or not. -/
def batched (stage : BatchStage) (rl : Reload) (run : Bool) : State :=
  let s := if run then stepping plan0 else planned plan0
  { s with job := { s.job with batch := batchOf stage }, fabric := { s.fabric with reload := rl } }

theorem witness_FaultsAreAnswered : planned1.quiet ∧ planned1.job.batch.stage ≠ .reload ∧ planned1.job.plan ≠ none
    ∧ (batched .reload .draining true).quiet ∧ (batched .reload .draining true).job.batch.stage = .reload
    ∧ (batched .reload .draining true).fabric.reload = .draining ∧ (batched .reload .writing true).quiet
    ∧ (batched .reload .writing true).job.batch.stage = .reload ∧ (batched .reload .writing true).fabric.reload ≠ .draining := by
  decide +kernel

theorem witness_ReloadStagesFollow_drain : (batched .reload .draining true).quiet ∧ (batched .reload .draining true).fabric.reload = .draining
    ∧ (batched .reload .building true).quiet ∧ (batched .reload .building true).fabric.reload = .building
    ∧ (batched .reload .building true).build.1.unplaced = false :=
  ⟨by decide +kernel, rfl, by decide +kernel, rfl, rfl⟩

theorem witness_ReloadStagesFollow : (batched .reload .writing true).quiet ∧ (batched .reload .writing true).fabric.reload = .writing
    ∧ (batched .reload .reading true).quiet ∧ (batched .reload .reading true).fabric.reload = .reading
    ∧ (batched .reload .reading true).job.batch.next = [] ∧ (∀ p ∈ (batched .reload .reading true).net.peers, p.rx = [])
    ∧ (batched .reload .reading true).job.ckpt.st = 0 ∧ (batched .reload .reading true).fabric.reloadFails = 0
    ∧ (batched .reload .reading true).reset_.pending = none := by decide +kernel

def failing1 : State := { batched .reload .reading true with fabric := { FabricSt.reset with reload := .reading, reloadFails := 1 } }

theorem witness_ReloadStagesFollow_fail : failing1.quiet ∧ failing1.fabric.reload = .reading ∧ failing1.fabric.reloadFails ≠ 0
    ∧ failing1.reset_.pending = none ∧ failing1.power.cartouche = true := by decide +kernel

/-- A peer of this module: module 6, heard and in the job. -/
def peer6 : PeerSt :=
  { module := 6, present := true, active := true, localGroup := 0, remoteGroup := 0, addr := zeros 16, contact := true, lost := false
    cause := none, lastBeat := 0, readings := [], nextSeq := 0, nextMsg := 0, tx := [], ackBase := 0, sackMask := 0, rxCe := false
    unacked := 0, unackedAt := 0, rx := [], delivered := [], srtt := 0, rttvar := 0, sampled := false, alpha := 0, rate := 6553600
    windowMarked := false, windowAt := 0, rotate := 0, beatTurn := 0, joined := none }
def withPeer (s : State) (p : PeerSt) : State := { s with net := { s.net with peers := [p] } }

def owed1 : State := batched .owed .none true
/-- The peer has read step 4, as its heartbeat of 1 µs says, though a later one says 3 (R516). -/
def behind1 : State := { withPeer owed1 { peer6 with lastBeat := 2, readings := [(1, 4), (2, 3)] } with aon := 50 }

theorem witness_BatchesReplayOrRealign : (batched .owed .none false).quiet ∧ (batched .owed .none false).job.batch.stage = .owed
    ∧ (batched .owed .none false).job.batch.owed = [] ∧ (batched .owed .none false).running = none
    ∧ (batched .owed .none false).job.resync = 0 ∧ (batched .owed .none false).halyard.sums = []
    ∧ owed1.quiet ∧ owed1.job.batch.stage = .owed ∧ owed1.job.batch.owed = []
    ∧ owed1.running = some { StepRec.free with step := 1, st := .running } ∧ owed1.peerStep ≤ 1
    ∧ behind1.quiet ∧ behind1.job.batch.stage = .owed ∧ behind1.job.batch.owed = []
    ∧ behind1.running = some { StepRec.free with step := 1, st := .running } ∧ behind1.peerStep = 4 ∧ behind1.halyard.sums = [] := by
  decide +kernel

/-- A realignment to step 3 waits, and no record is RUNNING. -/
def resync1 : State :=
  let s := batched .owed .none false
  { s with job := { s.job with resync := 3 } }

theorem witness_BatchesReplayOrRealign_resync : resync1.quiet ∧ resync1.job.batch.stage = .owed ∧ resync1.job.batch.owed = []
    ∧ resync1.running = none ∧ resync1.job.resync ≠ 0 ∧ resync1.halyard.sums = [] ∧ resync1.hbm = [] := by decide +kernel

theorem witness_BatchesReplayOrRealign_held : ∀ k, (behind1.stack k).held = [] := fun _ => rfl

def replay1 : State := { batched .release .none true with job := { (batched .release .none true).job with release := .replay 1 } }
def input2 : StepRec := { StepRec.free with step := 2, st := .input }
def realign1 : State :=
  { planned plan0 with job := { JobSt.reset with plan := some plan0, jobState := jsRUNNING, rec0 := input2, release := .realign 2
                                                 resync := 2, next := 2, batch := batchOf .release } }

theorem witness_BatchesAreReleased : replay1.quiet ∧ replay1.job.jobState = jsRUNNING ∧ replay1.job.batch.stage ≠ .reload
    ∧ replay1.job.batch.stage ≠ .owed ∧ replay1.job.plan ≠ none ∧ replay1.job.release = .replay 1
    ∧ replay1.running = some { StepRec.free with step := 1, st := .running } ∧ replay1.copiesReady 1 = true ∧ replay1.gathersHeld ∧ realign1.gathersHeld
    ∧ realign1.quiet ∧ realign1.job.jobState = jsRUNNING ∧ realign1.job.batch.stage ≠ .reload ∧ realign1.job.batch.stage ≠ .owed
    ∧ realign1.job.plan ≠ none ∧ realign1.job.release = .realign 2 ∧ (realign1.record 2).st = .input ∧ (realign1.record 2).step = 2 ∧ realign1.job.ckpt.st = 0 := by
  decide +kernel

def testing1 (hot : List Nat) : State :=
  { State.reset with job := { JobSt.reset with batch := { Batch.idle with testing := [5] } }
                     wafer := { WaferSt.reset with coreState := [(5, .fenced)] }
                     power := { PowerSt.reset with hotFenced := hot, coreTemps := [(5, int32 96)] } }

theorem witness_BatchesAreReleased_test : (∀ hot ∈ [[], [5]], (testing1 hot).quiet ∧ 5 ∈ (testing1 hot).job.batch.testing
      ∧ (testing1 hot).coreStateOf 5 = .fenced)
    ∧ 5 ∈ (testing1 [5]).power.hotFenced ∧ 5 ∉ (testing1 [5]).power.failedSensors ∧ numLe (Tab.get 0#32 (testing1 [5]).power.coreTemps 5) (int32 95) = false
    ∧ 5 ∉ (testing1 []).power.hotFenced ∧ ((testing1 []).reg (regId 1 5)).failed = false ∧ ((testing1 []).reg (regId 2 5)).failed = false
    ∧ 5 ∉ (testing1 []).wafer.fieldDefects ∧ (testing1 []).wafer.fieldDefects.length < 64 := by decide +kernel

/-! ### Steps, jobs, checkpoints and plans -/

def input1 : StepRec := { StepRec.free with step := 1, st := .input }
def waiting1 : State := { planned plan0 with job := { (planned plan0).job with next := 1 } }
def ready1 : State :=
  { planned plan0 with job := { JobSt.reset with plan := some plan0, jobState := jsRUNNING, next := 1, rec1 := input1 } }

theorem witness_JobsStartOnInputs : waiting1.quiet ∧ waiting1.inJob = true ∧ waiting1.job.resync = 0 ∧ (waiting1.record 1).st ≠ .input
    ∧ (waiting1.record 1).st ≠ .running ∧ waiting1.postable 1 = true ∧ 0 ≤ waiting1.inputSize 1 ∧ waiting1.job.jobState = jsLOADED
    ∧ waiting1.job.rejoin = false ∧ waiting1.job.plan = some plan0 := by decide +kernel

/-- Every unit at END, and every mapped core's program complete. -/
def ended1 : State :=
  { stepping plan0 with
    hbm := (upFrom 0 numStacks).map (fun k => (k, { StackSt.reset with
      units := (upFrom 0 4).map (fun u => (u, { UnitSt.stopped with st := .ended })) }))
    cores := [(0, { CoreSt.reset with reported := true }), (1, { CoreSt.reset with reported := true })] }

theorem witness_StepsStartAndEnd : ready1.quiet ∧ ready1.startable = true ∧ ready1.job.resync = 0 ∧ ready1.job.plan ≠ none
    ∧ ready1.job.ckpt.st = 0 ∧ ready1.gathersHeld
    ∧ ended1.quiet ∧ ended1.running = some { StepRec.free with step := 1, st := .running }
    ∧ ended1.record 1 = { StepRec.free with step := 1, st := .running } ∧ (ended1.record 2).st ≠ .running
    ∧ ended1.job.jobState = jsRUNNING ∧ ended1.job.batch.stage = .idle ∧ ended1.job.release = .none ∧ ended1.atBoundary = true
    ∧ ended1.job.calibrating = false ∧ ended1.job.replayed = false := by decide +kernel

theorem witness_JobsAbortAndUnload : waiting1.quiet ∧ waiting1.inJob = true ∧ waiting1.halyard.sums = [] ∧ waiting1.closed = none
    ∧ waiting1.job.plan ≠ none ∧ waiting1.running = none := by decide +kernel

def armed1 : State := { waiting1 with job := { waiting1.job with ckpt := { CkptSt.idle with st := 1, step := 1 } } }

theorem witness_CheckpointsArmAndSeal : waiting1.quiet ∧ waiting1.inJob = true ∧ waiting1.job.ckpt.st ≠ 2 ∧ (zeros 16).length = 16
    ∧ (∀ l ∈ waiting1.ownedLayers, (waiting1.stepTag l).getD 0 ≤ 0) ∧ waiting1.job.next < 0 + 2
    ∧ armed1.quiet ∧ armed1.inJob = true ∧ armed1.job.ckpt.st = 1 ∧ armed1.job.ckpt.drainStep = 0 ∧ armed1.memOk ∧ armed1.job.ckpt.scales = none := by decide +kernel

def noPlan1 : State := { State.reset with job := { JobSt.reset with jobState := jsNO_PLAN } }
def spare1 : State := { waiting1 with job := { waiting1.job with role := 2 } }
def loading1 : State := { noPlan1 with job := { noPlan1.job with loading := some ⟨0, 0, 4096, some plan0⟩ } }
/-- The same, an interface of group 0 being up. -/
def loadingUp1 : State := { loading1 with net := { loading1.net with ifaces := [(0, .up)] } }

theorem witness_PlansAreLoaded : noPlan1.quiet ∧ noPlan1.closed = none ∧ noPlan1.power.powerState = 0 ∧ (noPlan1.action 0x2010 1).busy = false
    ∧ noPlan1.job.loading = none ∧ noPlan1.job.plan = none ∧ imageFits 43 (planSpace - 4096) 4096 = true ∧ noPlan1.clean 43
    ∧ spare1.quiet ∧ spare1.closed = none ∧ spare1.power.powerState = 0 ∧ (spare1.action 0x2015 1).busy = false
    ∧ spare1.job.loading = none ∧ spare1.job.plan = some plan0 ∧ spare1.isLost 16383 = true ∧ spare1.job.role = 2
    ∧ (∀ s ∈ [loading1, loadingUp1], s.quiet ∧ s.job.loading = some ⟨0, 0, 4096, some plan0⟩)
    ∧ ∃ g < 4, loadingUp1.groupUp g ≠ [] := by decide +kernel

/-! ### Halyard units and downhauls -/

def sum1 : SumMsg :=
  { layer := 3, tile := 0, step := 1, round := 1, contributors := 2, tokens := 9, gaps := 0, saturations := 0, nonfinite := 0, chain := 2
    m := 8, n := 1, skips := 0, excluded := 0, codes := [130], words := List.replicate 8 1 }
def val1 : SumVal := sumVal sum1
/-- An open sum of the tile: the module's own partial, the upstream sum, or both. -/
def open1 (own up : Option SumVal) : OpenSum := { OpenSum.fresh 1 3 0 1 1 2 8 1 with own := own, up := up, tUp := 4 }
/-- A module of chain 2 whose successor, module 5, is not lost. -/
def halyard1 (sums : List OpenSum) (role : Nat) : State :=
  let s := withPeer (stepping { plan0 with chains := [chainWord 0] }) { peer6 with module := 5 }
  { s with halyard := { s.halyard with sums := sums }, plotter := { s.plotter with role := [(3, role)] } }

theorem witness_UpstreamSumsJoin : ∀ up ∈ [[], [open1 none (some val1)]], (halyard1 up 0).quiet ∧ (halyard1 up 0).reaches 5 (.sum sum1) = true
    ∧ (halyard1 up 0).chainEntry 2 = some (chainEntryOf (chainWord 0)) ∧ (halyard1 up 0).ownEntry 3 0 2 = none ∧ sum1.round ≤ 1
    ∧ (halyard1 up 0).roleOf 3 ≠ 3 ∧ (halyard1 up 0).roleOf 3 ≠ 4 ∧ (halyard1 up 0).isLate 3 0 (stampOf 1 1) = false
    ∧ (halyard1 up 0).ownNever 1 = false ∧ (halyard1 up 0).openSum 1 3 0 1 1 = up.head? ∧ (halyard1 up 0).openCount 1 < 1024
    ∧ val1.contributors + sum1.contributors ≤ maxContributors := by
  decide +kernel

theorem witness_HopsForward : ∀ o ∈ [open1 (some val1) none, open1 none (some val1)], (halyard1 [o] 0).quiet
    ∧ (halyard1 [o] 0).roleOf 3 ≠ 3 ∧ (halyard1 [o] 0).roleOf 3 ≠ 4 ∧ (chainEntryOf (chainWord 0)).isOwner = false
    ∧ val1.contributors ≤ maxContributors ∧ o.total true = some val1
    ∧ ((halyard1 [o] 0).firstDue ((halyard1 [o] 0).hopSum 1 3 0 1) (fun o c =>
        if o.own.isSome then some (o.tOwn + (halyard1 [o] 0).halyard.deadline + c.depth * (halyard1 [o] 0).halyard.hop) else none)).map (fun x => x.1)
        = (if o.own.isSome then some o else none)
    ∧ ((halyard1 [o] 0).firstDue ((halyard1 [o] 0).hopSum 1 3 0 1) (fun o _ =>
        if o.own.isNone && o.up.isSome then some (o.tUp + (halyard1 [o] 0).halyard.hop) else none)).map (fun x => (x.1, x.2.1))
        = (if o.own.isSome then none else some (o, chainEntryOf (chainWord 0)))
    ∧ (((halyard1 [o] 0).successors (chainEntryOf (chainWord 0)) 3).takeWhile (fun x => x.2)).length = 0
    ∧ ((halyard1 [o] 0).successors (chainEntryOf (chainWord 0)) 3)[0]? = some (5, false) := by decide +kernel

theorem witness_HopsForward_takeover : (halyard1 [open1 none (some val1)] 3).quiet ∧ (halyard1 [open1 none (some val1)] 3).roleOf 3 = 3
    ∧ (halyard1 [open1 none (some val1)] 3).chainEntry 2 = some (chainEntryOf (chainWord 0))
    ∧ (open1 none (some val1)).total true = some val1 ∧ val1.contributors ≤ maxContributors ∧ val1.tokens ≠ 0
    ∧ (halyard1 [open1 none (some val1)] 3).firstDue (fun x => decide (x.layer = 3) && x.tile = 0 && x.step = 1 && x.round = 1) (fun o _ =>
        some ((if o.up.isSome && (o.own.isNone || o.tUp ≤ o.tOwn) then o.tUp else o.tOwn)
          + 1000 * (halyard1 [open1 none (some val1)] 3).plotter.takeoverWait))
        = some (open1 none (some val1), chainEntryOf (chainWord 0), 4 + 1000 * (halyard1 [open1 none (some val1)] 3).plotter.takeoverWait) := by
  decide +kernel

theorem witness_HopsForward_room : ∀ i, (halyard1 [open1 none (some val1)] 0).tableFull i = false := fun i => by
  by_cases h : i < 64
  · exact (by decide +kernel : ∀ i < 64, (halyard1 [open1 none (some val1)] 0).tableFull i = false) i h
  · simp [State.tableFull, h]

def down1 : DownMsg := { layer := 3, part := 2, step := 1, first := 1, count := 1, data := [130] }
/-- A module whose copy of layer 3 is of the step before `held`. -/
def copying (held : Nat) : State :=
  let s := withPeer (stepping copyPlan) peer6
  { s with halyard := { s.halyard with copyStep := [(64 * 3 + 43, held)], codeStep := [(64 * 3 + 43, held)] } }

theorem witness_DownhaulsArrive : (copying 1).quiet ∧ (copying 1).planLayer 3 = some copyLayer ∧ (copying 1).reaches 6 (.down down1) = true
    ∧ (∀ n < 2, (copying 1).downHas down1 n = false) ∧ (copying 1).job.release ≠ .replay (copying 1).firstStep
    ∧ { part := 2, region := 0, stride := 2, offset := 0, first := 0, count := 2 } ∈ (copying 1).copyPlaces copyLayer ∧ (copying 1).copyHeld copyLayer 2 1 = false ∧ (copying 1).isHeld 3 43 2 1 = false ∧ (copying 1).copyStacks copyLayer = [43]
    ∧ (copying 1).copyCtr 3 43 = some { layer := 3, stack := 43, release := 1, threshold := 2, arrival := 2 }
    ∧ (3, 1) ∉ ((copying 1).stack 43).released
    ∧ ((copying 1).placeAddr { part := 2, region := 0, stride := 2, offset := 0, first := 0, count := 2 } 0).1 = 43
    ∧ (copying 2).quiet ∧ (copying 2).reaches 6 (.down down1) = true ∧ (copying 2).copyHeld copyLayer 2 1 = true := by decide +kernel

/-- A stream unit that waits on the arrival counter of layer 3. -/
def waitDesc : Nat := 2 ^ 252 + 2 * 2 ^ 85 + 2 ^ 69
def lacking1 : State :=
  let s := withPeer (stepping { copyPlan with streams := [(4 * 43, [waitDesc])] }) peer6
  { s with hbm := [(43, { StackSt.reset with units := [(0, unit1 .lwait [] 0)] })] }

theorem witness_DownhaulsArrive_timeout : lacking1.quiet ∧ lacking1.planLayer 3 = some copyLayer ∧ lacking1.waitedLayer 43 0 = some 3
    ∧ (if lacking1.halyard.takenOver.contains 3 then [copyLayer.mirror] else [copyLayer.owner, copyLayer.mirror]).filter lacking1.reachable
        = [6] := by decide +kernel

/-! ### The Plotter, owners and peers -/

/-- A schedule table (R485 to R488): layer 3, 1 × 1, element-wise, sheet 0, state region 0, journal region 1; one group whose four curves
are the constant 0.5. -/
def schedule1 : List Byte :=
  zeros 6 ++ leBytes 1 2 ++ leBytes 1 2 ++ zeros 6 ++ leBytes 96 4 ++ leBytes 64 4 ++ leBytes 128 4 ++ zeros 36
    ++ leBytes 3 2 ++ zeros 2 ++ leBytes 1 4 ++ leBytes 1 4 ++ leBytes 0xFF01 4 ++ leBytes 0 2 ++ leBytes 1 2 ++ zeros 12
    ++ leBytes 0x10000 4 ++ leBytes 0x10000 4 ++ leBytes 0x10000 4 ++ leBytes 0x10000 4 ++ zeros 16
    ++ zeros 12 ++ leBytes 0x3F000000 4 ++ zeros 8
def ownerPlan : Plan :=
  { plan0 with schedule := schedule1
               regions := [{ kind := 2, stack := 0, base := 2, len := 2 }, { kind := 3, stack := 1, base := 2, len := 1 }] }
def sched1 : SchedLayer :=
  { layer := 3, group := 0, rows := 1, cols := 1, mode := 1, nsSet := 255, sheet := 0, stateRegion := 0, journalRegion := 1
    stateOffset := 0, journalOffset := 0 }
def place1 : OwnerPlace :=
  { stack := 0, hdr := 1024, bufA := 1088, bufB := 1152, mom := 1216, jstack := 1, journal := 1024, rows := 1, cols := 1 }
def hand1 : HandSum := { layer := 3, tile := 0, step := 2, chain := 2, val := val1, m := 1, n := 1 }
def upd1 (stage : Nat) : UpdRun := { layer := 3, step := 2, stage := stage, flags := 0, rung := 0, prodBeta := 0, fallbacks := 0 }
/-- An owner of layer 3 whose header carries STEP_TAG `tag`. -/
def owner1 (tag : Nat) (ready : List UpdReady) (run : Tab UpdRun) : State :=
  let s := stepping ownerPlan
  { s with plotter := { s.plotter with role := [(3, 1)], hand := [hand1], firstSum := [(3, 2, 7)], ready := ready, running := run }
           hbm := [(0, { StackSt.reset with mem := Memory.writeN [] 1024 (leBytes tag 4) })] }
def ready3 : UpdReady := { layer := 3, step := 2, again := false }

theorem witness_UpdatesBegin_wait : (owner1 1 [] []).quiet
    ∧ (owner1 1 [] []).plotter.firstSum.find? (fun x => decide (x.1 = 3) && x.2.1 = 2) = some (3, 2, 7) ∧ (owner1 1 [] []).handOf 3 2 ≠ []
    ∧ (∀ u ∈ (owner1 1 [] []).plotter.ready, ¬ (u.layer = 3 ∧ u.step = 2))
    ∧ ∀ r ∈ (owner1 1 [] []).plotter.running, ¬ (r.2.layer = 3 ∧ r.2.step = 2) := by decide +kernel

theorem witness_UpdatesBegin_start : ∀ tag ∈ [1, 2], (owner1 tag [ready3] []).quiet ∧ (owner1 tag [ready3] []).plottersRun = true
    ∧ Tab.find (owner1 tag [ready3] []).plotter.running 0 = none ∧ (owner1 tag [ready3] []).nextUpdate 0 = some ready3
    ∧ (owner1 tag [ready3] []).schedLayer 3 = some sched1 ∧ (owner1 tag [ready3] []).ownerPlace sched1 = some place1
    ∧ (owner1 tag [ready3] []).clean 0 ∧ ((owner1 tag [ready3] []).stateHdr place1).tag = tag
    ∧ ((owner1 tag [ready3] []).stateHdr place1).journal ≠ 1 := by decide +kernel

theorem witness_UpdatesCommit : ∀ stage ∈ [0, 1, 2], (owner1 1 [] [(0, upd1 stage)]).quiet ∧ (owner1 1 [] [(0, upd1 stage)]).memOk
    ∧ Tab.find (owner1 1 [] [(0, upd1 stage)]).plotter.running 0 = some (upd1 stage) ∧ (owner1 1 [] [(0, upd1 stage)]).plottersRun = true
    ∧ (owner1 1 [] [(0, upd1 stage)]).schedLayer 3 = some sched1 ∧ (owner1 1 [] [(0, upd1 stage)]).ownerPlace sched1 = some place1
    ∧ (owner1 1 [] [(0, upd1 stage)]).clean 0 ∧ (owner1 1 [] [(0, upd1 stage)]).clean 1
    ∧ (owner1 1 [] [(0, upd1 stage)]).copyDue 3 = false ∧ place1.jstack ≠ place1.stack
    ∧ (owner1 1 [] [(0, upd1 stage)]).planLayer 3 = none := by decide +kernel

/-- The owner after its commit: JOURNAL 1. -/
def committed1 : State :=
  { owner1 1 [] [(0, upd1 2)] with hbm := [(0, { StackSt.reset with mem := Memory.writeN [] 1024 (leBytes 1 4 ++ [0, 1]) })] }

theorem witness_UpdatesCommit_journal : committed1.quiet ∧ committed1.memOk ∧ Tab.find committed1.plotter.running 0 = some (upd1 2)
    ∧ committed1.plottersRun = true ∧ committed1.schedLayer 3 = some sched1 ∧ committed1.ownerPlace sched1 = some place1
    ∧ committed1.clean 0 ∧ committed1.clean 1 ∧ committed1.copyDue 3 = false ∧ (committed1.stateHdr place1).journal = 1 := by decide +kernel

/-- Core 0 lends the Plotter a window. -/
def owner2 : State :=
  { owner1 1 [] [(0, upd1 0)] with wafer := { WaferSt.reset with coreState := [(0, .mapped)] }, cores := [(0, { CoreSt.reset with window := 8 })] }

theorem witness_UpdatesCommit_apply : owner2.quiet ∧ owner2.memOk ∧ owner2.updateSkip 0 sched1 1 2 = .none
    ∧ curvesOf owner2.fmt.subnormal owner2.schedule sched1 1 2
        = some ⟨.raw 0x3F000000#32, .raw 0x3F000000#32, .raw 0x3F000000#32, .raw 0x3F000000#32, []⟩
    ∧ Tab.find owner2.plotter.running 0 = some (upd1 0) ∧ owner2.plottersRun = true ∧ owner2.schedLayer 3 = some sched1
    ∧ owner2.ownerPlace sched1 = some place1 ∧ owner2.clean 0 ∧ owner2.planLayer 3 = none := by decide +kernel

theorem witness_UpdatesCommit_skip : (owner1 1 [] [(0, upd1 0)]).updateSkip 0 sched1 1 2 = .noWindow := by decide +kernel

/-- A checkpoint of step 1 is armed, and the one owned layer is at that step. -/
def sealing1 : State :=
  let s := owner1 1 [] []
  let p := { ownerPlan with layers := [layerOf 3 0 1 []] }
  { s with job := { s.job with plan := some p, ckpt := { CkptSt.idle with st := 1, step := 1 } } }

theorem witness_CheckpointsArmAndSeal_layer : sealing1.quiet ∧ sealing1.inJob = true ∧ sealing1.job.ckpt.st = 1 ∧ sealing1.job.ckpt.drainStep = 0
    ∧ sealing1.job.ckpt.scales = none ∧ sealing1.memOk ∧ sealing1.ownedLayers = [3] ∧ sealing1.planLayer 3 = some (layerOf 3 0 1 [])
    ∧ sealing1.placeOfLayer 3 = some place1 ∧ sealing1.stepTag 3 = some 1 ∧ sealing1.job.ckpt.copied = [] ∧ sealing1.clean 0
    ∧ sealing1.clean 1 ∧ place1.jstack ≠ place1.stack := by decide +kernel
def peered1 (p : PeerSt) : State := withPeer (stepping plan0) p
/-- An owner of layer 3 that hears module 6. -/
def owner3 (role : Nat) : State :=
  let s := withPeer (owner1 1 [] []) peer6
  { s with plotter := { s.plotter with role := [(3, role)] } }

theorem witness_OwnersAndPeersChange : (owner3 1).quiet ∧ (owner3 1).isLost 6 = false ∧ (owner3 1).roleOf 3 = 1
    ∧ ((owner3 1).stepTag 3).getD 0 < 2 ∧ (∀ x ∈ (owner3 1).plotter.running, ¬ (x.2.layer = 3 ∧ x.2.step = 2))
    ∧ (owner3 1).schedLayer 3 ≠ none ∧ (owner3 2).quiet ∧ (owner3 2).isLost 6 = false ∧ 3 ∉ (owner3 2).halyard.takenOver
    ∧ (owner3 2).roleOf 3 ≠ 1 ∧ (peered1 peer6).quiet ∧ (peered1 peer6).job.plan ≠ none ∧ (peered1 peer6).peer 6 = some peer6
    ∧ peer6.lost = false ∧ (peered1 peer6).net.gathers = [] ∧ (∀ l ∈ (peered1 peer6).planLayers, l.owner = 6 → (peered1 peer6).roleOf l.layer ≠ 2) := by
  decide +kernel

/-! ### Transport, gathers and ports -/

/-- An interface that is up, in a step with a peer. -/
def linked1 (p : PeerSt) : State :=
  let s := peered1 p
  { s with net := { s.net with ifaces := [(0, .up)] } }
def frame0 : Frame :=
  { version := 1, type := 0, flags := 1, src := 6, dst := 0, job := 7, seq := 0, ack := 1, sack := 0, msgId := 0, frag := 0, fragCount := 0
    tag := 0, payload := [], checksumOk := true, ceMarked := false }
def beat1 : BeatMsg := { reading := 3, current := 0, attempt := 0, role := 0, flags := 0, ports := 0, eventSeq := 0 }
def frame6 : Frame := { frame0 with type := 6, flags := 0, msgId := 1, fragCount := 1, payload := beBytes 3 4 ++ zeros 16 }
def txFrame1 : TxFrame :=
  { seq := 0, olds := [], msgId := 0, frag := 0, fragCount := 1, type := 6, tag := 0, payload := zeros 20, iface := 0, sends := 1, rto := 200
    sent := 0 }
def peerTx : PeerSt := { peer6 with tx := [txFrame1], nextSeq := 1 }

theorem witness_FramesAreReceived : (linked1 peer6).quiet ∧ (linked1 peer6).iface 0 = .up ∧ (linked1 peer6).job.plan = some plan0
    ∧ (linked1 peer6).job.ckpt.st = 0 ∧ frameBad plan0 { frame6 with version := 2 } = true ∧ frameBad plan0 frame6 = false
    ∧ frameBad plan0 { frame6 with src := 9 } = false ∧ (linked1 peer6).peer 9 = none
    ∧ frame6.flags % 2 = 0 ∧ Msg.ofBytes 6 frame6.payload = some (.heartbeat beat1) ∧ (linked1 peer6).peer 6 = some peer6
    ∧ peer6.lost = false ∧ 6 = peer6.module ∧ peer6.hasSeq frame6.seq = false ∧ frame6.msgId ∉ peer6.delivered
    ∧ (∀ r ∈ peer6.rx, r.msgId ≠ frame6.msgId) ∧ (linked1 peer6).buffered 0 + frame6.payload.length ≤ 8 * 2 ^ 20
    ∧ frameBad plan0 frame0 = false ∧ frame0.flags % 2 = 1 ∧ (linked1 peerTx).peer 6 = some peerTx := by decide +kernel

def beating1 (p : PeerSt) : State :=
  let s := linked1 p
  { s with net := { s.net with beatsOn := true } }

theorem witness_TransportTimersRun : (beating1 { peerTx with unacked := 1 }).quiet
    ∧ (beating1 { peerTx with unacked := 1 }).peer 6 = some { peerTx with unacked := 1 } ∧ peerTx.lost = false
    ∧ PeerSt.unacked { peerTx with unacked := 1 } ≠ 0
    ∧ (beating1 peerTx).pickIface peerTx.localGroup none peerTx.rotate = 0 ∧ txFrame1.iface < 64 ∧ peerTx.tx.find? (fun x => x.seq = txFrame1.seq) = some txFrame1
    ∧ (beating1 peerTx).iface txFrame1.iface = .up ∧ (beating1 peerTx).job.plan ≠ none ∧ (beating1 peerTx).net.beatsOn = true
    ∧ peerTx.present = true ∧ peerTx.active = true ∧ peerTx.windowMarked = false ∧ (beating1 peerTx).net.gathers = []
    ∧ (∀ l ∈ (beating1 peerTx).planLayers, l.owner = 6 → (beating1 peerTx).roleOf l.layer ≠ 2) := by decide +kernel

def gather1 (kind : Nat) : GatherMsg := { kind := kind, aux := 5, tag := 9, layer := 0, step := 8, first := 0, count := 1 }
/-- A tagged request of module 6 is held, and its counter covers 1. -/
def gathering1 (held : List HeldGather) : State :=
  let s := withPeer (stepping { plan0 with regions := [{ kind := 4, stack := 43, base := 2, len := 2 }] }) peer6
  { s with net := { s.net with held := held }, hbm := [(43, { StackSt.reset with counters := [(5, 1)] })] }
def heldGather1 : HeldGather := { src := 6, stack := 43, g := gather1 5 }
def recvWait1 : RecvWait := { tag := 9, dmem := true, daddr := 64, len := 64, key := 0 }
def outGather1 : OutGather := { g := gather1 5, holder := 6, rest := [], use := .recv 0 9 }
def receiving1 : State :=
  let s := peered1 peer6
  { s with net := { s.net with gathers := [outGather1] }, cores := [(0, { CoreSt.reset with recvs := [recvWait1] })]
           fabric := { s.fabric with routing := { Routing.empty with station := [(1344 * groupStation 0, 2048 * targetStation 0)] } } }

theorem witness_GathersAreAnswered : (∀ kind ∈ [0, 1, 2, 3], (peered1 peer6).quiet ∧ (peered1 peer6).reaches 6 (.gatherReq (gather1 kind)) = true
      ∧ (peered1 peer6).answerTo (gather1 kind) = .none 0)
    ∧ (peered1 peer6).peer 6 = some peer6 ∧ peer6.lost = false ∧ peer6.present = true
    ∧ (gathering1 []).quiet ∧ (gathering1 []).reaches 6 (.gatherReq (gather1 5)) = true ∧ (gathering1 []).passed 8 = false
    ∧ (gathering1 []).regions[0]? = some { kind := 4, stack := 43, base := 2, len := 2 } ∧ (gathering1 []).net.held = []
    ∧ (gathering1 [heldGather1]).quiet ∧ (gathering1 [heldGather1]).clean 43 ∧ (gathering1 [heldGather1]).net.held = [heldGather1]
    ∧ 1 ≤ ((gathering1 [heldGather1]).stack 43).counter 5 ∧ (gathering1 [heldGather1]).peer 6 = some peer6 := by decide +kernel

theorem witness_GathersAreAnswered_data : receiving1.quiet ∧ receiving1.memOk ∧ receiving1.reaches 6 (.gatherData (gather1 5) (zeros 64)) = true
    ∧ receiving1.net.gathers = [outGather1] ∧ (receiving1.core 0).recvs = [recvWait1] ∧ recvWait1.tag = 9 ∧ (zeros 64).length = recvWait1.len
    ∧ receiving1.peer 6 = some peer6 ∧ (receiving1.stationWay (groupStation peer6.localGroup) 0).map (fun x => receiving1.dropAt x.1 0) = some none := by
  decide +kernel

/-- A module that is Ready, with two interfaces of group 0 up. -/
def ported1 (ups : List Nat) : State :=
  { State.reset with net := { NetSt.reset with cable := [(0, true)], ifaces := ups.map (fun i => (i, .up)) }
                     reset_ := { ResetSt.reset with ready := true, releaseStep := 0 }, power := { PowerSt.reset with railsUp := [0, 1, 2, 3, 4, 5] } }

theorem witness_PortsFollowTheirLinks : (ported1 []).quiet ∧ (ported1 []).iface 0 ≠ .up ∧ (ported1 []).lanesOn 0 = true
    ∧ 0 ∈ (ported1 []).portIfaces 0 ∧ (ported1 []).portMode 0 = 0 ∧ (0 ∉ (ported1 []).net.portsBad) ∧ (ported1 []).reset_.ready = true
    ∧ (ported1 []).reset_.datum = false ∧ (ported1 []).power.powerState ≤ 1 ∧ 5 ∈ (ported1 []).power.railsUp ∧ (ported1 []).power.busLow = false
    ∧ (ported1 [0, 2]).quiet ∧ (ported1 [0, 2]).iface 0 = .up ∧ groupOfIface 2 = groupOfIface 0 ∧ 2 ∈ (ported1 [0, 2]).groupUp (groupOfIface 0) := by
  decide +kernel

theorem witness_PortsFollowTheirLinks_solicited :
    (ported1 [0]).iface 0 = .up ∧ zeros 16 = (ported1 [0]).groupAddr (groupOfIface 0) := by decide +kernel


theorem witness_noTableFull : (∀ i, (peered1 peer6).tableFull i = false) ∧ (peered1 peer6).net.backlog = []
    ∧ (peered1 peer6).job.batch.stage ≠ .reload ∧ (owner3 1).job.batch.stage ≠ .reload ∧ (owner3 1).net.backlog = []
    ∧ (linked1 peer6).job.batch.stage ≠ .reload ∧ (linked1 peerTx).net.backlog = [] ∧ (ported1 [0, 2]).net.backlog = [] := by
  refine ⟨fun i => ?_, by decide +kernel⟩
  have h : ((peered1 peer6).net.peers.map (fun p => messagesOn p.tx i)).foldl (· + ·) 0 = 0 := rfl
  unfold State.tableFull
  rw [h]
  split <;> simp
/-! ### Host link -/

/-- A command slot (R584). -/
def slotBytes (op tag length stack hbm resp respLen : Nat) : List Byte :=
  leBytes op 1 ++ zeros 3 ++ leBytes tag 4 ++ leBytes 0x1000 8 ++ leBytes length 8 ++ leBytes stack 1 ++ zeros 7 ++ leBytes hbm 8
    ++ leBytes resp 8 ++ leBytes respLen 4 ++ zeros 12
/-- A module that is Ready behind a host link, as `h` says. -/
def hosted (h : HostSt) : State :=
  { State.reset with job := { JobSt.reset with jobState := jsNO_PLAN }
                     host := { h with linkUp := true }, power := { PowerSt.reset with railsUp := [0, 1, 2, 3, 4, 5] }
                     reset_ := { ResetSt.reset with ready := true, releaseStep := 0 } }
/-- The same with a command in its ring. -/
def ringed (b : List Byte) : State :=
  hosted { HostSt.reset with cmdEn := .on, busMaster := .on, cmdProducer := 1, windowC := Memory.writeN [] 0x100000 b }
def cmd1 : HostCmd :=
  { opcode := 0, notify := false, tag := 77, hostAddr := 4096, length := 64, stack := 0, hbmAddr := 0, respAddr := 0, respLen := 0, bad := false
    index := 0, wait := none, outcome := none }
def dma1 (op : Nat) : HostCmd := { cmd1 with opcode := op, length := 64, stack := 43, hbmAddr := 4096 }
def odCmd : HostCmd := { cmd1 with opcode := 1, length := 20, respAddr := 8192, respLen := 64 }
/-- A READ of UPDATE_WAIT as a host sends it (R600). -/
def odMessage : List Byte := leBytes 1 1 ++ leBytes opREAD 1 ++ zeros 2 ++ leBytes 5 4 ++ leBytes 0x2A01 2 ++ leBytes 1 1 ++ zeros 9

def fresh1 : State := hosted .reset
def on1 : State := hosted { HostSt.reset with cmdEn := .on, busMaster := .on, evtEn := .on }
def drain1 : State := hosted { HostSt.reset with cmdEn := .draining true, inflight := [dma1 2] }

theorem witness_HostRegistersAct_rings : fresh1.quiet ∧ fresh1.rings = true
    ∧ idxDiff ((4096#32).toNat % 65536) fresh1.host.cmdConsumer ≤ 4096
    ∧ idxDiff fresh1.host.cmdProducer fresh1.host.cmdConsumer ≤ idxDiff ((4096#32).toNat % 65536) fresh1.host.cmdConsumer
    ∧ 4096 < idxDiff ((4097#32).toNat % 65536) fresh1.host.cmdConsumer
    ∧ idxDiff ((0#32).toNat % 65536) fresh1.host.cplConsumer ≤ idxDiff fresh1.host.cplProducer fresh1.host.cplConsumer
    ∧ idxDiff fresh1.host.cplProducer fresh1.host.cplConsumer < idxDiff ((1#32).toNat % 65536) fresh1.host.cplConsumer
    ∧ idxDiff ((0#32).toNat % 65536) fresh1.host.evtConsumer ≤ idxDiff fresh1.host.evtProducer fresh1.host.evtConsumer := by decide +kernel

theorem witness_HostRegistersAct_enables : fresh1.host.cmdEn = .off ∧ fresh1.host.busMaster = .off ∧ fresh1.host.evtEn = .off
    ∧ on1.quiet ∧ on1.rings = true ∧ on1.host.cmdEn = .on ∧ on1.host.busMaster = .on ∧ on1.host.evtEn = .on
    ∧ drain1.quiet ∧ drain1.rings = true ∧ drain1.host.cmdEn = .draining true ∧ drain1.host.inflight = [dma1 2] := by decide +kernel

def nop1 : State := ringed (slotBytes 0 77 64 0 0 0 0)
def cfence1 : State := ringed (slotBytes 4 77 64 0 0 0 0)
def dmaState (op : Nat) : State := ringed (slotBytes op 77 64 43 4096 0 0)
def odState : State := ringed (slotBytes 1 77 20 0 0 8192 64)
def landed1 : State := hosted { HostSt.reset with inflight := [{ dma1 2 with outcome := some (.ok, 64) }] }
def coalescing1 : State := hosted { HostSt.reset with unsignalled := 1, coalesceTime := 50 }

theorem witness_HostCommandsRun : nop1.quiet ∧ nop1.memOk ∧ nop1.takes cmd1
    ∧ cfence1.quiet ∧ cfence1.memOk ∧ cfence1.takes { cmd1 with opcode := 4 } ∧ cfence1.host.inflight = []
    ∧ (∀ op ∈ [2, 3], (dmaState op).quiet ∧ (dmaState op).memOk ∧ (dmaState op).takes (dma1 op) ∧ (dmaState op).stackServed 43 = true ∧ (dmaState op).stackFull 43 = false
      ∧ (dmaState op).clean 43 ∧ (dmaState op).slotsMet 43 4096 64 = [])
    ∧ (dma1 2).hbmAddr + (dma1 2).length ≤ planSpace ∧ (zeros 64).length = (dma1 2).length := by decide +kernel

theorem witness_HostCommandsRun_od : odState.quiet ∧ odState.memOk ∧ odState.takes odCmd ∧ odState.host.inflight = []
    ∧ odMessage.length = odCmd.length ∧ (odState.taken.hostMessage .ring ringClient odMessage).1.quiet
    ∧ (hostResponse odMessage (odState.taken.hostMessage .ring ringClient odMessage).2).length ≤ odCmd.respLen := by decide +kernel

theorem witness_HostCommandsRun_end : landed1.quiet ∧ landed1.memOk ∧ landed1.hostUp = true
    ∧ landed1.host.inflight = [{ dma1 2 with outcome := some (.ok, 64) }] ∧ (dma1 2).tag < 2 ^ 32
    ∧ coalescing1.quiet ∧ coalescing1.memOk ∧ coalescing1.rings = true ∧ coalescing1.host.unsignalled ≠ 0
    ∧ coalescing1.host.coalesceTime ≠ 0 := by decide +kernel

/-- UPDATE_WAIT as the ring reads it: 50 (R627, R637). -/
theorem test_od_read : (odState.taken.hostMessage .ring ringClient odMessage).2 = ⟨.ok, leBytes 50 4⟩ := by decide +kernel

def mailbox1 : State := hosted { HostSt.reset with windowC := Memory.writeN [] 0x10000 odMessage }
def badStack1 : State := hosted { HostSt.reset with wdStack := 63 }

theorem witness_WindowsAndMailboxServe : fresh1.quiet ∧ fresh1.memOk ∧ fresh1.hostUp = true ∧ fresh1.wdRefused 0 64 = false ∧ fresh1.stackFull fresh1.host.wdStack = false
    ∧ 0 + 64 ≤ planSpace ∧ fresh1.clean fresh1.host.wdStack ∧ fresh1.slotsMet fresh1.host.wdStack 0 (zeros 64).length = []
    ∧ fresh1.wdRefused 0 (zeros 64).length = false ∧ planSpace < planSpace - 63 + (zeros 64).length
    ∧ badStack1.quiet ∧ badStack1.memOk ∧ badStack1.hostUp = true ∧ badStack1.wdRefused 0 4 = true := by decide +kernel

theorem witness_WindowsAndMailboxServe_mailbox : mailbox1.quiet ∧ mailbox1.memOk ∧ mailbox1.hostUp = true ∧ mailbox1.host.mbBusy = false
    ∧ (({ mailbox1 with host := { mailbox1.host with mbBusy := true } } : State).hostMessage .mailbox mailboxClient
        (Memory.readN mailbox1.host.windowC 0x10000 0x1000)).1.quiet
    ∧ Memory.wf (({ mailbox1 with host := { mailbox1.host with mbBusy := true } } : State).hostMessage .mailbox mailboxClient
        (Memory.readN mailbox1.host.windowC 0x10000 0x1000)).1.host.windowC = true := by decide +kernel

/-! ### Chart and the object dictionary -/

def chart1 (path : Path) (index sub : Nat) (auth : Option Trailer) (body : List Byte) : Chart :=
  { path := path, client := 9, txn := 5, index := index, sub := sub, offset := 0, last := true, auth := auth, body := body }
/-- A module whose always-on domain has been released, Ready, with its host. -/
def served (f : FieldSt) (k : List AuthKey) : State :=
  { fresh1 with fieldNet := f, fw := { FwSt.reset with authKeys := k } }
def kept1 : Kept := { client := 9, txn := 5, op := opREAD, status := .ok, header := [], body := [1] }

theorem witness_ChartAnswers : (∀ path ∈ [Path.mailbox, .ring, .field], fresh1.quiet ∧ fresh1.pathUp path = true)
    ∧ chartFormed { chart1 .mailbox 0x2A01 1 none [] with version := 2 } = false ∧ chartFormed (chart1 .mailbox 0x2A01 1 none []) = true
    ∧ odFind 0x0FFF 1 = none ∧ (odFind 0x2A01 1).isSome = true ∧ fresh1.unreachable 0x2A01 1 = none
    ∧ (served { FieldSt.reset with kept := [kept1] } []).quiet ∧ (served { FieldSt.reset with kept := [kept1] } []).pathUp .field = true
    ∧ (served { FieldSt.reset with kept := [kept1] } []).fieldNet.kept.find? (fun x => x.client = 9 && x.txn = 5) = some kept1
    ∧ (chart1 .field 0x2A01 1 none []).auth = none ∧ fresh1.awake = true
    ∧ fresh1.fieldNet.kept.find? (fun x => x.client = 9 && x.txn = 5) = none := by decide +kernel

/-- The UPDATE_WAIT entry. -/
def waitEntry : OdEntry := (odFind 0x2A01 1).get (by decide +kernel)

theorem witness_ChartAnswers_read : odFind 0x2A01 1 = some waitEntry ∧ waitEntry.access ≠ .wo ∧ waitEntry.type ≠ .blob :=
  ⟨(Option.some_get _).symm, by decide +kernel, by decide +kernel⟩

def authKey1 : AuthKey := { id := 1, key := zeros 32 }
/-- A write with the trailer that R744 asks for. -/
def signed1 : Chart :=
  let c := chart1 .field 0x2A01 1 (some { keyId := 1, counter := 1, mac := [] }) (beBytes 60000 4)
  { c with auth := some { keyId := 1, counter := 1,
                          mac := hmac authKey1.key (chartHeader c opWRITE ++ c.body ++ (leBytes 1 1 ++ zeros 3 ++ beBytes 1 8)) } }

theorem witness_WritesAreTaken : (∀ path ∈ [Path.mailbox, .ring, .field], (served .reset [authKey1]).quiet
      ∧ (served .reset [authKey1]).pathUp path = true)
    ∧ (served .reset [authKey1]).macOk (chart1 .field 0x2A01 1 none []) opWRITE = false
    ∧ (served .reset [authKey1]).macOk signed1 opWRITE = true ∧ (served .reset [authKey1]).fieldNet.kept = []
    ∧ (served .reset [authKey1]).fw.authCounter < chartCounter signed1 ∧ chartFormed signed1 = true
    ∧ chartFormed (chart1 .ring 0x2A01 1 none (leBytes 60000 4)) = true
    ∧ (served { FieldSt.reset with kept := [kept1] } [authKey1]).quiet
    ∧ (served { FieldSt.reset with kept := [kept1] } [authKey1]).macOk signed1 opWRITE = true
    ∧ (served { FieldSt.reset with kept := [kept1] } [authKey1]).fieldNet.kept.find? (fun x => x.client = signed1.client && x.txn = signed1.txn)
        = some kept1
    ∧ fresh1.job.jobState = jsNO_PLAN ∧ fresh1.job.loading = none ∧ 1 ≤ 60000 ∧ 60000 < 60001 ∧ 60001 < 2 ^ 32 := by decide +kernel

/-- The same with the counter of the trailer accepted before. -/
def replayed1 : State := { served .reset [authKey1] with fw := { (served .reset [authKey1]).fw with authCounter := 1 } }
def accepted1 : State :=
  { replayed1 with nv := replayed1.nv.begin replayed1.micros false (served .reset [authKey1]).nvImage
                   fieldNet := { FieldSt.reset with framesReceived := 1, requests := 1 } }

theorem witness_WritesAreTaken_counter : replayed1.quiet ∧ replayed1.macOk signed1 opWRITE = true ∧ replayed1.fieldNet.kept = []
    ∧ chartCounter signed1 ≤ replayed1.fw.authCounter ∧ (accepted1.odWrite .field 0x2A01 1 signed1.body).1.quiet
    ∧ (accepted1.odWrite .field 0x2A01 1 signed1.body).2 = .of .ok
    ∧ (accepted1.odWrite .field 0x2A01 1 signed1.body).1.plotter.updateWait = 60000 := by decide +kernel

def snap1 : Snapshot := { client := 9, index := 0x5000, sub := 5, data := [1], lastRead := 100 }
def session1 (client : Nat) : Session := { index := 0x5000, sub := 5, chunk := 0, client := client, bytes := [], fin := none, last := 100 }
def blocked1 (client : Nat) : State := served { FieldSt.reset with snapshots := [snap1], sessions := [session1 client] } []
/-- COUNTER_SELECT: a byte string that a host may write. -/
def selectEntry : OdEntry := (odFind 0x5000 5).get (by decide +kernel)

theorem witness_BlocksAreServed : odFind 0x5000 5 = some selectEntry ∧ (blocked1 9).quiet ∧ (∀ path ∈ [Path.mailbox, .ring, .field], (blocked1 9).pathUp path = true)
    ∧ chartFormed (chart1 .mailbox 0x5000 5 none [1, 2]) = true ∧ (blocked1 9).unreachable 0x5000 5 = none ∧ selectEntry.type = .blob ∧ selectEntry.access ≠ .wo
    ∧ (blocked1 9).forbidden selectEntry.access = false ∧ (blocked1 9).snapshot 9 0x5000 5 = some snap1 ∧ (blocked1 9).fieldNet.kept = []
    ∧ (blocked1 8).quiet ∧ (blocked1 8).session 0x5000 5 0 = some (session1 8) ∧ 8 ≠ 9
    ∧ (blocked1 9).session 0x5000 5 0 = some (session1 9) ∧ (blocked1 9).awake = true :=
  ⟨(Option.some_get _).symm, by decide +kernel⟩

/-- A first piece without LAST leaves the write open; an only piece with LAST makes it whole. -/
theorem witness_BlocksAreServed_pieces : ((session1 9).join 0 [1, 2] false 200).whole = none
    ∧ ((session1 9).join 0 [1, 2] true 200).whole = some [1, 2]
    ∧ (((blocked1 9).dropSession 0x5000 5 0).odPut .mailbox selectEntry [1, 2]).1.quiet := by decide +kernel

/-! ### Clears and selections -/

/-- A COUNTER_SELECT blob of event 0 everywhere (R754, R755). -/
def select0 : List Byte := (leBytes 0 4 ++ leBytes 2876 2 ++ leBytes 8 2 ++ zeros 8) ++ List.replicate 92032 0

theorem leNat_replicate_zero (n : Nat) : leNat (List.replicate n (0 : Byte)) = 0 := by
  induction n with
  | zero => rfl
  | succ n ih => rw [List.replicate_succ, leNat, ih]; rfl

theorem selectWord_select0 (b k : Nat) : selectWord select0 b k = 0 := by
  have h : (leBytes 0 4 ++ leBytes 2876 2 ++ leBytes 8 2 ++ zeros 8).length = 16 := rfl
  rw [selectWord, leAt, slice, select0, ← h, List.drop_append, List.drop_eq_nil_of_le (by omega), List.nil_append,
    List.drop_replicate, List.take_replicate, leNat_replicate_zero]

theorem selectOk_select0 : selectOk select0 = true := by
  have h : ∀ b k, ctlOk b k 0 = true := by
    intro b k
    simp [ctlOk, eventListed, ctlEvent, ctlChain, ctlInvert, ctlThr, field, bit]
  have hl : select0.length = 92048 := by rw [select0, List.length_append, List.length_replicate]; rfl
  have h4 : leAt select0 4 2 = 2876 := by decide +kernel
  have h6 : leAt select0 6 2 = 8 := by decide +kernel
  have h8 : slice select0 8 8 = zeros 8 := by decide +kernel
  simp only [selectOk, hl, h4, h6, h8, selectWord_select0, h, List.all_eq_true, Bool.and_eq_true, decide_eq_true_eq, implies_true, and_self]

theorem witness_ClearsClear : selectOk select0 = true ∧ selectOk [] = false ∧ fresh1.quiet ∧ fresh1.memOk ∧ fresh1.closed = none
    ∧ fresh1.job.plan = none ∧ fresh1.job.jobState = jsNO_PLAN ∧ fresh1.job.loading = none :=
  ⟨selectOk_select0, by decide +kernel⟩

theorem witness_ClearsClear_plotter : (owner1 1 [] []).quiet ∧ (owner1 1 [] []).closed = none ∧ (owner1 1 [] []).memOk
    ∧ (owner1 1 [] []).ownedLayers = [3] ∧ (owner1 1 [] []).placeOfLayer 3 = some place1 ∧ (owner1 1 [] []).clean 0 := by decide +kernel

/-! ### Power states, resets and the start -/

/-- A module in a power state, on its way to another. -/
def powered (st target : Nat) : State :=
  let s := fresh1.actionStart 0x3000 2
  { s with power := { s.power with powerState := st, target := some target } }

/-- A module that rests in a power state. -/
def resting (st : Nat) : State := { fresh1 with power := { fresh1.power with powerState := st } }
/-- A turn-on that waits. -/
def unsettled1 : State :=
  let s := powered 2 0
  { s with power := { s.power with gov := [(0, { GovSt.idle with waiting := [{ reg := regId 1 0, budget := 33, since := 0, began := 0, half := false }] })] } }

theorem witness_PowerStatesChangeInOrder_up : (∀ st ∈ [1, 2, 3, 4], (resting st).quiet ∧ (resting st).closed = none
      ∧ (resting st).power.powerState = st ∧ (resting st).power.target = none ∧ (resting st).job.jobState = jsNO_PLAN
      ∧ (resting st).job.loading = none)
    ∧ 55 ∉ (resting 2).wafer.dark ∧ 3 ∈ legKinds 2 ∧ regId 3 55 ∈ sheetRegs 3 55 ∧ regId 3 55 ∉ (resting 2).power.regsOff
    ∧ ((resting 2).reg (regId 3 55)).failed = false
    ∧ unsettled1.quiet ∧ unsettled1.power.target = some 0 ∧ 0 < unsettled1.power.powerState ∧ unsettled1.power.settled = false := by
  decide +kernel

theorem witness_PowerStatesChangeInOrder : fresh1.quiet ∧ fresh1.closed = none ∧ fresh1.power.powerState = 0
    ∧ fresh1.power.target = none ∧ fresh1.job.jobState = jsNO_PLAN ∧ fresh1.job.loading = none
    ∧ (∀ st ∈ [0, 1, 2], (powered st 4).quiet ∧ (powered st 4).power.target = some 4 ∧ (powered st 4).power.powerState + 1 < 4
      ∧ (powered st 4).job.plan = none)
    ∧ (∀ st ∈ [0, 1, 2, 3], (powered st (st + 1)).quiet ∧ (powered st (st + 1)).power.target = some (st + 1)
      ∧ (powered st (st + 1)).power.powerState + 1 = st + 1 ∧ (powered st (st + 1)).job.loading = none ∧ (powered st (st + 1)).job.plan = none
      ∧ ((powered st (st + 1)).action 0x3000 2).busy = true)
    ∧ (∀ st ∈ [1, 2, 3, 4], (powered st (st - 1)).quiet ∧ (powered st (st - 1)).power.target = some (st - 1)
      ∧ st - 1 + 1 = (powered st (st - 1)).power.powerState ∧ (powered st (st - 1)).job.loading = none ∧ (powered st (st - 1)).power.settled = true
      ∧ ((powered st (st - 1)).action 0x3000 2).busy = true)
    ∧ (∀ st ∈ [2, 3, 4], (powered st 0).quiet ∧ (powered st 0).closed = none ∧ (powered st 0).power.target = some 0
      ∧ 0 + 1 < (powered st 0).power.powerState ∧ (powered st 0).power.settled = true) := by
  decide +kernel

def datum1 : State := { State.reset with reset_ := { ResetSt.reset with datum := true } }

theorem witness_ResetSourcesAreHeld : fresh1.quiet ∧ fresh1.reset_.ready = true ∧ fresh1.reset_.datum = false
    ∧ datum1.quiet ∧ datum1.reset_.datum = true
    ∧ State.reset.quiet ∧ State.reset.reset_.ready = false ∧ State.reset.reset_.datum = false
    ∧ State.reset.reset_.awaitPush = false ∧ State.reset.reset_.thermalHold = false ∧ State.reset.power.cartouche = true := by decide +kernel

/-- A reset waits `us` after a write of the NV store began, if one did. -/
def resetting1 (scope : Scope) (pulse : Bool) (us : Nat) : State :=
  { fresh1 with reset_ := { fresh1.reset_ with pending := some (rcOD_WARM, scope) }, aon := 25 * us
                nv := { pulse := if pulse then some (0, { fresh1.nvImage with authCounter := 7 }) else none } }

theorem witness_ResetsStartAgain : ∀ scope ∈ [Scope.warm, .cold], (∀ x ∈ [(false, 0), (true, 120), (true, 121)], (resetting1 scope x.1 x.2).quiet
      ∧ (resetting1 scope x.1 x.2).reset_.pending = some (rcOD_WARM, scope) ∧ (resetting1 scope x.1 x.2).job.ckpt.st = 0
      ∧ (resetting1 scope x.1 x.2).power.cartouche = true ∧ (resetting1 scope x.1 x.2).power.powerState ≠ 4)
    ∧ (resetting1 scope false 0).nv.pulse = none ∧ (resetting1 scope true 120).nv.pulse ≠ none ∧ (resetting1 scope true 121).nv.pulse ≠ none
    ∧ (resetting1 scope true 120).nv.overrun (resetting1 scope true 120).micros = false
    ∧ (resetting1 scope true 121).nv.overrun (resetting1 scope true 121).micros = true := by decide +kernel

def partial1 (fab : Bool) (n : Option Nat) : State := { fresh1 with reset_ := { fresh1.reset_ with fabricReset := fab, coreReset := n } }

theorem witness_PartialResetsAct : fresh1.quiet ∧ fresh1.partReset = none ∧ (partial1 true none).quiet
    ∧ (partial1 true none).reset_.fabricReset = true ∧ (partial1 true none).power.powerState < 3
    ∧ (partial1 false (some 1343)).quiet ∧ (partial1 false (some 1343)).reset_.coreReset = some 1343
    ∧ 1343 ∉ (partial1 false (some 1343)).wafer.fieldDefects
    ∧ (partial1 false (some 1343)).wafer.fieldDefects.length < 64 ∧ fresh1.reset_.fabricReset = false
    ∧ (partial1 true none).partReset = none ∧ (partial1 true none).job.batch.stage ≠ .reload ∧ 3 ∈ (partial1 true none).power.railsUp := by decide +kernel

/-- A Fabric reset that has cut a batch's reload short. -/
def cut1 : State :=
  let s := partial1 true none
  { s with job := { s.job with batch := (batchOf .reload).cut } }

theorem witness_PartialResetsAct_cut : cut1.quiet ∧ cut1.reset_.fabricReset = true ∧ cut1.job.batch.stage = .reload := by decide +kernel

def start1 (step clk : Nat) (hold : Bool) : State :=
  { State.reset with reset_ := { ResetSt.reset with releaseStep := step, clkMode := clk, thermalHold := hold } }
def report1 : StepReport :=
  { bootSrc := 0, clkMode := 0, slotId := 0, recheckFailed := [], loadFailures := [], flashBad := false, badCores := [], badRouters := [], badLinks := [], wires := []
    badStacks := [], badConverters := [], badPorts := [], tornDefects := [], badImages := [] }

theorem witness_ReleaseStepsFollow : (∀ step ∈ [1, 2, 4, 5, 6, 9], ∀ hold ∈ [false, true], (start1 step 1 hold).quiet
      ∧ (start1 step 1 hold).starting = true ∧ (start1 step 1 hold).reset_.releaseStep = step
      ∧ (start1 step 1 hold).reset_.thermalHold = hold ∧ (start1 step 1 hold).reset_.failedStarts = 0
      ∧ (start1 step 1 hold).reset_.bootSrc = 0 ∧ (start1 step 1 hold).reset_.clkMode = 1 ∧ (start1 step 1 hold).fw.unconfirmed = false
      ∧ (start1 step 1 hold).reset_.pllOnModule = false)
    ∧ report1.bootSrc % 4 = 0 ∧ report1.badConverters = [] ∧ numLe (int32 36) (int32 35) = false ∧ numLe (int32 35) (int32 35) = true := by
  decide +kernel

/-- A start that has kept a stack whose layer has its journal to copy (R476). -/
def journal1 : State :=
  let s := start1 6 0 false
  { s with job := { s.job with ownerPlaces := [place1] }
           hbm := [(0, { StackSt.reset with mem := Memory.writeN [] 1024 (leBytes 1 4 ++ leBytes 1 1 ++ leBytes 1 1) })] }

theorem witness_ReleaseStepsFollow_journal : journal1.quiet ∧ journal1.starting = true ∧ journal1.reset_.releaseStep = 6
    ∧ journal1.job.ownerPlaces = [place1] ∧ (journal1.stateHdr place1).journal = 1 ∧ report1.badStacks = [] ∧ journal1.memOk
    ∧ journal1.clean 0 ∧ journal1.clean 1 ∧ place1.hdr + 64 ≤ place1.mom := by decide +kernel

/-! ### Gazetteer -/

def capMsg1 : CapMsg := { interval := false, seq := 3, reached := [] }
def sweep1 : CapSweep := { kind := 0, step := 1, attempt := 0, time := 0, epoch := 0, seq := 3 }
def gazed (producer consumer : Nat) (msgs : List CapMsg) (sweep : Option CapSweep) : State :=
  { fresh1 with gaz := { GazSt.reset with mode := 1, producer := producer, consumer := consumer, msgs := msgs, sweep := sweep } }

theorem witness_CountsAreCaptured : (∀ b ∈ [0, 1343, 1344, 2688, 2732, 2764, 2820, 2875], b < numBlocks
      ∧ (gazed 0 0 [capMsg1] none).captures b = true)
    ∧ (gazed 0 0 [capMsg1] none).quiet ∧ (gazed 0 0 [capMsg1] none).gaz.msgs = [capMsg1] ∧ capMsg1.reached = [] ∧ capMsg1.interval = false
    ∧ (gazed 0 0 [] none).quiet ∧ (gazed 0 0 [] none).gaz.mode = 1 ∧ (gazed 0 0 [] none).reset_.ready = true
    ∧ (∀ p ∈ [255, 256], (gazed p 0 [] (some sweep1)).quiet ∧ (gazed p 0 [] (some sweep1)).memOk
      ∧ (gazed p 0 [] (some sweep1)).gaz.sweep = some sweep1 ∧ (gazed p 0 [] (some sweep1)).sweepReady sweep1 = true
      ∧ (gazed p 0 [] (some sweep1)).clean gazRingStack) := by decide +kernel

/-! ### Firmware and attestation -/

/-- SHA-256 of "abc" (FIPS 180-4). -/
theorem test_sha256_abc : sha256 [0x61, 0x62, 0x63]
    = beBytes 0xba7816bf8f01cfea414140de5dae2223b00361a396177a9cb410ff61f20015ad 32 := by decide +kernel

/-- A delivery of one manifest chunk and two body chunks: the first is all zeros, the second hashes to what the first does not. -/
def delivery1 : Delivery :=
  { bytes := [(0, zeros 0x14 ++ leBytes 1 4 ++ leBytes 2 4 ++ zeros 4064), (1, zeros 4096), (2, sha256 (zeros 4096) ++ ((sha256 (zeros 4096)).map (fun b => ~~~b) ++ zeros 4032))]
    bitmap := [0, 1, 2], headerOk := true, manifestOk := true }
def imaged (s0 s1 : SlotState) (d : Delivery) : State :=
  { fresh1 with fw := { FwSt.reset with slot0 := { ImgSlot.none with st := s0 }, slot1 := { ImgSlot.none with st := s1 }, staging := d
                                        confirmRemaining := 1800 } }

theorem sha256_length (l : List Byte) : (sha256 l).length = 32 := by simp [sha256]

/-- Its one manifest chunk. -/
theorem delivery1_manifest : delivery1.manifestChunks = 1 := by decide +kernel
theorem delivery1_chunks : delivery1.chunks 2 1 = sha256 (zeros 4096) ++ ((sha256 (zeros 4096)).map (fun b => ~~~b) ++ zeros 4032) :=
  (List.flatMap_cons ..).trans (List.append_nil _)

theorem witness_FirmwareAndReports_bundle : (imaged .confirmed .empty delivery1).quiet
    ∧ (imaged .confirmed .empty delivery1).noBundle .mailbox = none ∧ (imaged .confirmed .empty delivery1).delivery = delivery1
    ∧ delivery1.headerOk = true ∧ delivery1.manifestOk = true ∧ (zeros 4096).length = 4096 ∧ 3 ∉ delivery1.bitmap ∧ 2 + delivery1.manifestChunks ≤ 3 ∧ 4 < delivery1.total
    ∧ (delivery1.store 3 (zeros 4096)).hasAll 0 delivery1.total = false := by decide +kernel

theorem witness_FirmwareAndReports_allow :
    (imaged .confirmed .empty delivery1).allow .mailbox 4096 = some (imaged .confirmed .empty delivery1) := rfl

/-- A bundle that the boot ROM awaits by the field network. -/
def pushed1 : State :=
  { fresh1 with reset_ := { fresh1.reset_ with awaitPush := true, releaseStep := 2, bootSrc := 2 }, fw := { FwSt.reset with push := delivery1 } }

theorem witness_FirmwareAndReports_push : pushed1.quiet ∧ pushed1.pushing = true ∧ pushed1.noBundle .field = none
    ∧ pushed1.allow .field 4096 = some pushed1 ∧ pushed1.delivery = delivery1 := ⟨by decide +kernel, rfl, rfl, rfl, rfl⟩

theorem ne_map_not (l : List Byte) (h : l.length = 32) : l ≠ l.map (fun b => ~~~b) := by
  have hb : ∀ b : Byte, b ≠ ~~~b := by decide +kernel
  cases l with
  | nil => cases h
  | cons b l => intro e; exact hb b (List.cons.inj e).1

/-- Zeros are the first body chunk that the manifest names, and not the second. -/
theorem witness_FirmwareAndReports_body :
    delivery1.bodyOk (3 - 2 - delivery1.manifestChunks) (zeros 4096) = true
      ∧ delivery1.bodyOk (4 - 2 - delivery1.manifestChunks) (zeros 4096) = false := by
  rw [delivery1_manifest]
  refine ⟨?_, ?_⟩
  · rw [Delivery.bodyOk, delivery1_manifest, delivery1_chunks, slice]
    simp only [Nat.sub_self, Nat.mul_zero, List.drop_zero]
    rw [List.take_append_of_le_length (Nat.le_of_eq (sha256_length _).symm), List.take_of_length_le (Nat.le_of_eq (sha256_length _))]
    exact decide_eq_true rfl
  · rw [Delivery.bodyOk, delivery1_manifest, delivery1_chunks, slice]
    rw [List.drop_append, List.drop_eq_nil_of_le (Nat.le_of_eq (sha256_length _)), List.nil_append, sha256_length]
    simp only [Nat.sub_self, List.drop_zero]
    rw [List.take_append_of_le_length (Nat.le_of_eq (Eq.trans (List.length_map _) (sha256_length _)).symm),
      List.take_of_length_le (Nat.le_of_eq (Eq.trans (List.length_map _) (sha256_length _)))]
    exact decide_eq_false (ne_map_not _ (sha256_length _))

theorem witness_FirmwareAndReports_slots : (imaged .confirmed .staged delivery1).quiet ∧ (imaged .confirmed .staged delivery1).fw.find .staged = some 1
    ∧ (imaged .confirmed .staged delivery1).job.plan = none
    ∧ (imaged .confirmed .staged delivery1).fw.active = some 0
    ∧ (imaged .unconfirmed .previous .empty).quiet ∧ (imaged .unconfirmed .previous .empty).reset_.datum = false
    ∧ (imaged .unconfirmed .previous .empty).fw.unconfirmed = true ∧ (imaged .unconfirmed .previous .empty).confirming = true
    ∧ ((imaged .unconfirmed .previous .empty).micros - (imaged .unconfirmed .previous .empty).fw.confirmAt) / 60000000 + 1 = 1
    ∧ 60 * 1 < (imaged .unconfirmed .previous .empty).fw.confirmRemaining := by decide +kernel

/-- The same with a plan loaded. -/
def imagedPlan : State :=
  let s := imaged .unconfirmed .previous .empty
  { s with job := { s.job with plan := some plan0 } }
def reporting1 : State := { fresh1 with fw := { FwSt.reset with pendingReport := some [1, 2] } }

theorem witness_FirmwareAndReports : imagedPlan.quiet ∧ imagedPlan.confirming = true ∧ imagedPlan.job.plan ≠ none
    ∧ fresh1.quiet ∧ (zeros 32).length = 32 ∧ fresh1.fw.pendingReport = none
    ∧ reporting1.quiet ∧ reporting1.fw.pendingReport = some [1, 2] := by decide +kernel

/-! ### Power delivery and monitors -/

def feeding (f : FeedSt) (cart low : Bool) : State :=
  { State.reset with power := { PowerSt.reset with feedA := f, cartouche := cart, busLow := low } }
/-- A feed in a state, opened for over range or not, its contact made or not. -/
def feed1 (st : FeedState) (opened pres : Bool) : FeedSt := { st := st, since := 0, mv := 54000, opened := opened, pres := pres }

/-- Each of the four commands finds a feed that begins to supply, one that stops, and one that does neither, with the Cartouche running and
stopped. -/
theorem witness_FeedsChange : (∀ c ∈ [false, true],
      (feeding (feed1 .underRange false true) c false).quiet ∧ (feed1 .underRange false true).supplies = false
      ∧ FeedState.after .underRange 54000 = .inRange ∧ FeedState.after .inRange 61000 = .overRange ∧ FeedState.after .underRange 46400 = .underRange
      ∧ (feeding (feed1 .inRange true true) c false).quiet ∧ (feed1 .inRange true true).supplies = false
      ∧ (feeding (feed1 .inRange false true) c false).quiet ∧ (feed1 .inRange false true).supplies = true
      ∧ (feeding (feed1 .inRange false false) c false).quiet ∧ (feed1 .inRange false false).supplies = false
      ∧ (feeding (feed1 .inRange true false) c false).quiet ∧ (feed1 .inRange true false).supplies = false
      ∧ (feeding (feed1 .inRange false true) c false).power.cartouche = c)
    ∧ (feed1 .overRange true true).st ≠ .inRange ∧ 45500 < 45501 ∧ 60499 < 60500 := by decide +kernel

theorem witness_FeedsChange_lost : (∀ low ∈ [false, true], (feeding (feed1 .overRange true false) true low).quiet
      ∧ (feeding (feed1 .overRange true false) true low).power.supplied = false
      ∧ (feeding (feed1 .overRange true false) true low).power.busLow = low
      ∧ (feeding (feed1 .overRange true false) true low).power.cartouche = true)
    ∧ (feeding (feed1 .overRange true false) true false).noPeers := by
  refine ⟨by decide +kernel, Or.inl rfl⟩

def regulated (r : Nat) (x : RegSt) (drains : List Nat) : State :=
  { State.reset with power := { PowerSt.reset with railsUp := [0, 1, 2, 3, 4, 5], regs := [(r, x)], drains := drains } }

theorem witness_RegulatorsFail : State.reset.quiet ∧ 223 ∉ State.reset.power.convFailed ∧ (∀ c ∈ State.reset.power.convFailed, c / 4 ≠ 223 / 4)
    ∧ (∀ r ∈ [regId 1 1343, regId 2 1343, regId 4 43], regExists r = true ∧ regKind r ≠ 0 ∧ fresh1.regRuns r = true
      ∧ fresh1.railHeld r = true ∧ State.reset.railHeld r = false ∧ (fresh1.reg r).phasesFailed < regCarried (regKind r))
    ∧ fresh1.quiet ∧ fresh1.job.batch.stage ≠ .reload
    ∧ (regulated (regId 4 43) { RegSt.ok with failed := true } []).quiet
    ∧ ((regulated (regId 4 43) { RegSt.ok with failed := true } []).reg (regId 4 43)).isolated = false
    ∧ regId 4 43 ∉ (regulated (regId 4 43) { RegSt.ok with failed := true } []).power.regsOff
    ∧ ((regulated (regId 4 43) { RegSt.ok with failed := true } []).reg (regId 4 43)).failed = true
    ∧ (regulated (regId 4 43) .ok [1343]).quiet ∧ 1343 ∈ (regulated (regId 4 43) .ok [1343]).power.drains := by decide +kernel

/-- The logic rail of core 1343, nominally 720 mV, at both ends of its ±3 % and beyond; a stack rail has no set point of the spec's (R650,
R653). -/
theorem witness_RegulatorsFail_rail : regExists (regId 1 1343) = true ∧ regKind (regId 1 1343) ≠ 0
    ∧ fresh1.railTarget (regId 1 1343) = some 720 ∧ withinThree 699 720 = true ∧ withinThree 741 720 = true
    ∧ withinThree 742 720 = false ∧ withinThree 698 720 = false ∧ lowOutput 612 720 = false ∧ lowOutput 611 720 = true
    ∧ fresh1.railTarget (regId 4 43) = none
    ∧ (regulated (regId 1 1343) { RegSt.ok with phasesFailed := 2 } []).regRuns (regId 1 1343) = true
    ∧ ((regulated (regId 1 1343) { RegSt.ok with phasesFailed := 2 } []).reg (regId 1 1343)).phasesFailed = 2 := by decide +kernel

def turnOn1 : TurnOn := { reg := regId 1 0, budget := 33, since := 0, began := 0, half := true }
def governed (present : Nat) (waiting ramping : List TurnOn) : State :=
  { State.reset with power := { PowerSt.reset with gov := [(0, { GovSt.idle with present := present, waiting := waiting, ramping := ramping })] } }

theorem witness_TurnOnsAreAdmitted : State.reset.quiet ∧ 0 < numSheets ∧ regExists (regId 1 0) = true ∧ regSheet (regId 1 0) = 0
    ∧ turnOnBudget (regKind (regId 1 0)) ≠ 0 ∧ (State.reset.reg (regId 1 0)).failed = false
    ∧ (∀ t ∈ (State.reset.governor 0).waiting ++ (State.reset.governor 0).ramping, t.reg ≠ regId 1 0)
    ∧ (governed 0 [turnOn1] []).quiet ∧ ((governed 0 [turnOn1] []).governor 0).waiting = turnOn1 :: []
    ∧ GovSt.room { (governed 0 [turnOn1] []).governor 0 with present := 927 } (governed 0 [turnOn1] []).power.sheetLimit 33 = true
    ∧ GovSt.room { (governed 0 [turnOn1] []).governor 0 with present := 928 } (governed 0 [turnOn1] []).power.sheetLimit 33 = false
    ∧ (governed 0 [] [turnOn1]).quiet ∧ ((governed 0 [] [turnOn1]).governor 0).ramping.find? (fun z => z.reg = regId 1 0) = some turnOn1
    ∧ rampTime 0x40000000#32 true 33 = 33 ∧ rampTime 0x40000000#32 false 4 = 2 := by decide +kernel

/-- Every rail is up. -/
def warm1 : State := fresh1
def hot1 (n t : Nat) : Sample := { coreTemps := [(n, int32 t)], sheetTemps := [(447, int32 40)], ringOsc := [], inlet := int32 25, outlet := int32 30 }

theorem witness_SamplesAreJudged : warm1.quiet ∧ 1343 < numCores ∧ (1343, int32 125) ∈ warm1.readings (hot1 1343 125)
    ∧ atLeast 125 (int32 125) = true ∧ (1343 ∉ (warm1.failSensors (warm1.readings (hot1 1343 125))).power.failedSensors)
    ∧ (∀ x ∈ warm1.readings (hot1 1343 99), atLeast 100 x.2 = false ∧ atLeast 110 x.2 = false ∧ atLeast 125 x.2 = false)
    ∧ (warm1.readings (hot1 1343 99)).length = 2
    ∧ warm1.sheetOn (sheetOf 1343) = true ∧ 1343 ∉ warm1.power.failedSensors ∧ implausible (int32 110) = false ∧ atLeast 110 (int32 110) = true
    ∧ atLeast 125 (int32 110) = false ∧ warm1.coreStateOf 1343 ≠ .fenced ∧ warm1.coreStateOf 1343 ≠ .defective ∧ warm1.faultWaits 1343 = false
    ∧ warm1.job.batch.stage ≠ .reload ∧ warm1.railHeld (regId 1 1343) = true ∧ State.reset.railHeld (regId 1 1343) = false := by decide +kernel

theorem witness_SamplesAreJudged_noPeers : warm1.noPeers := Or.inl rfl

/-! ### The queue -/

theorem witness_StepRunsFront : State.reset.pending = [] := rfl
theorem witness_WellFormedCommandsRun : (Instr.halt 1343 .dispatch).wf = true := rfl
/-- A command that the wafer has no place for stops (and is not well-formed). -/
theorem test_noSuchPlace : (Instr.halt 1344 .dispatch).wf = false ∧ exec (.halt 1344 .dispatch) .reset = .fault .noSuchPlace := ⟨rfl, rfl⟩
theorem witness_StepsKeepStateSound : State.reset.memOk ∧ State.reset.quiet ∧ step .reset = .next { State.reset with aon := 1 } :=
  ⟨by decide +kernel, by decide +kernel, rfl⟩

/-! ### Well-formedness refuses -/

def badChart (c : Nat) (t : Option Trailer) : Chart :=
  { path := .mailbox, client := c, txn := 0, index := 0, sub := 0, offset := 0, last := false, auth := t, body := [] }
def badSample : Sample :=
  { coreTemps := [(1344, 0)], sheetTemps := [], ringOsc := [], inlet := 0, outlet := 0 }

/-- One command for each check of WellFormed, out of its range by the least. -/
theorem test_wellFormed_refuses_places : ∀ c ∈ ([.pwait 1344 .fetch, .remoteRaise 0 ⟨1344, 0⟩, .dsendArrival 0 ⟨0, 0⟩ 5, .remoteWait 44 0 0, .remoteWait 0 4 0,
    .streamTileSend 0 4, .ledgerContribution 44, .linkCrcMismatch 6104 false, .escapeWaitExpiry 0 0 ⟨5, 0, true⟩, .classBFault (.stackData 44),
    .classCFault (.sheetLost 56), .halyardOwnPartial 4 0 0 0, .halyardOwnPartial 0 65536 0 0, .halyardOwnPartial 0 0 65536 0,
    .halyardOwnPartial 0 0 0 (2 ^ 32), .plotterUpdateStart 56, .portLinkUp 64, .cblPresN 32 true, .captureMessage 2876, .converterFailed 224,
    .railDeviation ⟨regId 1 1344, 0⟩, .turnOnRequest (regId 4 0)] : List Instr), c.wf = false := by decide +kernel

theorem test_wellFormed_refuses_fields : ∀ c ∈ ([.leave 65536, .halyardSum 0 0 { sum1 with round := 2 }, .downhaul 0 0 { down1 with part := 4 },
    .gatherReq 0 (gather1 6), .heartbeat 0 { beat1 with role := 256 }, .peoloFrame 0 { frame0 with payload := zeros 8193 }, .ack 0 frame6,
    .cmdDrainTimeout 3, .hostRegisterWrite 2 0, .windowDRead (2 ^ 36) 1, .read (badChart (2 ^ 128 + 2) none),
    .write (badChart 0 (some ⟨0, 0, zeros 32⟩)), .odWrite .ring 0 256 [], .mirrorTimeout 0 (dataSpace / 64), .checkpointArm 0 [] 0,
    .bundle .ring 1 (zeros 4096), .attest [], .feedStateChange .a (2 ^ 17), .sensorSample badSample,
    .releaseStep { report1 with badPorts := [32] }] : List Instr), c.wf = false := by decide +kernel

end Sys2Proof.Tests
end

section
/-! The step of the machine: one equation for a waiting command, one for an empty queue. -/

namespace Sys2Proof.Machine

theorem step_of_pending_cons {s : State} {c : Instr} {rest : List Instr} (h : s.pending = c :: rest) :
    step s = exec c { s with pending := rest } := by
  unfold step
  rw [h]

theorem step_of_pending_nil {s : State} (h : s.pending = []) : step s = .next (idle s) := by
  unfold step
  rw [h]

/-- Settles O57: the two equations of `step`, the second with `idle` as the one update of the always-on time. -/
theorem stepRunsFront : Obligations.StepRunsFront := by
  unfold Obligations.StepRunsFront
  constructor
  · intro s c rest
    exact step_of_pending_cons rfl
  · intro s hempty
    exact step_of_pending_nil hempty

end Sys2Proof.Machine
end

section
/-!
The end of a command whose effect leaves job control alone, and the entries that R621 opens.
-/

namespace Sys2Proof.Machine

/-- A command whose effect does not touch job control's fields ends with its effect. -/
theorem done_of_job_eq {s t : State} (h : s.quiet) (hj : t.job = s.job) : done t = .next t :=
  done_quiet t (State.quiet_of_job h hj)

theorem State.opened_of_closed_eq_none {s : State} (h : s.closed = none) (f : State → Wrote) : s.opened f = f s := by
  simp only [State.opened, h]

/-- A command of an entry that completes at once ends with its effect and the action's record (R622). -/
theorem done_opened_acted {s t : State} {f : State → Wrote} {index sub : Nat} (hq : s.quiet) (hc : s.closed = none)
    (hf : f s = t.acted index sub) (hj : t.job = s.job) : done (s.opened f).1 = .next (t.actionDone index sub 0) := by
  rw [State.opened_of_closed_eq_none hc, hf]
  exact done_of_job_eq hq hj

/-- What a command does where no plan stands. -/
theorem ite_plan_of_none {α : Type} {s : State} (h : s.job.plan = none) (a b : α) : (if s.job.plan.isSome then a else b) = b := by
  rw [h]
  rfl

@[simp] theorem State.status_actionDone (s : State) (index sub status : Nat) :
    ((s.actionDone index sub status).action index sub).status = status := by
  simp [State.actionDone, State.actionStart, State.actionEnd, State.action]

end Sys2Proof.Machine
end

section
/-!
Tables and memories read as a whole: a table with a function applied to its values, a table whose keys rise, and the fields of a byte
string that memory holds.
-/

namespace Sys2Proof.Machine

theorem Tab.get_map {α β : Type} (f : α → β) (d : α) (t : Tab α) (k : Nat) :
    Tab.get (f d) (t.map (fun x => (x.1, f x.2))) k = f (Tab.get d t k) := by
  induction t with
  | nil => rfl
  | cons p t ih =>
    simp only [List.map_cons, Tab.get, ih]
    split
    · rfl
    · split <;> rfl

/-- A function that leaves a core after reset as it is, applied to every core. -/
theorem State.core_mapCores {s t : State} {f : CoreSt → CoreSt} (hf : f .reset = .reset)
    (ht : t.cores = s.cores.map (fun x => (x.1, f x.2))) (n : Nat) : t.core n = f (s.core n) := by
  have h := Tab.get_map f .reset s.cores n
  rw [hf] at h
  rw [State.core, ht, h, State.core]

/-- A table whose keys rise reads at each of its keys what it lists there. -/
theorem Tab.get_of_mem {α : Type} {t : Tab α} (d : α) (h : t.Pairwise (fun a b => a.1 < b.1)) {k : Nat} {v : α} (hm : (k, v) ∈ t) :
    Tab.get d t k = v := by
  induction t with
  | nil => cases hm
  | cons p t ih =>
    obtain ⟨hp, ht⟩ := List.pairwise_cons.1 h
    rcases List.mem_cons.1 hm with rfl | hm
    · simp [Tab.get]
    · have hlt : p.1 < k := hp _ hm
      rw [Tab.get, if_neg (Nat.ne_of_gt hlt), if_neg (Nat.lt_asymm hlt), ih ht hm]

theorem upFrom_pairwise (a n : Nat) : (upFrom a n).Pairwise (· < ·) := by
  induction n generalizing a with
  | zero => exact .nil
  | succ n ih =>
    refine List.pairwise_cons.2 ⟨fun b hb => ?_, ih (a + 1)⟩
    obtain ⟨hle, -⟩ := mem_upFrom.1 hb
    omega

theorem Memory.drop_readN (m : Memory) (a n o : Nat) : (Memory.readN m a n).drop o = Memory.readN m (a + o) (n - o) := by
  induction o generalizing a n with
  | zero => rfl
  | succ o ih =>
    cases n with
    | zero => simp [Memory.readN]
    | succ n => rw [Memory.readN, List.drop_succ_cons, ih, Nat.add_sub_add_right, Nat.add_right_comm, Nat.add_assoc]

theorem Memory.take_readN (m : Memory) (a : Nat) {n k : Nat} (h : k ≤ n) : (Memory.readN m a n).take k = Memory.readN m a k := by
  induction k generalizing a n with
  | zero => rfl
  | succ k ih =>
    cases n with
    | zero => omega
    | succ n => rw [Memory.readN, Memory.readN, List.take_succ_cons, ih (a + 1) (by omega)]

/-- A field of bytes that memory holds is the bytes of memory at its place. -/
theorem Memory.slice_readN (m : Memory) (a : Nat) {n o k : Nat} (h : o + k ≤ n) :
    slice (Memory.readN m a n) o k = Memory.readN m (a + o) k := by
  rw [slice, Memory.drop_readN, Memory.take_readN _ _ (by omega)]

/-- A fold whose steps all leave the start as it is. -/
theorem foldl_eq_self {α β : Type} {f : β → α → β} {b : β} {l : List α} (h : ∀ x ∈ l, f b x = b) : l.foldl f b = b := by
  induction l with
  | nil => rfl
  | cons x l ih =>
    rw [List.foldl_cons, h x (List.mem_cons_self ..), ih (fun y hy => h y (List.mem_cons_of_mem _ hy))]

end Sys2Proof.Machine
end

section
/-!
The clearing commands (R65, R184, R246, R507, R636, R749, R754).
-/

namespace Sys2Proof.Machine

/-! ### The field-defect list (R48, R65) -/

theorem DefectCopy.valid_make (seq : Nat) (l : List Nat) : (DefectCopy.make seq l).valid = true := by
  simp [DefectCopy.valid, DefectCopy.make]

/-- The copy that firmware has just written is the one in use. -/
theorem WaferSt.fieldCopy_storeDefects (w : WaferSt) (l : List Nat) : (w.storeDefects l).fieldCopy = .make (w.fieldSeq + 1) l := by
  unfold WaferSt.storeDefects
  dsimp only
  split
  · next h =>
    have hs : w.fieldSeq = w.flash1.seq := by simp only [WaferSt.fieldSeq, WaferSt.fieldCopy, h, if_true]
    have hlt : ¬ (DefectCopy.make (w.fieldSeq + 1) l).seq < w.flash1.seq := by
      simp only [DefectCopy.make]
      omega
    simp only [WaferSt.fieldCopy, DefectCopy.valid_make, hlt, Bool.not_true, decide_false, Bool.or_false, Bool.and_false,
      Bool.false_eq_true, if_false]
  · next h =>
    have hs : w.fieldSeq = w.flash0.seq := by simp only [WaferSt.fieldSeq, WaferSt.fieldCopy, h, Bool.false_eq_true, if_false]
    have hlt : w.flash0.seq < (DefectCopy.make (w.fieldSeq + 1) l).seq := by
      simp only [DefectCopy.make]
      omega
    simp only [WaferSt.fieldCopy, DefectCopy.valid_make, hlt, decide_true, Bool.or_true, Bool.and_true, if_true]

@[simp] theorem WaferSt.fieldDefects_storeDefects (w : WaferSt) (l : List Nat) : (w.storeDefects l).fieldDefects = l := by
  rw [WaferSt.fieldDefects, WaferSt.fieldCopy_storeDefects, DefectCopy.make]

@[simp] theorem WaferSt.fieldSeq_storeDefects (w : WaferSt) (l : List Nat) : (w.storeDefects l).fieldSeq = w.fieldSeq + 1 := by
  rw [WaferSt.fieldSeq, WaferSt.fieldCopy_storeDefects, DefectCopy.make]

/-- Firmware writes nothing but the two flash copies. -/
theorem WaferSt.storeDefects_frame (w : WaferSt) (l : List Nat) :
    w.storeDefects l = { w with flash0 := (w.storeDefects l).flash0, flash1 := (w.storeDefects l).flash1 } := by
  unfold WaferSt.storeDefects
  dsimp only
  split <;> rfl

theorem exec_fieldDefectsClear {s : State} (hq : s.quiet) (hc : s.closed = none) (hp : s.job.plan = none) :
    exec .fieldDefectsClear s = .next (({ s with wafer := s.wafer.storeDefects [] } : State).actionDone 0x2104 2 0) :=
  done_opened_acted hq hc (ite_plan_of_none hp _ _) rfl

/-! ### Flags of the cores and the NV log (R184, R246, R636) -/

theorem exec_flushFlagsClear {s : State} (hq : s.quiet) (hc : s.closed = none) :
    exec .flushFlagsClear s
      = .next (({ s with cores := s.cores.map (fun x => (x.1, { x.2 with flush := 0 })) } : State).actionDone 0x2401 2 0) :=
  done_opened_acted hq hc rfl rfl

theorem exec_accFlagsClear {s : State} (hq : s.quiet) (hc : s.closed = none) :
    exec .accFlagsClear s
      = .next (({ s with cores := s.cores.map (fun x => (x.1, { x.2 with accSat := false })) } : State).actionDone 0x2404 2 0) :=
  done_opened_acted hq hc rfl rfl

theorem exec_nvLogClear {s : State} (hq : s.quiet) (hc : s.closed = none) (hp : s.job.plan = none) :
    exec .nvLogClear s = .next ((({ s with log := { s.log with nv := [] } } : State).nvBegin s.nvImage).actionDone 0x4000 4 0) :=
  done_opened_acted hq hc (ite_plan_of_none hp _ _) rfl

/-! ### FLAGS of the owned layers (R475, R507) -/

/-- The write that PLOTTER_FLAGS_CLEAR makes to the header of an owned layer: bits 0 to 2 of FLAGS become 0. -/
def State.clearHdrFlags (s : State) (p : OwnerPlace) : State :=
  s.writeStack p.stack (p.hdr + 6) (leBytes ((s.stateHdr p).flags - (s.stateHdr p).flags % 8) 1)

theorem State.wf_stack {s : State} (h : s.memOk) (k : Nat) : Memory.wf (s.stack k).mem = true :=
  Tab.get_of_forall (P := fun x : StackSt => Memory.wf x.mem = true) h.2.1 Memory.wf_nil k

theorem State.clearHdrFlags_stack {s : State} {p : OwnerPlace} (hc : s.clean p.stack) :
    (s.clearHdrFlags p).stack p.stack = { s.stack p.stack with
      mem := Memory.writeN (s.stack p.stack).mem (p.hdr + 6) (leBytes ((s.stateHdr p).flags - (s.stateHdr p).flags % 8) 1)
      fetches := ((s.clearHdrFlags p).stack p.stack).fetches } := by
  simp only [State.clearHdrFlags, State.stack_writeStack, StackSt.write_clean hc]

theorem State.clearHdrFlags_stack_other (s : State) {p : OwnerPlace} {j : Nat} (h : j ≠ p.stack) :
    (s.clearHdrFlags p).stack j = s.stack j :=
  s.stack_writeStack_other _ _ _ h

/-- A field of the header is the bytes of memory at its place. -/
theorem State.leAt_readStack (s : State) (k a : Nat) {n o w : Nat} (h : o + w ≤ n) :
    leAt (s.readStack k a n) o w = leNat (Memory.readN (s.stack k).mem (a + o) w) := by
  rw [leAt, State.readStack, Memory.slice_readN _ _ h]

theorem State.stateHdr_eq (s : State) (p : OwnerPlace) :
    s.stateHdr p =
      { tag := leNat (Memory.readN (s.stack p.stack).mem p.hdr 4)
        active := leNat (Memory.readN (s.stack p.stack).mem (p.hdr + 4) 1)
        journal := leNat (Memory.readN (s.stack p.stack).mem (p.hdr + 5) 1)
        flags := leNat (Memory.readN (s.stack p.stack).mem (p.hdr + 6) 1)
        rung := leNat (Memory.readN (s.stack p.stack).mem (p.hdr + 7) 1)
        prodBeta := BitVec.ofNat 32 (leNat (Memory.readN (s.stack p.stack).mem (p.hdr + 8) 4))
        fallbacks := leNat (Memory.readN (s.stack p.stack).mem (p.hdr + 12) 4) } := by
  simp only [State.stateHdr, stateHdrOf]
  rw [State.leAt_readStack s p.stack p.hdr (o := 0) (by omega), State.leAt_readStack s p.stack p.hdr (o := 4) (by omega),
    State.leAt_readStack s p.stack p.hdr (o := 5) (by omega), State.leAt_readStack s p.stack p.hdr (o := 6) (by omega),
    State.leAt_readStack s p.stack p.hdr (o := 7) (by omega), State.leAt_readStack s p.stack p.hdr (o := 8) (by omega),
    State.leAt_readStack s p.stack p.hdr (o := 12) (by omega), Nat.add_zero]

theorem State.flags_stateHdr_lt (s : State) (p : OwnerPlace) : (s.stateHdr p).flags < 256 := by
  rw [State.stateHdr_eq]
  simp only [Memory.readN, leNat]
  have := (Memory.read (s.stack p.stack).mem (p.hdr + 6)).isLt
  omega

/-- The fields of the header lie outside its FLAGS byte, which alone is written. -/
theorem State.stateHdr_clearHdrFlags {s : State} {p : OwnerPlace} (hm : s.memOk) (hc : s.clean p.stack) :
    (s.clearHdrFlags p).stateHdr p = { s.stateHdr p with flags := (s.stateHdr p).flags - (s.stateHdr p).flags % 8 } := by
  have hlt := s.flags_stateHdr_lt p
  have hmem := congrArg StackSt.mem (State.clearHdrFlags_stack hc)
  generalize hb : (s.stateHdr p).flags - (s.stateHdr p).flags % 8 = b at *
  have hw : Memory.wf (s.stack p.stack).mem = true := State.wf_stack hm p.stack
  have hout : ∀ a n, a + n ≤ p.hdr + 6 ∨ p.hdr + 6 + 1 ≤ a →
      Memory.readN (Memory.writeN (s.stack p.stack).mem (p.hdr + 6) (leBytes b 1)) a n = Memory.readN (s.stack p.stack).mem a n :=
    fun a n h => Memory.readN_writeN_outside hw _ (by rwa [leBytes_length])
  have hin : Memory.readN (Memory.writeN (s.stack p.stack).mem (p.hdr + 6) (leBytes b 1)) (p.hdr + 6) 1 = leBytes b 1 := by
    simpa only [leBytes_length] using Memory.readN_writeN hw (p.hdr + 6) (leBytes b 1)
  have hflags : leNat (leBytes b 1) = b := by
    rw [leNat_leBytes]
    omega
  rw [State.stateHdr_eq (s.clearHdrFlags p), State.stateHdr_eq s, hmem, hout p.hdr 4 (by omega), hout (p.hdr + 4) 1 (by omega),
    hout (p.hdr + 5) 1 (by omega), hin, hflags, hout (p.hdr + 7) 1 (by omega), hout (p.hdr + 8) 4 (by omega),
    hout (p.hdr + 12) 4 (by omega)]

/-- No line waits to be merged in any stack, so none is asked for. -/
theorem State.askAllMerges_of_merges_nil {s : State} (h : ∀ j, (s.stack j).merges = []) : s.askAllMerges = s :=
  foldl_eq_self fun p _ => State.askMerges_clean (h p.1)

theorem State.merges_clearHdrFlags {s : State} {p : OwnerPlace} (hc : s.clean p.stack) (h : ∀ j, (s.stack j).merges = []) (j : Nat) :
    ((s.clearHdrFlags p).stack j).merges = [] := by
  by_cases hj : j = p.stack
  · rw [hj, State.clearHdrFlags_stack hc]
    exact h p.stack
  · rw [s.clearHdrFlags_stack_other hj, h j]

/-- With one owned layer, the command writes that layer's FLAGS. -/
theorem exec_plotterFlagsClear {s : State} {l : Nat} {p : OwnerPlace} (hq : s.quiet) (hcl : s.closed = none) (hl : s.ownedLayers = [l])
    (hp : s.placeOfLayer l = some p) (hc : s.clean p.stack) (hm : ∀ j, (s.stack j).merges = []) :
    exec .plotterFlagsClear s = .next ((s.clearHdrFlags p).actionDone 0x2A02 2 0) := by
  have hfold : s.clearPlotterFlags = (s.clearHdrFlags p).askAllMerges.actionDone 0x2A02 2 0 := by
    simp only [State.clearPlotterFlags, hl, List.foldl_cons, List.foldl_nil, hp, State.clearHdrFlags]
  have e : s.opPlotterFlagsClear.1 = (s.clearHdrFlags p).actionDone 0x2A02 2 0 := by
    rw [State.opPlotterFlagsClear, State.opened_of_closed_eq_none hcl, hfold,
      State.askAllMerges_of_merges_nil (State.merges_clearHdrFlags hc hm)]
  exact (congrArg done e).trans (done_of_job_eq hq rfl)

/-! ### Counter selection (R749, R754) -/

theorem State.rwj_of_no_plan {s : State} (hj : s.job.jobState = jsNO_PLAN) (hl : s.job.loading = none) : s.rwj = true := by
  simp only [State.rwj, hj, hl, decide_true, Option.isNone_none, Bool.and_self]

/-- The control words that a blob gives to the counters of all blocks. -/
def selectWords (b : List Byte) : Tab Nat :=
  (upFrom 0 numBlocks).flatMap (fun n => (upFrom 0 (blockCounters n)).map (fun k => (8 * n + k, selectWord b n k)))

theorem blockCounters_le (n : Nat) : blockCounters n ≤ 8 := by
  unfold blockCounters
  split_ifs <;> omega

theorem selectWords_rise (b : List Byte) : (selectWords b).Pairwise (fun x y => x.1 < y.1) := by
  refine List.pairwise_flatMap.2 ⟨fun n _ => List.pairwise_map.2 ((upFrom_pairwise 0 _).imp (fun h => ?_)),
    (upFrom_pairwise 0 _).imp (fun {n m} h x hx y hy => ?_)⟩
  · exact Nat.add_lt_add_left h _
  · obtain ⟨i, hi, rfl⟩ := List.mem_map.1 hx
    obtain ⟨j, -, rfl⟩ := List.mem_map.1 hy
    have hi8 := (mem_upFrom.1 hi).2
    have hle := blockCounters_le n
    dsimp only
    omega

theorem get_selectWords (b : List Byte) {n k : Nat} (hn : n < numBlocks) (hk : k < blockCounters n) :
    Tab.get 0xFF00 (selectWords b) (8 * n + k) = selectWord b n k :=
  Tab.get_of_mem _ (selectWords_rise b) (List.mem_flatMap.2 ⟨n, mem_upFrom.2 (by omega),
    List.mem_map.2 ⟨k, mem_upFrom.2 (by omega), rfl⟩⟩)

theorem exec_counterSelect_bad {s : State} {b : List Byte} (hq : s.quiet) (hw : s.rwj = true) (hb : selectOk b = false) :
    exec (.counterSelect b) s = .next s := by
  have e : execCounterSelect b s = done s := by
    simp only [execCounterSelect, hw, State.setCounterSelect, hb, Bool.not_true, Bool.not_false, Bool.false_eq_true, if_false, if_true]
  exact e.trans (done_quiet s hq)

theorem exec_counterSelect_ok {s : State} {b : List Byte} (hq : s.quiet) (hw : s.rwj = true) (hb : selectOk b = true) :
    exec (.counterSelect b) s = .next ({ s with gaz := { s.gaz with control := selectWords b } } : State).clearCounts := by
  have e : execCounterSelect b s = done ({ s with gaz := { s.gaz with control := selectWords b } } : State).clearCounts := by
    simp only [execCounterSelect, hw, State.setCounterSelect, hb, Bool.not_true, Bool.false_eq_true, if_false, selectWords]
  exact e.trans (done_of_job_eq hq rfl)

theorem State.core_clearCounts (s : State) (n : Nat) :
    s.clearCounts.core n = { s.core n with counters := [], counterBase := [], tally := .zero, tallyBase := 0, wrapped := 0 } :=
  State.core_mapCores (s := s) (f := fun c => { c with counters := [], counterBase := [], tally := .zero, tallyBase := 0, wrapped := 0 })
    rfl rfl n

/-! ### The statement -/

/-- Settles O45: each command's effect, and what of the state it touches. -/
theorem clearsClear : Obligations.ClearsClear := by
  unfold Obligations.ClearsClear
  intro s hq hc
  refine ⟨fun hp => ⟨_, exec_fieldDefectsClear hq hc hp, ?_⟩, ⟨_, exec_flushFlagsClear hq hc, ?_⟩, ⟨_, exec_accFlagsClear hq hc, ?_⟩,
    exec_nvLogClear hq hc, fun l p hm hl hp hcl hmg => ⟨_, exec_plotterFlagsClear hq hc hl hp hcl hmg, ?_⟩,
    fun b hj hl => exec_counterSelect_bad hq (State.rwj_of_no_plan hj hl),
    fun b hj hl hb => ⟨_, exec_counterSelect_ok hq (State.rwj_of_no_plan hj hl) hb, ?_⟩⟩
  case refine_1 =>
    refine ⟨s.wafer.fieldDefects_storeDefects [], s.wafer.fieldSeq_storeDefects [], ?_, State.status_actionDone ..⟩
    exact congrArg (fun w => ({ s with wafer := w } : State).actionDone 0x2104 2 0) (s.wafer.storeDefects_frame [])
  case refine_2 => exact ⟨State.core_mapCores (f := fun c => { c with flush := 0 }) rfl rfl, rfl, State.status_actionDone ..⟩
  case refine_3 => exact ⟨State.core_mapCores (f := fun c => { c with accSat := false }) rfl rfl, rfl, State.status_actionDone ..⟩
  case refine_4 =>
    have hhdr : ((s.clearHdrFlags p).actionDone 0x2A02 2 0).stateHdr p
        = { s.stateHdr p with flags := (s.stateHdr p).flags - (s.stateHdr p).flags % 8 } := State.stateHdr_clearHdrFlags hm hcl
    rw [hhdr]
    refine ⟨by dsimp only; omega, by dsimp only; omega, rfl, rfl, fun a ha => ?_, rfl, fun j hj => s.clearHdrFlags_stack_other hj⟩
    have hmem := congrArg StackSt.mem (State.clearHdrFlags_stack hcl)
    refine (congrArg (Memory.read · a) hmem).trans (Memory.read_writeN_outside (State.wf_stack hm p.stack) _ ?_)
    rw [leBytes_length]
    omega
  case refine_5 =>
    refine ⟨fun n k hn hk => get_selectWords b hn hk, fun n => ?_, rfl, rfl⟩
    rw [State.core_clearCounts]
    exact ⟨rfl, rfl, rfl⟩

end Sys2Proof.Machine
end

section
/-!
Folds that change one part of the state, and what their steps leave alone.
-/

namespace Sys2Proof.Machine

/-- What every step of a fold leaves as it is, the fold leaves as it is. -/
theorem foldl_proj {α β γ : Type} {f : β → α → β} (g : β → γ) (h : ∀ b x, g (f b x) = g b) (l : List α) (b : β) :
    g (l.foldl f b) = g b := by
  induction l generalizing b with
  | nil => rfl
  | cons x l ih => rw [List.foldl_cons, ih, h]

/-- A fold whose steps change the cores alone changes the cores alone. -/
theorem State.foldl_cores {α : Type} {f : State → α → State} (h : ∀ t x, f t x = { t with cores := (f t x).cores }) (l : List α)
    (s : State) : l.foldl f s = { s with cores := (l.foldl f s).cores } := by
  induction l generalizing s with
  | nil => rfl
  | cons x l ih =>
    rw [List.foldl_cons, ih (f s x), h s x]

theorem State.updCores_cores (s : State) (l : List Nat) (f : Nat → CoreSt → CoreSt) :
    s.updCores l f = { s with cores := (s.updCores l f).cores } :=
  State.foldl_cores (fun _ _ => rfl) l s

end Sys2Proof.Machine
end

section
/-!
The stages of a routing reload (R52, R389): what each command does in the stage that waits for it.
-/

namespace Sys2Proof.Machine

theorem exec_routingDrainComplete {s : State} (hq : s.quiet) (h : s.fabric.reload = .draining) :
    exec .routingDrainComplete s = .next { s with flight := .reset, fabric := { s.fabric with reload := .building } } := by
  have e : execRoutingDrainComplete s = done { s with flight := .reset, fabric := { s.fabric with reload := .building } } := by
    simp only [execRoutingDrainComplete, h, bne_self_eq_false, Bool.false_eq_true, if_false]
  exact e.trans (done_of_job_eq hq rfl)

/-! ### Tables and legend are written -/

theorem WaferSt.mem_markRouters (w : WaferSt) {l : List Nat} {n : Nat} (h : n ∈ l) : n ∈ (w.markRouters l).routerDown := by
  by_cases hn : n ∈ w.routerDown
  · exact List.mem_append_left _ hn
  · refine List.mem_append_right _ (List.mem_filter.2 ⟨List.mem_eraseDups.2 h, ?_⟩)
    simpa using hn

/-- The tables, the legend and the routers of a batch, as they are written. -/
def State.setTables (s : State) (b : Built) : State :=
  { s with
    wafer := ({ s.wafer with logical := b.logical, coreState := b.coreState } : WaferSt).markRouters b.routerDown
    fabric := { s.fabric with routing := b.routing, reload := .writing, tableErr := s.fabric.tableErr.filter TableAt.standing } }

/-- The same with the legend's epoch and the fenced cores of the batch: all that a built batch writes, but for the cores. -/
def State.wroteTables (s : State) (b : Built) : State :=
  { s.setTables b with
    wafer := { (s.setTables b).wafer with
      legendEpoch := if b.changed then (s.wafer.legendEpoch + 1) % 2 ^ 32 else s.wafer.legendEpoch }
    job := { s.job with batch := { s.job.batch with fenced := s.job.batch.fenced ++ b.fenced } } }

/-- Each core that takes the place of another gets its image, and the scale table of the core that it stands for (R58, R194). -/
def State.fillReserves (s : State) (old : List (Nat × Nat)) (moved : List Nat) : State :=
  match s.job.plan with
  | some p => moved.foldl (fun (t : State) l => t.updCore (t.phys l) (fun c =>
      { p.imageCore l c with scales := (t.core (old.getD l (0, 0)).1).scales })) s
  | none => s

theorem State.fillReserves_cores (s : State) (old : List (Nat × Nat)) (moved : List Nat) :
    s.fillReserves old moved = { s with cores := (s.fillReserves old moved).cores } := by
  unfold State.fillReserves
  split
  · exact State.foldl_cores (fun _ _ => rfl) _ _
  · rfl

/-- The cores of a batch: images for the reserves, and a stop for the fenced cores. -/
def State.placeCores (s : State) (old : List (Nat × Nat)) (b : Built) : State :=
  (s.fillReserves old b.moved).updCores b.fenced (fun _ c => { c with stopped := true })

theorem State.placeCores_cores (s : State) (old : List (Nat × Nat)) (b : Built) :
    s.placeCores old b = { s with cores := (s.placeCores old b).cores } := by
  rw [State.placeCores, State.updCores_cores, State.fillReserves_cores]

theorem State.writeBuilt_eq (s : State) (b : Built) : s.writeBuilt b = { s.wroteTables b with cores := (s.writeBuilt b).cores } := by
  have e : s.writeBuilt b
      = (fun t : State => { t with job := { t.job with batch := { t.job.batch with fenced := t.job.batch.fenced ++ b.fenced } } })
        ((if b.changed then (s.setTables b).nextEpoch else s.setTables b).placeCores s.wafer.logical b) := rfl
  rw [e, State.placeCores_cores]
  simp only [State.wroteTables]
  split <;> rfl

/-- The events of the sheets that are short of a reserve (R57). -/
def State.reportShort (s : State) (l : List Nat) : State :=
  l.foldl (fun t n => t.event "RESERVE_SHORT" clsINFO srcSheet n []) s

theorem State.reportShort_wafer (s : State) (l : List Nat) : (s.reportShort l).wafer = s.wafer :=
  foldl_proj State.wafer (fun _ _ => State.event_wafer ..) l s
theorem State.reportShort_fabric (s : State) (l : List Nat) : (s.reportShort l).fabric = s.fabric :=
  foldl_proj State.fabric (fun _ _ => State.event_fabric ..) l s
theorem State.reportShort_job (s : State) (l : List Nat) : (s.reportShort l).job = s.job :=
  foldl_proj State.job (fun _ _ => State.event_job ..) l s

/-- What a built batch leaves of wafer, fabric and job, where every failed core has found its reserve. -/
theorem exec_routingTablesBuilt {s : State} (hq : s.quiet) (h : s.fabric.reload = .building) (hu : s.build.1.unplaced = false) :
    ∃ t, exec .routingTablesBuilt s = .next t ∧ t.wafer = (s.wroteTables s.build.2).wafer ∧ t.fabric = (s.wroteTables s.build.2).fabric
      ∧ t.job = (s.wroteTables s.build.2).job := by
  have e : execRoutingTablesBuilt s = done ((s.reportShort s.build.1.shortSheets).writeBuilt s.build.2) := by
    simp only [execRoutingTablesBuilt, h, hu, bne_self_eq_false, Bool.false_eq_true, if_false, State.reportShort]
  have hw := State.reportShort_wafer s s.build.1.shortSheets
  have hf := State.reportShort_fabric s s.build.1.shortSheets
  have hj := State.reportShort_job s s.build.1.shortSheets
  have he := State.writeBuilt_eq (s.reportShort s.build.1.shortSheets) s.build.2
  have hjob : ((s.reportShort s.build.1.shortSheets).writeBuilt s.build.2).job = (s.wroteTables s.build.2).job := by
    rw [he]
    simp only [State.wroteTables, hj]
  refine ⟨_, e.trans (done_quiet _ ?_), ?_, ?_, hjob⟩
  · unfold State.quiet
    rw [hjob]
    exact hq
  · rw [he]
    simp only [State.wroteTables, State.setTables, hw]
  · rw [he]
    simp only [State.wroteTables, State.setTables, hf]

/-! ### Written and read back -/

theorem exec_routingWriteComplete {s : State} (hq : s.quiet) (h : s.fabric.reload = .writing) :
    exec .routingWriteComplete s = .next { s with fabric := { s.fabric with reload := .reading } } := by
  have e : execRoutingWriteComplete s = done { s with fabric := { s.fabric with reload := .reading } } := by
    simp only [execRoutingWriteComplete, h, bne_self_eq_false, Bool.false_eq_true, if_false]
  exact e.trans (done_of_job_eq hq rfl)

/-- Where no peer has a message under way, a reload has held none. -/
theorem State.deliverHeld_of_rx_nil {s : State} (h : ∀ p ∈ s.net.peers, p.rx = []) : s.deliverHeld = s :=
  foldl_eq_self fun p hp => by rw [h p hp, List.foldl_nil]

theorem State.advanceDrain_of_idle {s : State} (h : s.job.ckpt.st = 0) : s.advanceDrain = s := by
  simp [State.advanceDrain, h]

/-- The module once its tables have been read back, with no faults of a next batch: the epoch has gone up, and the owed updates run. -/
def State.readBack (s : State) : State :=
  let t : State := { s with fabric := { s.fabric with reload := .none, reloadFails := 0, epoch := (s.fabric.epoch + 1) % 2 ^ 32 } }
  { t.estimate with job := { s.job with batch := { s.job.batch with stage := .owed, faults := [], owed := s.owedNow } } }

theorem exec_routingReadbackComplete_ok {s : State} (hq : s.quiet) (h : s.fabric.reload = .reading) (hn : s.job.batch.next = [])
    (hrx : ∀ p ∈ s.net.peers, p.rx = []) (hk : s.job.ckpt.st = 0) :
    exec (.routingReadbackComplete true) s = .next s.readBack := by
  have hr : s.reloaded = s.readBack.deliverHeld := by
    unfold State.reloaded
    exact if_pos (List.isEmpty_iff.2 hn)
  have e : execRoutingReadbackComplete true s = done s.readBack := by
    have hd : s.readBack.deliverHeld = s.readBack := State.deliverHeld_of_rx_nil hrx
    have ha : s.readBack.advanceDrain = s.readBack := State.advanceDrain_of_idle hk
    simp only [execRoutingReadbackComplete, h, bne_self_eq_false, Bool.false_eq_true, if_false, if_true, hr, hd, ha]
  exact e.trans (done_quiet _ hq)

theorem exec_routingReadbackComplete_first {s : State} (hq : s.quiet) (h : s.fabric.reload = .reading) (hf : s.fabric.reloadFails = 0) :
    exec (.routingReadbackComplete false) s = .next { s with fabric := { s.fabric with reload := .writing, reloadFails := 1 } } := by
  have e : execRoutingReadbackComplete false s = done { s with fabric := { s.fabric with reload := .writing, reloadFails := 1 } } := by
    simp only [execRoutingReadbackComplete, h, hf, bne_self_eq_false, Bool.false_eq_true, if_false, if_true]
  exact e.trans (done_of_job_eq hq rfl)

/-- A running Cartouche for which no reset waits takes a reset source up (R685). -/
theorem State.askReset_of_none {s : State} (hc : s.power.cartouche = true) (hp : s.reset_.pending = none) (code : Nat) (scope : Scope) :
    s.askReset code scope = { s with reset_ := { s.reset_ with pending := some (code, scope) } } := by
  simp only [State.askReset, hc, hp, Bool.not_true, Bool.false_eq_true, if_false]

theorem exec_routingReadbackComplete_again {s : State} (hq : s.quiet) (h : s.fabric.reload = .reading) (hf : s.fabric.reloadFails ≠ 0)
    (hc : s.power.cartouche = true) (hp : s.reset_.pending = none) :
    exec (.routingReadbackComplete false) s
      = .next { s with reset_ := { s.reset_ with pending := some (rcCRITICAL_STATE, .warm) } } := by
  have e : execRoutingReadbackComplete false s = done { s with reset_ := { s.reset_ with pending := some (rcCRITICAL_STATE, .warm) } } := by
    simp only [execRoutingReadbackComplete, h, hf, bne_self_eq_false, Bool.false_eq_true, if_false, State.askReset_of_none hc hp]
  exact e.trans (done_of_job_eq hq rfl)

/-! ### The statement -/

/-- Settles O21: one command per stage, each in the stage that waits for it. -/
theorem reloadStagesFollow : Obligations.ReloadStagesFollow := by
  unfold Obligations.ReloadStagesFollow
  intro s hq
  refine ⟨fun h => ⟨_, exec_routingDrainComplete hq h, rfl, rfl, rfl, rfl, rfl, rfl, rfl⟩, ?_, exec_routingWriteComplete hq,
    fun h hn hrx hk => ⟨_, exec_routingReadbackComplete_ok hq h hn hrx hk, rfl, rfl, rfl, rfl, rfl⟩,
    exec_routingReadbackComplete_first hq, exec_routingReadbackComplete_again hq⟩
  rintro b h hu rfl
  obtain ⟨t, ht, hw, hf, hj⟩ := exec_routingTablesBuilt hq h hu
  refine ⟨t, ht, ?_⟩
  rw [hw, hf, hj]
  exact ⟨rfl, rfl, rfl, fun n hn => WaferSt.mem_markRouters _ hn, rfl, rfl, rfl⟩

end Sys2Proof.Machine
end

section
/-!
What the start of a step leaves alone (R78, R327, R332, R351): the stream units and gathers that it starts, and the messages and packets that
these send, change neither cores, job nor wafer, no byte of a stack, and lose no peer.
-/

namespace Sys2Proof.Machine

/-- Cores, job, wafer, the bytes of every stack and the lost peers stand as they did. -/
structure State.SameRun (s t : State) : Prop where
  cores : t.cores = s.cores
  job : t.job = s.job
  wafer : t.wafer = s.wafer
  mem : ∀ k, (t.stack k).mem = (s.stack k).mem
  lost : ∀ m, t.isLost m = s.isLost m

namespace State.SameRun

variable {s t u : State}

theorem refl (s : State) : s.SameRun s := ⟨rfl, rfl, rfl, fun _ => rfl, fun _ => rfl⟩

theorem trans (h : s.SameRun t) (g : t.SameRun u) : s.SameRun u :=
  ⟨g.cores.trans h.cores, g.job.trans h.job, g.wafer.trans h.wafer, fun k => (g.mem k).trans (h.mem k),
    fun m => (g.lost m).trans (h.lost m)⟩

/-- An update that touches neither cores, job, wafer, stacks nor the network. -/
theorem of_eq (hc : t.cores = s.cores) (hj : t.job = s.job) (hw : t.wafer = s.wafer) (hh : t.hbm = s.hbm) (hn : t.net.peers = s.net.peers) :
    s.SameRun t :=
  ⟨hc, hj, hw, fun k => by rw [State.stack, hh, State.stack], fun m => by rw [State.isLost, State.peer, hn, State.isLost, State.peer]⟩

/-- A fold keeps the run when each of its steps does, from any state that has kept it. -/
theorem foldl {α : Type} {f : State → α → State} {l : List α} (h : ∀ t, s.SameRun t → ∀ x ∈ l, t.SameRun (f t x)) :
    s.SameRun (l.foldl f s) := by
  induction l generalizing s with
  | nil => exact refl s
  | cons x l ih =>
    have hx := h s (refl s) x (List.mem_cons_self ..)
    exact hx.trans (ih fun t ht y hy => h t (hx.trans ht) y (List.mem_cons_of_mem _ hy))

end State.SameRun

/-! ### Packets of a station (R382, R383, R386, R388) -/

theorem State.sameRun_tableRead (s : State) (e : TableAt) : s.SameRun (s.tableRead e) := by
  unfold State.tableRead
  split
  · exact .refl s
  · dsimp only
    split <;> exact .of_eq rfl rfl rfl rfl rfl

theorem State.sameRun_passes (s : State) (n d : Nat) : s.SameRun (s.passes n d) := by
  unfold State.passes
  split
  · exact .refl s
  · exact .foldl fun t _ x _ => t.sameRun_tableRead _

theorem State.sameRun_routed (s : State) (n d count : Nat) {go : State → State} (h : ∀ t : State, t.SameRun (go t)) :
    s.SameRun (s.routed n d count go) := by
  refine (s.sameRun_passes n d).trans ?_
  unfold State.routed
  dsimp only
  split
  · exact h _
  · exact .of_eq rfl rfl rfl rfl rfl

/-- Packets from a station keep the run when their going out does. -/
theorem State.sameRun_fromStation (s : State) (k n count : Nat) {go : Nat → List (Nat × Nat) → State → State}
    (h : ∀ (a : Nat) (l : List (Nat × Nat)) (t : State), t.SameRun (go a l t)) : s.SameRun (s.fromStation k n count go) := by
  refine (s.sameRun_tableRead (.station k n)).trans ?_
  unfold State.fromStation
  dsimp only
  split
  · exact .refl _
  · exact State.sameRun_routed _ _ n count (h _ _)

/-! ### Stream units (R327, R332) -/

/-- An update of a stack that leaves its memory. -/
theorem State.sameRun_updStack (s : State) (k : Nat) {f : StackSt → StackSt} (hf : ∀ x, (f x).mem = x.mem) : s.SameRun (s.updStack k f) := by
  refine ⟨rfl, rfl, rfl, fun j => ?_, fun _ => rfl⟩
  by_cases hj : j = k
  · rw [hj, State.stack_updStack, hf]
  · rw [State.stack_updStack_other _ _ hj]

theorem State.sameRun_setUnit (s : State) (k u : Nat) (x : UnitSt) : s.SameRun (s.setUnit k u x) :=
  s.sameRun_updStack k fun _ => rfl

theorem State.sameRun_numbered (s : State) (src vc n : Nat) : s.SameRun (s.numbered src vc n) := .of_eq rfl rfl rfl rfl rfl

theorem State.sameRun_askCredit (s : State) (k u l : Nat) : s.SameRun (s.askCredit k u l) := by
  unfold State.askCredit
  exact s.sameRun_fromStation _ _ _ fun _ _ t => (t.sameRun_numbered _ 0 1).trans (State.sameRun_setUnit _ k u _)

theorem State.sameRun_beginRepeat (s : State) (k u : Nat) (d : StreamDesc) (x : UnitSt) : s.SameRun (s.beginRepeat k u d x) := by
  unfold State.beginRepeat
  dsimp only
  split
  · exact (s.sameRun_setUnit k u _).trans (.foldl fun t _ l _ => t.sameRun_askCredit k u l)
  · exact s.sameRun_setUnit k u _

theorem State.sameRun_enterDesc (s : State) (k u pos : Nat) : s.SameRun (s.enterDesc k u pos) := by
  unfold State.enterDesc
  dsimp only
  split
  · exact s.sameRun_setUnit k u _
  · split
    · exact s.sameRun_setUnit k u _
    · exact s.sameRun_beginRepeat k u _ _

theorem State.sameRun_startUnits (s : State) : s.SameRun s.startUnits :=
  .foldl fun t _ i _ => t.sameRun_enterDesc (i / 4) (i % 4) 0

/-! ### Messages (R111, R548, R552 to R554, R564) -/

theorem State.sameRun_info (s : State) (name : String) (i : List Nat) : s.SameRun (s.info name i) :=
  .of_eq (s.info_cores name i) (s.info_job name i) (s.info_wafer name i) (s.info_hbm name i) (by rw [State.info_net])

theorem State.sameRun_send (s : State) (o : Out) : s.SameRun (s.send o) := .of_eq rfl rfl rfl rfl rfl

theorem State.module_of_peer {s : State} {m : Nat} {p : PeerSt} (h : s.peer m = some p) : p.module = m := by
  have hfound := List.find?_some h
  simpa only [decide_eq_true_eq] using hfound

/-- A peer whose entry is written anew is lost as it was, and so are the others. -/
theorem State.isLost_setPeer {s : State} {p q : PeerSt} (hp : s.peer q.module = some p) (hl : q.lost = p.lost) (hr : q.present = p.present)
    (m : Nat) : (s.setPeer q).isLost m = s.isLost m := by
  have hkey : ∀ x : PeerSt, (if x.module = q.module then q else x).module = x.module := by
    intro x
    split
    · next h => exact h.symm
    · rfl
  have hfind : (s.setPeer q).peer m = (s.peer m).map (fun x => if x.module = q.module then q else x) := by
    simp only [State.peer, State.setPeer, List.find?_map, Function.comp_def, hkey]
  rw [State.isLost, hfind, State.isLost]
  by_cases hm : m = q.module
  · rw [hm, hp, Option.map_some, if_pos (State.module_of_peer hp)]
    simp only [hl, hr]
  · cases hx : s.peer m with
    | none => rfl
    | some x => rw [Option.map_some, if_neg (by rwa [State.module_of_peer hx])]

theorem State.sameRun_setPeer {s : State} {p q : PeerSt} (hp : s.peer q.module = some p) (hl : q.lost = p.lost) (hr : q.present = p.present) :
    s.SameRun (s.setPeer q) :=
  ⟨rfl, rfl, rfl, fun _ => rfl, State.isLost_setPeer hp hl hr⟩

theorem State.peers_resolve (s : State) (i : Nat) : (s.resolve i).net.peers = s.net.peers := by
  unfold State.resolve
  split <;> rfl

theorem State.sameRun_resolve (s : State) (i : Nat) : s.SameRun (s.resolve i) := by
  unfold State.resolve
  split <;> exact .of_eq rfl rfl rfl rfl rfl

theorem State.sameRun_netCount (s : State) (i : Nat) (f : NetCounts → NetCounts) : s.SameRun (s.netCount i f) := by
  unfold State.netCount
  split <;> exact .of_eq rfl rfl rfl rfl rfl

theorem State.sameRun_frameBytes (s : State) (i direction payload : Nat) : s.SameRun (s.frameBytes i direction payload) := by
  unfold State.frameBytes
  split
  · exact .refl s
  · obtain ⟨x, hx⟩ := s.count_blocks (b := blkPort (i / 2)) (by simp only [blkPort]; omega) evBYTES (2 ^ (i % 2) + direction) 1 (payload + 106)
    rw [hx]
    exact .of_eq rfl rfl rfl rfl rfl

theorem PeerSt.acked_same (p : PeerSt) (i : Nat) :
    (p.acked i).module = p.module ∧ (p.acked i).lost = p.lost ∧ (p.acked i).present = p.present := by
  unfold PeerSt.acked
  split <;> exact ⟨rfl, rfl, rfl⟩

/-- A message to a peer changes of its entry what the sending changes. -/
theorem State.sameRun_messageOn {s : State} {p q : PeerSt} (hq : s.peer q.module = some p) (hl : q.lost = p.lost)
    (hr : q.present = p.present) (i : Nat) (m : Msg) : s.SameRun (s.messageOn q i m) := by
  obtain ⟨hm', hl', hr'⟩ := q.acked_same i
  have hpeer : (s.resolve i).peer (q.acked i).module = some p := by
    rw [State.peer, State.peers_resolve, hm']
    exact hq
  unfold State.messageOn
  dsimp only
  refine .trans ?_ (State.sameRun_send _ _)
  refine .trans ?_ (.foldl fun t _ b _ => t.sameRun_frameBytes i 4 (List.length b))
  refine .trans ?_ (State.sameRun_netCount _ _ _)
  exact (s.sameRun_resolve i).trans (State.sameRun_setPeer hpeer (hl'.trans hl) (hr'.trans hr))

theorem State.sameRun_message (s : State) (dst : Nat) (group port : Option Nat) (m : Msg) : s.SameRun (s.message dst group port m) := by
  unfold State.message
  split
  · exact s.sameRun_info _ _
  · next p hp =>
    dsimp only
    split
    · exact s.sameRun_info _ _
    · split
      · exact .refl s
      · split
        · exact .of_eq rfl rfl rfl rfl rfl
        · exact State.sameRun_messageOn (p := p) (q := { p with rotate := p.rotate + 1 }) (State.module_of_peer hp ▸ hp) rfl rfl _ m

/-! ### Gathers (R351, R353, R354) -/

theorem State.sameRun_askGather (s : State) (m : Nat) (g : GatherMsg) (rest : List Nat) (use : GatherUse) :
    s.SameRun (s.askGather m g rest use) :=
  .trans (t := { s with net := { s.net with gathers := s.net.gathers ++ [{ g := g, holder := m, rest := rest, use := use }] } })
    (.of_eq rfl rfl rfl rfl rfl) (State.sameRun_message _ _ _ _ _)

/-- An entry of which a holder can be reached asks it, and is no fault. -/
theorem State.sameRun_askHolders {s : State} {k i : Nat} {e : GatherEntry} (g : GatherMsg) (again : Bool)
    (h : ∃ m ∈ e.holder :: s.otherHolders e.layer e.holder, s.reachable m = true) : s.SameRun (s.askHolders k i e g again) := by
  unfold State.askHolders
  split
  · exact .foldl fun t _ q _ => t.sameRun_askGather _ q _ _
  · next hn =>
    obtain ⟨m, hm, hr⟩ := h
    cases hn ▸ List.mem_filter.2 ⟨hm, hr⟩

/-- What the gather lists ask for comes from the plan, and from the peers that are not lost. -/
theorem State.gathersHeld_of {s t : State} (hp : t.job.plan = s.job.plan) (hl : ∀ m, t.isLost m = s.isLost m) (h : s.gathersHeld) :
    t.gathersHeld := by
  have hlist : ∀ k, t.gatherList k = s.gatherList k := fun k => by rw [State.gatherList, hp, State.gatherList]
  have hother : ∀ l m, t.otherHolders l m = s.otherHolders l m := fun l m => by rw [State.otherHolders, hp, State.otherHolders]
  have hreach : ∀ m, t.reachable m = s.reachable m := fun m => by
    rw [State.reachable, State.moduleId, hp, hl, State.reachable, State.moduleId]
  intro k hk e he
  obtain ⟨m, hm, hr⟩ := h k hk e (hlist k ▸ he)
  exact ⟨m, by rwa [hother], by rwa [hreach]⟩

theorem State.SameRun.gathersHeld {s t : State} (h : s.SameRun t) (hg : s.gathersHeld) : t.gathersHeld :=
  State.gathersHeld_of (congrArg JobSt.plan h.job) h.lost hg

theorem State.sameRun_startGathers {s : State} (hg : s.gathersHeld) (step : Nat) : s.SameRun (s.startGathers step) := by
  refine .foldl fun t ht k hk => .foldl fun u hu x hx => ?_
  have hk : k < numStacks := by
    obtain ⟨-, hlt⟩ := mem_upFrom.1 hk
    omega
  have hx : x.1 ∈ t.gatherList k := (List.of_mem_zip hx).1
  have hask : ∀ v : State, t.SameRun v → ∃ m ∈ x.1.holder :: v.otherHolders x.1.layer x.1.holder, v.reachable m = true := fun v hv =>
    (ht.trans hv).gathersHeld hg k hk x.1 (by rw [State.gatherList, hv.job, ← State.gatherList]; exact hx)
  have hfwd := State.sameRun_askHolders (k := k) (i := x.2)
    { kind := 0, aux := x.1.wire, tag := 0, layer := x.1.layer, step := step - 1, first := x.1.tileFirst, count := x.1.tileCount } false (hask u hu)
  dsimp only
  split
  · exact hfwd.trans (State.sameRun_askHolders _ false (hask _ (hu.trans hfwd)))
  · exact hfwd

end Sys2Proof.Machine
end

section
/-!
The release of the queues at QBASE (R78, R327, R351, R761): what it does to the mapped cores, and what it leaves alone.
-/

namespace Sys2Proof.Machine

/-! ### Captures (R760, R761) -/

theorem State.sameRun_hadMessage (s : State) (p : CapMsg → Bool) (l : List Nat) : s.SameRun (s.hadMessage p l) := .of_eq rfl rfl rfl rfl rfl

theorem State.sameRun_captureBlock (s : State) (b : Nat) (interval : Bool) (seq : Nat) : s.SameRun (s.captureBlock b interval seq) := by
  unfold State.captureBlock
  split
  · exact .refl s
  · dsimp only
    split <;> exact .of_eq rfl rfl rfl rfl rfl

theorem State.sameRun_captureAtRelease (s : State) (l : List Nat) : s.SameRun (s.captureAtRelease l) := by
  unfold State.captureAtRelease
  split
  · exact .refl s
  · exact .trans (.foldl fun t _ b _ => t.sameRun_captureBlock b false _) (State.sameRun_hadMessage _ _ l)

theorem State.sameRun_sendCapture (s : State) (kind step attempt : Nat) (boundary : Bool) :
    s.SameRun (s.sendCapture kind step attempt boundary) := .of_eq rfl rfl rfl rfl rfl

theorem State.sameRun_noteStep (s : State) (before : Nat) : s.SameRun (s.noteStep before) := by
  unfold State.noteStep
  split
  · exact .refl s
  · exact .of_eq (s.vector_cores 4) (s.vector_job 4) (s.vector_wafer 4) (s.vector_hbm 4) (by rw [State.vector_net])

/-! ### Cores -/

/-- The queues of one logical core are released, with a free value for what its program may read before it writes. -/
def State.releaseOne (regions : Nat → List Nat × List Nat) (s : State) (l : Nat) : State :=
  s.fresh.2.updCore (s.fresh.2.phys l) (fun c => c.release (regions l) s.fresh.1)

/-- The queues of a list of logical cores are released. -/
def State.releaseCores (regions : Nat → List Nat × List Nat) (s : State) (ls : List Nat) : State := ls.foldl (State.releaseOne regions) s

theorem CoreSt.released_release (c : CoreSt) (r : List Nat × List Nat) (free : Nat) : (c.release r free).released := by
  refine ⟨rfl, fun q hq => ?_⟩
  cases q with
  | plotter => simp [programQueues] at hq
  | fetch => exact ⟨rfl, rfl, rfl, rfl⟩
  | array => exact ⟨rfl, rfl, rfl, rfl⟩
  | vector => exact ⟨rfl, rfl, rfl, rfl⟩
  | dispatch => exact ⟨rfl, rfl, rfl, rfl⟩

theorem State.releaseOne_core (r : Nat → List Nat × List Nat) (s : State) (l : Nat) : ((s.releaseOne r l).core (s.phys l)).released := by
  have h : (s.releaseOne r l).core (s.phys l) = (s.core (s.phys l)).release (r l) s.fresh.1 := State.core_updCore s.fresh.2 _ _
  rw [h]
  exact CoreSt.released_release _ _ _

theorem State.releaseOne_core_other (r : Nat → List Nat × List Nat) (s : State) {l n : Nat} (h : n ≠ s.phys l) :
    (s.releaseOne r l).core n = s.core n :=
  State.core_updCore_other s.fresh.2 _ h

/-- What the release of cores leaves alone. -/
theorem State.releaseCores_frame (r : Nat → List Nat × List Nat) (s : State) (ls : List Nat) :
    (s.releaseCores r ls).job = s.job ∧ (s.releaseCores r ls).wafer = s.wafer ∧ (s.releaseCores r ls).hbm = s.hbm
      ∧ (s.releaseCores r ls).net = s.net :=
  ⟨foldl_proj (f := State.releaseOne r) State.job (fun _ _ => rfl) ls s, foldl_proj (f := State.releaseOne r) State.wafer (fun _ _ => rfl) ls s,
    foldl_proj (f := State.releaseOne r) State.hbm (fun _ _ => rfl) ls s, foldl_proj (f := State.releaseOne r) State.net (fun _ _ => rfl) ls s⟩

theorem State.releaseCores_core_other (r : Nat → List Nat × List Nat) (s : State) {ls : List Nat} {n : Nat} (h : ∀ l ∈ ls, n ≠ s.phys l) :
    (s.releaseCores r ls).core n = s.core n := by
  induction ls generalizing s with
  | nil => rfl
  | cons l ls ih =>
    obtain ⟨hl, hls⟩ := List.forall_mem_cons.1 h
    exact (ih (s.releaseOne r l) hls).trans (s.releaseOne_core_other r hl)

/-- A core that has been released stays so while others, or it again, are. -/
theorem State.releaseCores_keeps (r : Nat → List Nat × List Nat) (s : State) (ls : List Nat) {n : Nat} (h : (s.core n).released) :
    ((s.releaseCores r ls).core n).released := by
  induction ls generalizing s with
  | nil => exact h
  | cons l ls ih =>
    refine ih (s.releaseOne r l) ?_
    by_cases hn : n = s.phys l
    · rw [hn]
      exact s.releaseOne_core r l
    · rwa [s.releaseOne_core_other r hn]

theorem State.releaseCores_core (r : Nat → List Nat × List Nat) (s : State) {ls : List Nat} {l : Nat} (h : l ∈ ls) :
    ((s.releaseCores r ls).core (s.phys l)).released := by
  induction ls generalizing s with
  | nil => cases h
  | cons x ls ih =>
    rcases List.mem_cons.1 h with rfl | h
    · exact State.releaseCores_keeps r _ ls (s.releaseOne_core r l)
    · exact ih (s.releaseOne r x) h

/-! ### The whole release -/

/-- Where a logical core stands is a mapped core. -/
theorem State.phys_mem_mapped (s : State) {l : Nat} (h : l < s.planCores) : s.phys l ∈ s.mapped := by
  rw [State.phys, List.getD_eq_getElem _ _ h]
  exact List.mem_map_of_mem (List.getElem_mem h)

/-- Every mapped core has been released, and nothing but cores and what runs in the fabric and the network has changed: no byte of a stack,
neither job nor wafer, no core that is not mapped, and no lost peer. -/
structure State.Released (s t : State) : Prop where
  job : t.job = s.job
  wafer : t.wafer = s.wafer
  released : ∀ l < s.planCores, (t.core (s.phys l)).released
  other : ∀ n, n ∉ s.mapped → t.core n = s.core n
  mem : ∀ k, (t.stack k).mem = (s.stack k).mem
  lost : ∀ m, t.isLost m = s.isLost m

/-- A release after what keeps the run is a release of the state before it. -/
theorem State.Released.of_sameRun {s t u : State} (h : s.SameRun t) (g : t.Released u) : s.Released u where
  job := g.job.trans h.job
  wafer := g.wafer.trans h.wafer
  released l hl := by
    have := g.released l (by rwa [State.planCores, h.wafer])
    rwa [State.phys, h.wafer] at this
  other n hn := by
    have := g.other n (by rwa [State.mapped, h.wafer])
    rw [this, State.core, h.cores, State.core]
  mem k := (g.mem k).trans (h.mem k)
  lost m := (g.lost m).trans (h.lost m)

theorem State.Released.then_sameRun {s t u : State} (h : s.Released t) (g : t.SameRun u) : s.Released u where
  job := g.job.trans h.job
  wafer := g.wafer.trans h.wafer
  released l hl := by
    rw [State.core, g.cores]
    exact h.released l hl
  other n hn := by
    rw [State.core, g.cores]
    exact h.other n hn
  mem k := (g.mem k).trans (h.mem k)
  lost m := (g.lost m).trans (h.lost m)

theorem State.Released.gathersHeld {s t : State} (h : s.Released t) (hg : s.gathersHeld) : t.gathersHeld :=
  State.gathersHeld_of (congrArg JobSt.plan h.job) h.lost hg

theorem State.released_releaseCores (r : Nat → List Nat × List Nat) (s : State) : s.Released (s.releaseCores r (upFrom 0 s.planCores)) := by
  obtain ⟨hj, hw, hh, hnet⟩ := s.releaseCores_frame r (upFrom 0 s.planCores)
  refine ⟨hj, hw, fun l hl => s.releaseCores_core r (mem_upFrom.2 (by omega)), fun n hn => ?_, fun k => by rw [State.stack, hh, State.stack],
    fun m => by rw [State.isLost, State.peer, hnet, State.isLost, State.peer]⟩
  refine s.releaseCores_core_other r fun l hl hnl => hn ?_
  obtain ⟨-, hlt⟩ := mem_upFrom.1 hl
  rw [hnl]
  exact s.phys_mem_mapped (by omega)

/-- The cores with the stream units and the gathers of a step, where every gather has a holder. -/
theorem State.released_run (r : Nat → List Nat × List Nat) {s : State} (hg : s.gathersHeld) (step : Nat) :
    s.Released ((s.releaseCores r (upFrom 0 s.planCores)).startUnits.startGathers step) := by
  have hunits := (s.released_releaseCores r).then_sameRun (State.sameRun_startUnits _)
  exact hunits.then_sameRun (State.sameRun_startGathers (hunits.gathersHeld hg) step)

/-- With a plan whose gathers have holders, the queues are released, and no fault arises. -/
theorem State.released_releaseQueues {s : State} (hp : s.job.plan ≠ none) (hg : s.gathersHeld) : s.Released s.releaseQueues := by
  obtain ⟨p, hp⟩ := Option.ne_none_iff_exists'.1 hp
  have hcap := s.sameRun_captureAtRelease s.mapped
  refine .of_sameRun hcap ?_
  unfold State.releaseQueues
  rw [hp]
  exact State.released_run (fun l => (s.captureAtRelease s.mapped).programOf l (p.cores.getD l ⟨[], [], 0, []⟩)) (hcap.gathersHeld hg) _

/-! ### After a batch (R421, R517, R519, R521) -/

theorem State.job_endBatch (s : State) : s.endBatch.job = { s.job with batch := s.job.batch.finish } := rfl

/-- A release ends the batch's response, and asks job control for nothing. -/
theorem done_endBatch_of_released {s t : State} (hq : s.quiet) (h : s.Released t) : done t.endBatch = .next t.endBatch := by
  refine done_quiet _ ?_
  unfold State.quiet
  rw [State.job_endBatch, h.job]
  exact hq

/-- The state that a replay is released from: its capture message has gone, and it waits for nothing more. -/
def State.replayStart (s : State) (r : StepRec) : State :=
  let t := s.sendCapture 0 r.step ((r.attempt + 255) % 256) false
  { t with job := { t.job with release := .none } }

theorem exec_replayRelease {s : State} {r : StepRec} (hq : s.quiet) (hj : s.job.jobState = jsRUNNING) (hreload : s.job.batch.stage ≠ .reload)
    (howed : s.job.batch.stage ≠ .owed) (hp : s.job.plan ≠ none) (hg : s.gathersHeld) (hrel : s.job.release = .replay r.step)
    (hr : s.running = some r) (hc : s.copiesReady r.step = true) :
    exec .replayRelease s = .next (s.replayStart r).releaseQueues.endBatch
      ∧ (s.replayStart r).Released (s.replayStart r).releaseQueues := by
  have hR : (s.replayStart r).Released (s.replayStart r).releaseQueues :=
    State.released_releaseQueues hp (State.gathersHeld_of rfl (fun _ => rfl) hg)
  have e : execReplayRelease s = done (s.replayStart r).releaseQueues.endBatch := by
    simp only [execReplayRelease, hrel, hr, hj, hreload, howed, hc, bne_self_eq_false, decide_false, Bool.not_true, Bool.or_self, Bool.false_eq_true,
      if_false, State.releaseAgain, State.replayStart]
  exact ⟨e.trans (done_endBatch_of_released (s := s.replayStart r) hq hR), hR⟩

theorem State.record_setRec (s : State) (slot : Nat) (r : StepRec) : (s.setRec slot r).record slot = r := by
  unfold State.setRec State.record
  split <;> rfl

/-- The record of a step as it starts (R195, R418, R420). -/
def State.startRec (s : State) (step : Nat) : StepRec :=
  { s.record step with st := .running, attempt := 0, genMode := s.fmt.genMode, seed := s.fmt.jobSeed, scales := s.takeScales }

/-- The start of a step's record changes halyards and job alone. -/
theorem State.beginStep_eq (s : State) (step : Nat) :
    s.beginStep step = { s with halyard := (s.beginStep step).halyard, job := (s.beginStep step).job } := by
  unfold State.beginStep State.setRec
  dsimp only
  split <;> rfl

theorem State.beginStep_frame (s : State) (step : Nat) :
    (s.beginStep step).wafer = s.wafer ∧ ∀ k, ((s.beginStep step).stack k).mem = (s.stack k).mem := by
  rw [State.beginStep_eq]
  exact ⟨rfl, fun _ => rfl⟩

/-- The job once a step's record has started. -/
theorem State.job_beginStep (s : State) (step : Nat) :
    (s.beginStep step).job = { (s.setRec step (s.startRec step)).job with
      next := step + 1, resync := 0, resyncScales := none, release := .none, started := true
      calibrating := (s.beginStep step).job.calibrating, ckpt := (s.beginStep step).job.ckpt } := rfl

theorem State.record_beginStep (s : State) (step : Nat) : (s.beginStep step).record step = s.startRec step :=
  State.record_setRec s step _

theorem State.setRec_job (s : State) (slot : Nat) (r : StepRec) :
    (s.setRec slot r).job = { s.job with rec0 := (s.setRec slot r).job.rec0, rec1 := (s.setRec slot r).job.rec1 } := by
  unfold State.setRec
  split <;> rfl

theorem State.plan_beginStep (s : State) (step : Nat) : (s.beginStep step).job.plan = s.job.plan := by
  rw [State.job_beginStep, State.setRec_job]

theorem State.isLost_beginStep (s : State) (step m : Nat) : (s.beginStep step).isLost m = s.isLost m := by
  rw [State.beginStep_eq, State.isLost, State.peer, State.isLost, State.peer]

theorem State.ckpt_beginStep {s : State} (step : Nat) (h : s.job.ckpt.st = 0) : (s.beginStep step).job.ckpt = s.job.ckpt := by
  have hj : (s.setRec step (s.startRec step)).job.ckpt = s.job.ckpt := by rw [State.setRec_job]
  have h0 : (s.setRec step (s.startRec step)).job.ckpt.st = 0 := by rw [hj, h]
  refine (if_neg fun hc => ?_).trans hj
  obtain ⟨hne, -⟩ := Bool.and_eq_true_iff.1 hc
  exact bne_iff_ne.1 hne h0

theorem State.startDrain_of_idle {s : State} (h : s.job.ckpt.st = 0) : s.startDrain = s := by
  simp [State.startDrain, h]

/-- A release of the queues after what keeps the run, of a state with a plan whose gathers have holders. -/
theorem State.SameRun.released {s t : State} (h : s.SameRun t) (hp : s.job.plan ≠ none) (hg : s.gathersHeld) : s.Released t.releaseQueues :=
  .of_sameRun h (State.released_releaseQueues (by rwa [h.job]) (h.gathersHeld hg))

/-- A step starts with no checkpoint under way: its record starts, and its queues are released. -/
theorem State.released_startStep {s : State} (step : Nat) (hp : s.job.plan ≠ none) (hg : s.gathersHeld) (hk : s.job.ckpt.st = 0) :
    (s.beginStep step).Released (s.startStep step) := by
  have hd : (s.beginStep step).startDrain = s.beginStep step := State.startDrain_of_idle (by rw [State.ckpt_beginStep step hk, hk])
  have hp' : (s.beginStep step).job.plan ≠ none := by rwa [s.plan_beginStep]
  have hg' : (s.beginStep step).gathersHeld := State.gathersHeld_of (s.plan_beginStep step) (s.isLost_beginStep step) hg
  have hn := (s.beginStep step).sameRun_noteStep 0
  unfold State.startStep
  dsimp only
  rw [hd]
  split
  · exact (hn.trans (State.sameRun_sendCapture _ _ _ _ _)).released hp' hg'
  · exact hn.released hp' hg'

theorem exec_realignRelease {s : State} {target : Nat} (hq : s.quiet) (hj : s.job.jobState = jsRUNNING) (hreload : s.job.batch.stage ≠ .reload)
    (howed : s.job.batch.stage ≠ .owed) (hp : s.job.plan ≠ none) (hg : s.gathersHeld) (hrel : s.job.release = .realign target)
    (hst : (s.record target).st = .input) (hstep : (s.record target).step = target) (hk : s.job.ckpt.st = 0) :
    exec .realignRelease s = .next (s.startStep target).endBatch ∧ (s.beginStep target).Released (s.startStep target) := by
  have hR := State.released_startStep target hp hg hk
  have hq' : (s.beginStep target).quiet := by
    unfold State.quiet
    rw [State.job_beginStep, State.setRec_job]
    exact hq
  have e : execRealignRelease s = done (s.startStep target).endBatch := by
    simp only [execRealignRelease, hrel, hj, hreload, howed, hst, hstep, bne_self_eq_false, decide_false, Bool.or_self, Bool.false_eq_true,
      if_false]
  exact ⟨e.trans (done_endBatch_of_released hq' hR), hR⟩

/-! ### Self-tests of fenced cores (R46, R47, R514, R677, R680) -/

/-- The self-test of a core is over. -/
def State.tested (s : State) (n : Nat) : State :=
  { s with job := { s.job with batch := { s.job.batch with testing := s.job.batch.testing.filter (fun m => m != n) } } }

/-- A core that was fenced for its temperature still waits to cool, by a sensor that has not failed. -/
def State.hot (s : State) (n : Nat) : Bool :=
  s.power.hotFenced.contains n && !s.power.failedSensors.contains n && !numLe (Tab.get 0#32 s.power.coreTemps n) (int32 95)

theorem State.hot_eq_true {s : State} {n : Nat} (h : n ∈ s.power.hotFenced) (hf : n ∉ s.power.failedSensors)
    (ht : numLe (Tab.get 0#32 s.power.coreTemps n) (int32 95) = false) : s.hot n = true := by
  simp [State.hot, h, hf, ht]

theorem State.hot_eq_false {s : State} {n : Nat} (h : n ∉ s.power.hotFenced ∨ n ∈ s.power.failedSensors) : s.hot n = false := by
  rcases h with h | h <;> simp [State.hot, h]

theorem exec_coreSelfTestComplete_hot {s : State} {n : Nat} (hn : n < numCores) (h : s.hot n = true) (ok : Bool) :
    exec (.coreSelfTestComplete n ok) s = .next s := by
  show execCoreSelfTestComplete n ok s = .next s
  rw [State.hot] at h
  simp only [execCoreSelfTestComplete, withCore, hn, h, Bool.or_true, if_true]

/-- A cool core whose self-test runs is taken off the tests; it passes when the test and its two regulators do. -/
theorem exec_coreSelfTestComplete_cool {s : State} {n : Nat} (hn : n < numCores) (ht : n ∈ s.job.batch.testing) (hf : s.coreStateOf n = .fenced)
    (h : s.hot n = false) (ok : Bool) :
    exec (.coreSelfTestComplete n ok) s
      = done (if ok && !(s.reg (regId 1 n)).failed && !(s.reg (regId 2 n)).failed then s.tested n else (s.tested n).permanent n) := by
  show execCoreSelfTestComplete n ok s = _
  rw [State.hot] at h
  have hc : s.job.batch.testing.contains n = true := List.contains_iff_mem.2 ht
  simp only [execCoreSelfTestComplete, withCore, hn, h, hc, hf, bne_self_eq_false, Bool.not_true, Bool.or_self, Bool.false_eq_true,
    if_false, if_true]
  rfl

/-- While the list has room, a core that fails enters it. -/
theorem State.permanent_of_room {s : State} {n : Nat} (hn : n ∉ s.wafer.fieldDefects) (hr : s.wafer.fieldDefects.length < 64) :
    s.permanent n = { s with wafer := s.wafer.storeDefects (s.wafer.fieldDefects ++ [n]) } := by
  have hc : s.wafer.fieldDefects.contains n = false := by simpa using hn
  simp only [State.permanent, hc, hr, Bool.false_eq_true, if_false, if_true]

/-! ### The statement -/

/-- Settles O23: both releases by what a release of the queues leaves alone, the self-tests by their cases. -/
theorem batchesAreReleased : Obligations.BatchesAreReleased := by
  unfold Obligations.BatchesAreReleased
  refine ⟨fun s hq hj hreload howed hp hg => ⟨fun r hrel hr hc => ?_, fun target hrel hst hstep hk => ?_⟩,
    fun s n hq hn ht hf => ⟨?_, ?_, ?_⟩⟩
  · obtain ⟨hexec, hR⟩ := exec_replayRelease hq hj hreload howed hp hg hrel hr hc
    have hjob := State.job_endBatch (s.replayStart r).releaseQueues
    rw [hR.job] at hjob
    refine ⟨_, hexec, by rw [hjob]; rfl, by rw [hjob]; rfl, ?_, hR.released, hR.other, hR.mem⟩
    rw [State.running, hjob]
    exact hr
  · obtain ⟨hexec, hR⟩ := exec_realignRelease hq hj hreload howed hp hg hrel hst hstep hk
    have hjob := State.job_endBatch (s.startStep target)
    rw [hR.job] at hjob
    have hrec : (s.startStep target).endBatch.record target = s.startRec target := by
      rw [State.record, hjob]
      exact s.record_beginStep target
    obtain ⟨hw, hm⟩ := s.beginStep_frame target
    refine ⟨_, hexec, by rw [hjob]; rfl, by rw [hjob]; rfl, ?_, by rw [hrec]; rfl, by rw [hrec]; exact hstep, by rw [hjob]; rfl, ?_,
      fun k => (hR.mem k).trans (hm k)⟩
    · rw [hjob, State.job_beginStep, State.setRec_job]
    · intro l hl
      have := hR.released l (by rwa [State.planCores, hw])
      rwa [State.phys, hw] at this
  · intro hhot hsens htemp ok
    exact exec_coreSelfTestComplete_hot hn (State.hot_eq_true hhot hsens htemp) ok
  · intro hcool hr1 hr2
    rw [exec_coreSelfTestComplete_cool hn ht hf (State.hot_eq_false hcool), hr1, hr2]
    exact done_quiet _ hq
  · intro hcool hdef hroom
    rw [exec_coreSelfTestComplete_cool hn ht hf (State.hot_eq_false hcool), Bool.false_and, Bool.false_and,
      if_neg Bool.false_ne_true, State.permanent_of_room (s := s.tested n) hdef hroom]
    refine ⟨_, done_quiet _ hq, ?_, s.wafer.fieldDefects_storeDefects _, s.wafer.fieldSeq_storeDefects _⟩
    exact congrArg (fun w => { s.tested n with wafer := w }) (s.wafer.storeDefects_frame _)

end Sys2Proof.Machine
end

section
/-!
Updates of one core: what they leave alone, and the issue of an instruction in a quiet state (R74, R86, R253).
-/

namespace Sys2Proof.Machine

/-! ### Only one core changes -/

namespace State.onlyCore

variable {s t u : State} {n : Nat}

theorem trans (h : s.onlyCore t n) (g : t.onlyCore u n) : s.onlyCore u n :=
  ⟨g.1.trans (by rw [h.1]), fun m hm => (g.2 m hm).trans (h.2 m hm)⟩

theorem setCore (h : s.onlyCore t n) (c : CoreSt) : s.onlyCore (t.setCore n c) n :=
  h.trans ⟨rfl, fun _ hm => t.core_setCore_other c hm⟩

theorem updCore (h : s.onlyCore t n) (f : CoreSt → CoreSt) : s.onlyCore (t.updCore n f) n := h.setCore _

theorem enqueueOp (h : s.onlyCore t n) (q : QName) (w : InstrWord) (key : Nat) (fin : Bool) : s.onlyCore (t.enqueueOp n q w key fin) n := by
  unfold State.enqueueOp
  exact h.updCore _

theorem job (h : s.onlyCore t n) : t.job = s.job := by rw [h.1]

end State.onlyCore

theorem State.onlyCore_refl (s : State) (n : Nat) : s.onlyCore s n := ⟨rfl, fun _ _ => rfl⟩

theorem State.onlyCore_issued {s : State} {n : Nat} (hn : n < numCores) (q : QName) (w : InstrWord) (d : Bool) :
    s.onlyCore (s.issued n q w d) n :=
  ⟨State.issued_other hn q w d, fun _ h => State.issued_core_other hn q w d h⟩

theorem State.onlyCore.count {s t : State} {n : Nat} (h : s.onlyCore t n) (hn : n < numCores) (ev q v c : Nat) :
    s.onlyCore (t.count n ev q v c) n := by
  rw [State.count_core hn]
  exact h.updCore _

/-! ### Issue in a quiet state -/

theorem State.ready.lt {s : State} {n op : Nat} {q : QName} (h : s.ready n q op) : n < numCores := h.1.1

theorem State.ready.opcode {s : State} {n op : Nat} {q : QName} (h : s.ready n q op) : opcodeOf (s.atFront n q) = op := h.2.1

theorem State.ready.program {s : State} {n op : Nat} {q : QName} (h : s.ready n q op) : q ≠ .plotter := h.2.2.2.2.2.1

/-- The queue behind an instruction that has issued without a draw. -/
def Queue.passed (Q : Queue) : Queue := { Q with pc := Q.pc + 1, st := .run }

theorem State.queue_issued {s : State} {n : Nat} (hn : n < numCores) (q : QName) (w : InstrWord) :
    ((s.issued n q w false).core n).queue q = ((s.core n).queue q).passed := State.issued_queue hn q w false

/-- An instruction in front of its queue issues; an effect that leaves job control alone is the command's whole effect. -/
theorem issue_next {s : State} {n : Nat} {q : QName} {op : Nat} {draws : InstrWord → Bool} {eff : State → InstrWord → Nat → State}
    (hq : s.quiet) (h : s.ready n q op) (hc : noTrap (s.causes n q (s.atFront n q))) (hr : s.ordered n q (s.atFront n q) = true)
    (hj : (eff (s.issued n q (s.atFront n q) (draws (s.atFront n q))) (s.atFront n q) (s.core n).issueSeq).job = s.job) :
    issue s n q op draws eff
      = .next (eff (s.issued n q (s.atFront n q) (draws (s.atFront n q))) (s.atFront n q) (s.core n).issueSeq) := by
  rw [issue_go draws eff h hc hr, done_of_job_eq hq hj]

/-- A program queue decodes against its core as it is. -/
theorem CoreSt.viewOf_program (c : CoreSt) {q : QName} (h : q ≠ .plotter) : c.viewOf q = c := if_neg h

theorem CoreSt.onlyIssue.setQueue {c d : CoreSt} (h : c.onlyIssue d) (q : QName) (x : Queue) : c.onlyIssue (d.setQueue q x) := by
  cases q <;> exact congrArg (fun y : CoreSt => y.setQueue _ x) h

theorem CoreSt.onlyIssue.setPen {c d : CoreSt} (h : c.onlyIssue d) (p : Tab Nat) : c.onlyIssue { d with pen := p } := by
  unfold CoreSt.onlyIssue at *
  exact congrArg (fun y : CoreSt => { y with pen := p }) h

theorem State.onlyIssue_issued {s : State} {n : Nat} (hn : n < numCores) {q : QName} (hq : q ≠ .plotter) (w : InstrWord) (d : Bool) :
    (s.core n).onlyIssue ((s.issued n q w d).core n) := by
  unfold CoreSt.onlyIssue
  rw [State.issued_core hn]
  simp only [CoreSt.setPennantOf, if_neg hq]
  split <;> cases q <;> rfl

/-! ### Raises (R85, R87, R90) -/

/-- Pennant `i` of core `n` has gone up by `inc`, and nothing else has changed. -/
structure State.Raised (s t : State) (n i inc : Nat) : Prop where
  only : s.onlyCore t n
  core : t.core n = { s.core n with pen := (t.core n).pen }
  pen : ∀ j, (t.core n).pennant j = (s.core n).pennant j + (if i = j then inc else 0)

theorem State.raised_zero (s : State) (n i : Nat) : s.Raised s n i 0 := ⟨s.onlyCore_refl n, rfl, by simp⟩

theorem State.Raised.queue {s t : State} {n i inc : Nat} (h : s.Raised t n i inc) (q : QName) : (t.core n).queue q = (s.core n).queue q := by
  rw [h.core]
  cases q <;> rfl

/-- A raise within the counter's range, by a program queue or from outside. -/
theorem State.raised_raise {s : State} {n i inc : Nat} {q : Option QName} (hq : q ≠ some .plotter)
    (h : (s.core n).pennant i + inc ≤ 65535) : s.Raised (s.raise n i inc q) n i inc := by
  have hx : q.getD .dispatch ≠ .plotter := by
    cases q with
    | none => exact (by decide)
    | some x => exact fun e => hq (congrArg some e)
  have hr : s.raise n i inc q = s.updCore n (fun c => c.setPennant i ((s.core n).pennant i + inc)) := by
    simp only [State.raise, CoreSt.pennantOf, CoreSt.setPennantOf, if_neg hx, if_pos h, Nat.min_eq_left h]
  rw [hr]
  refine ⟨(s.onlyCore_refl n).updCore _, by rw [State.core_updCore]; rfl, fun j => ?_⟩
  rw [State.core_updCore, CoreSt.pennant_setPennant]
  by_cases hj : j = i
  · simp [hj]
  · simp [hj, Ne.symm hj]

end Sys2Proof.Machine
end

section
/-!
Control instructions (R75 to R77, R82, R83, R86, R87, R297 to R300): each issues and retires at once on a queue without earlier operations.
-/

namespace Sys2Proof.Machine

/-! ### What a control instruction has changed -/

/-- An instruction of queue `q` has issued at core `n`, and nothing but its core has changed: its queue is `Q`, the pennants are `pen`. -/
structure State.Controlled (s t : State) (n : Nat) (q : QName) (Q : Queue) (pen : Nat → Nat) : Prop where
  only : s.onlyCore t n
  core : (s.core n).onlyIssue (t.core n)
  others : (s.core n).otherQueues (t.core n) q
  queue : (t.core n).queue q = Q
  pen : ∀ i, (t.core n).pennant i = pen i

theorem State.controlled_issued {s : State} {n : Nat} (hn : n < numCores) {q : QName} (hq : q ≠ .plotter) (w : InstrWord) :
    s.Controlled (s.issued n q w false) n q ((s.core n).queue q).passed ((s.core n).waited w) where
  only := State.onlyCore_issued hn q w false
  core := State.onlyIssue_issued hn hq w false
  others := fun p hp => State.issued_queue_other hn q p w false hp
  queue := State.queue_issued hn q w
  pen := State.issued_pennant hn hq w false

theorem State.Controlled.updQueue {s t : State} {n : Nat} {q : QName} {Q : Queue} {pen : Nat → Nat} (h : s.Controlled t n q Q pen)
    (f : Queue → Queue) : s.Controlled (t.updQueue n q f) n q (f Q) pen where
  only := h.only.updCore _
  core := by rw [State.updQueue, State.core_updCore]; exact h.core.setQueue q _
  others := fun p hp => by rw [State.updQueue, State.core_updCore, CoreSt.queue_setQueue_other _ _ hp]; exact h.others p hp
  queue := by rw [State.updQueue, State.core_updCore, CoreSt.queue_setQueue, h.queue]
  pen := fun i => by rw [State.updQueue, State.core_updCore, CoreSt.pennant_setQueue]; exact h.pen i

theorem State.Controlled.raised {s t u : State} {n i inc : Nat} {q : QName} {Q : Queue} {pen : Nat → Nat} (h : s.Controlled t n q Q pen)
    (g : t.Raised u n i inc) : s.Controlled u n q Q (fun j => pen j + (if i = j then inc else 0)) where
  only := h.only.trans g.only
  core := by rw [g.core]; exact h.core.setPen _
  others := fun p hp => (g.queue p).trans (h.others p hp)
  queue := (g.queue q).trans h.queue
  pen := fun j => by rw [g.pen, h.pen]

/-! ### Retirement at once (R297) -/

theorem CoreSt.setQueue_queue (c : CoreSt) (q : QName) : c.setQueue q (c.queue q) = c := by cases q <;> rfl

theorem CoreSt.setQueue_setQueue (c : CoreSt) (q : QName) (x y : Queue) : (c.setQueue q x).setQueue q y = c.setQueue q y := by cases q <;> rfl

/-- The only operation of a queue, a control instruction's, retires. -/
theorem State.drainControl_single {s : State} {n : Nat} {q : QName} {o : Op} (h : ((s.core n).queue q).ops = [o]) (hc : o.control = true) :
    s.drainControl n q 1 = (s.updCore n (fun c => c.setQueue q { c.queue q with ops := [] })).retireRaise n q o := by
  simp [State.drainControl, h, hc]

theorem State.raised_retireRaise {s : State} {n : Nat} {q : QName} {o : Op} (hq : q ≠ .plotter) (hr : o.remote = none)
    (h : (s.core n).pennant o.raiseIdx + o.raiseInc ≤ 65535) : s.Raised (s.retireRaise n q o) n o.raiseIdx o.raiseInc := by
  simp only [State.retireRaise, hr]
  split
  · rename_i h0
    rw [h0]
    exact s.raised_zero n _
  · exact State.raised_raise (fun e => hq (Option.some.inj e)) h

/-- The raise of a core that has changed and changed back. -/
theorem State.Raised.of_core_eq {s t u : State} {n i inc : Nat} (ho : s.onlyCore t n) (hc : t.core n = s.core n) (h : t.Raised u n i inc) :
    s.Raised u n i inc where
  only := ho.trans h.only
  core := by rw [← hc]; exact h.core
  pen := by rw [← hc]; exact h.pen

/-- A control instruction behind no earlier operation makes its raise at its own core. -/
theorem State.raised_controlIssued {s : State} {n : Nat} {q : QName} {w : InstrWord} (hq : q ≠ .plotter) (key : Nat)
    (hops : ((s.core n).queue q).ops = []) (hctl : isControl (opcodeOf w) = true) (hr : (raiseOf w).2.2 = none)
    (h : (s.core n).pennant (raiseOf w).1 + (raiseOf w).2.1 ≤ 65535) :
    s.Raised (s.controlIssued n q w key) n (raiseOf w).1 (raiseOf w).2.1 := by
  simp only [State.controlIssued]
  split
  · rename_i h0
    simp only [hr, Option.isNone_none, Bool.and_true, decide_eq_true_eq] at h0
    rw [h0]
    exact s.raised_zero n _
  · rw [hops, List.length_nil, Nat.zero_add, State.drainControl_single (o := _) (by simp [State.enqueueOp, hops]; rfl) hctl]
    have hc : ((s.enqueueOp n q w key true).updCore n (fun c => c.setQueue q { c.queue q with ops := [] })).core n = s.core n := by
      simp only [State.enqueueOp, State.core_updCore, CoreSt.queue_setQueue, CoreSt.setQueue_setQueue]
      rw [← hops]
      exact CoreSt.setQueue_queue _ q
    have ho : s.onlyCore ((s.enqueueOp n q w key true).updCore n (fun c => c.setQueue q { c.queue q with ops := [] })) n :=
      ((s.onlyCore_refl n).enqueueOp q w key true).updCore _
    refine .of_core_eq ho hc (State.raised_retireRaise hq hr ?_)
    rw [← hc] at h
    exact h

/-- So it does once its wait has been consumed (`CoreSt.raised`). -/
theorem State.Controlled.controlIssued {s t : State} {n : Nat} {q : QName} {Q : Queue} {w : InstrWord}
    (h : s.Controlled t n q Q ((s.core n).waited w)) (hq : q ≠ .plotter) (key : Nat) (hops : Q.ops = [])
    (hctl : isControl (opcodeOf w) = true) (hr : (raiseOf w).2.2 = none) (hle : (s.core n).raised w (raiseOf w).1 ≤ 65535) :
    s.Controlled (t.controlIssued n q w key) n q Q ((s.core n).raised w) :=
  h.raised (State.raised_controlIssued hq key (by rw [h.queue]; exact hops) hctl hr (by rw [h.pen]; simpa [CoreSt.raised] using hle))

/-- A control instruction issues, and its effect is the command's whole effect. -/
theorem exec_controlled {s : State} {n : Nat} {q : QName} {op : Nat} (eff : State → InstrWord → Nat → State) {Q : Queue} {pen : Nat → Nat}
    (hqu : s.quiet) (h : s.ready n q op) (hc : noTrap (s.causes n q (s.atFront n q))) (hr : s.ordered n q (s.atFront n q) = true)
    (he : s.Controlled (eff (s.issued n q (s.atFront n q) false) (s.atFront n q) (s.core n).issueSeq) n q Q pen) :
    ∃ t, issue s n q op never eff = .next t ∧ s.onlyCore t n ∧ (s.core n).onlyIssue (t.core n) ∧ (s.core n).otherQueues (t.core n) q
      ∧ (t.core n).queue q = Q ∧ ∀ i, (t.core n).pennant i = pen i :=
  ⟨_, issue_next hqu h hc hr he.only.job, he.only, he.core, he.others, he.queue, he.pen⟩

/-! ### HALT (R77) -/

/-- A queue halts, unless its own raise has trapped it. -/
def Queue.halt (Q : Queue) : Queue := if Q.st = .trapped then Q else { Q with st := .halted }

@[simp] theorem CoreSt.queue_reports (c : CoreSt) (q : QName) : c.reports.queue q = c.queue q := by cases q <;> rfl

theorem CoreSt.reported_reports (c : CoreSt) : c.reports.reported = true ↔ ∀ p ∈ programQueues, (c.queue p).st = .halted := by
  simp only [CoreSt.reports, List.all_eq_true, decide_eq_true_eq]

theorem CoreSt.onlyIssue.reports {c d : CoreSt} (h : c.onlyIssue d) : c.onlyIssue { d.reports with reported := c.reported } := by
  have hr : d.reported = c.reported := by rw [h]
  rw [← hr]
  exact h

/-! ### The statements -/

/-- Settles O1: issue itself is the whole effect of a PWAIT. -/
theorem pwaitConsumes : Obligations.PwaitConsumes := by
  intro s n q hqu h hc
  exact exec_controlled (fun t _ _ => t) hqu h (by simpa [State.causes, h.opcode] using hc) (by simp [State.ordered, h.opcode])
    (State.controlled_issued h.lt h.program _)

/-- Settles O2: a PRAISE, a FENCE and a HALT make their raise as they issue; a HALT then halts its queue and its core reports. -/
theorem controlRetiresAtOnce : Obligations.ControlRetiresAtOnce := by
  rintro s n q w hqu rfl hops hr hle
  have raises : ∀ op, op ≤ 6 → s.ready n q op →
      s.Controlled ((s.issued n q (s.atFront n q) false).controlIssued n q (s.atFront n q) (s.core n).issueSeq) n q
        ((s.core n).queue q).passed ((s.core n).raised (s.atFront n q)) := by
    intro op hle6 h
    exact (State.controlled_issued h.lt h.program _).controlIssued h.program _ hops (by simpa [isControl, h.opcode] using hle6) hr hle
  refine ⟨fun h hc => ?_, fun h hc hf => ?_, fun h hc => ?_⟩
  · exact exec_controlled (fun t w k => t.controlIssued n q w k) hqu h (by simpa [State.causes, h.opcode] using hc)
      (by simp [State.ordered, h.opcode]) (raises _ (by decide) h)
  · exact exec_controlled (fun t w k => t.controlIssued n q w k) hqu h (by simpa [State.causes, h.opcode] using hc)
      (by simpa [State.ordered, h.opcode] using hf) (raises _ (by decide) h)
  · have hH := (raises 0x06 (by decide) h).updQueue Queue.halt
    refine ⟨_, issue_next (eff := fun t w k => ((t.controlIssued n q w k).updQueue n q Queue.halt).updCore n CoreSt.reports) hqu h
      (by simpa [State.causes, h.opcode] using hc) (by simp [State.ordered, h.opcode, hops]) (hH.only.updCore _).job, hH.only.updCore _, ?_⟩
    simp only [never, State.core_updCore, CoreSt.queue_reports, CoreSt.reported_reports, CoreSt.otherQueues]
    exact ⟨hH.core.reports, hH.others, hH.queue, trivial, hH.pen⟩

/-! ### Loops (R82, R83) -/

/-- The search for the matching ENDLOOP looks at the instruction store and at where the program lies. -/
theorem skipLoop_congr {c d : CoreSt} {Q R : Queue} (hi : c.istore = d.istore) (hb : Q.qbase = R.qbase) (hl : Q.qlen = R.qlen)
    (fuel depth pc : Nat) : skipLoop c Q fuel depth pc = skipLoop d R fuel depth pc := by
  induction fuel generalizing depth pc with
  | zero => exact hl
  | succ fuel ih => simp only [skipLoop, hi, hb, hl, ih]

theorem loopEnter_ops (c : CoreSt) (w : InstrWord) (Q : Queue) : (loopEnter c w Q).ops = Q.ops := by
  unfold loopEnter
  split <;> rfl

theorem loopEnter_zero_pc {c : CoreSt} {w : InstrWord} (h : loopCount w = 0) (Q : Queue) :
    (loopEnter c w Q).pc = skipLoop c Q (Q.qlen - Q.pc) 0 Q.pc := by rw [loopEnter, if_pos h]

theorem loopEnd_cons {Q : Queue} {l : Loop} {rest : List Loop} (h : Q.loops = l :: rest) :
    loopEnd Q = if l.left > 1 then { Q with pc := l.body, loops := { l with left := l.left - 1 } :: rest } else { Q with loops := rest } := by
  simp only [loopEnd, h]

theorem CoreSt.onlyIssue.istore {c d : CoreSt} (h : c.onlyIssue d) : d.istore = c.istore := by rw [h]

/-- Settles O3: LOOP and ENDLOOP act on their queue as issue has left it, and make their raise. -/
theorem loopsCount : Obligations.LoopsCount := by
  rintro s n q w hqu rfl hops hle
  have loops : ∀ (f : Queue → Queue) op, op = 4 ∨ op = 5 → (f ((s.core n).queue q).passed).ops = [] → s.ready n q op →
      s.Controlled (((s.issued n q (s.atFront n q) false).updQueue n q f).controlIssued n q (s.atFront n q) (s.core n).issueSeq) n q
        (f ((s.core n).queue q).passed) ((s.core n).raised (s.atFront n q)) := by
    intro f op hop hf h
    refine ((State.controlled_issued h.lt h.program _).updQueue f).controlIssued h.program _ hf ?_ ?_ hle
    · rcases hop with rfl | rfl <;> simp [isControl, h.opcode]
    · rcases hop with rfl | rfl <;> simp [raiseOf, h.opcode]
  refine ⟨fun h hc h0 hd => ?_, fun h hc h0 => ?_, fun l rest h hc hl => ?_⟩
  · obtain ⟨t, ht, ho, hi, hq, hQ, hp⟩ := exec_controlled (fun t w k => (t.updQueue n q (loopEnter (t.core n) w)).controlIssued n q w k) hqu h
      (by simpa [State.causes, h.opcode, CoreSt.viewOf_program _ h.program, or_imp, forall_and, h0, Nat.not_le.2 hd] using hc)
      (by simp [State.ordered, h.opcode]) (loops _ 4 (.inl rfl) (by rw [loopEnter_ops]; exact hops) h)
    exact ⟨t, ht, ho, hi, hq, by rw [hQ, loopEnter, if_neg h0]; rfl, hp⟩
  · obtain ⟨t, ht, ho, hi, hq, hQ, hp⟩ := exec_controlled (fun t w k => (t.updQueue n q (loopEnter (t.core n) w)).controlIssued n q w k) hqu h
      (by simpa [State.causes, h.opcode, or_imp, forall_and, h0] using hc)
      (by simp [State.ordered, h.opcode]) (loops _ 4 (.inl rfl) (by rw [loopEnter_ops]; exact hops) h)
    have hst := (State.onlyIssue_issued (s := s) h.lt h.program (s.atFront n q) false).istore
    exact ⟨t, ht, ho, hi, hq, by rw [hQ, loopEnter, if_pos h0]; rfl,
      by rw [hQ, loopEnter_zero_pc h0]; exact skipLoop_congr hst (Q := ((s.core n).queue q).passed) (R := (s.core n).queue q) rfl rfl _ _ _, hp⟩
  · have hend := loopEnd_cons (Q := ((s.core n).queue q).passed) hl
    obtain ⟨t, ht, ho, hi, hq, hQ, hp⟩ := exec_controlled (fun t w k => (t.updQueue n q loopEnd).controlIssued n q w k) hqu h
      (by simpa [State.causes, h.opcode, CoreSt.viewOf_program _ h.program, or_imp, forall_and, hl] using hc)
      (by simp [State.ordered, h.opcode]) (loops loopEnd 5 (.inr rfl) (by rw [hend]; split <;> exact hops) h)
    refine ⟨t, ht, ho, hi, hq, ?_, ?_, hp⟩
    · rw [hQ, hend]; split <;> rfl
    · rw [hQ, hend]; split <;> rfl

/-! ### A raise of the Plotter queue (R101) -/

/-- An operation of the Plotter queue of core 0 that is finished and raises counter 0 by 1. -/
def plotterRaise : Op :=
  { opcode := 0x30, raiseIdx := 0, raiseInc := 1, seq := 0, done := true, key := 0, control := false, remote := none }

/-- The module after reset, but for that operation. -/
def plotterRetiring : State := State.reset.setCore 0 { CoreSt.reset with pq := { Queue.idle with ops := [plotterRaise] } }

/-- The Plotter queue raises a counter of its own (R101), and the core's stays. -/
theorem exec_plotterRetiring :
    exec (.operationRetire 0 .plotter) plotterRetiring
      = .next ((plotterRetiring.updCore 0 (fun c => { c with pq := Queue.idle })).updCore 0 (fun c => { c with plotPen := [(0, 1)] })) := rfl

/-- Refutes O4: its first clause takes every queue, but an operation of the Plotter queue raises one of that queue's own four counters
(R101), and not the core's counter of the same index. -/
theorem not_raisesArrive : ¬ Obligations.RaisesArrive := by
  intro h
  obtain ⟨t, ht, -, -, -, hpen, -⟩ := (h plotterRetiring ⟨rfl, rfl, rfl⟩).1 0 .plotter plotterRaise (by decide) rfl rfl rfl
    (fun e => nomatch e) (by decide)
  rw [exec_plotterRetiring] at ht
  cases ht
  exact absurd (hpen 0) (by decide)

end Sys2Proof.Machine
end

section
/-!
Operations of the engine queues (R74, R75, R87): an instruction that has issued stands last in its queue, and its engine finishes it.
-/

namespace Sys2Proof.Machine

/-! ### The operation in its queue -/

/-- An instruction that is no control instruction carries the common raise fields (R87). -/
theorem raiseOf_operation {w : InstrWord} (h : isControl (opcodeOf w) = false) : raiseOf w = (raiseIndexOf w, raiseIncrementOf w, none) := by
  have h6 : ¬ opcodeOf w ≤ 6 := by simpa [isControl] using h
  simp only [raiseOf, if_neg (show ¬ opcodeOf w = 0x01 by omega), if_neg (show ¬ opcodeOf w = 0x02 by omega)]

/-- The operation of an instruction, as its queue lists it. -/
def opOf (w : InstrWord) (key : Nat) (fin : Bool) : Op :=
  { opcode := opcodeOf w, raiseIdx := (raiseOf w).1, raiseInc := (raiseOf w).2.1, seq := key, done := fin, key := key,
    control := isControl (opcodeOf w), remote := (raiseOf w).2.2 }

theorem State.core_enqueueOp (s : State) (n : Nat) (q : QName) (w : InstrWord) (key : Nat) (fin : Bool) :
    (s.enqueueOp n q w key fin).core n =
      (s.core n).setQueue q { (s.core n).queue q with ops := ((s.core n).queue q).ops ++ [opOf w key fin] } := by
  simp only [State.enqueueOp, State.core_updCore, opOf]

theorem State.issueSeq_issued {s : State} {n : Nat} (hn : n < numCores) (q : QName) (w : InstrWord) (d : Bool) :
    ((s.issued n q w d).core n).issueSeq = (s.core n).issueSeq + 1 := by
  rw [State.issued_core hn]

/-- `tookOp` looks at the queues, the pennants and the issue ordinal of the core alone. -/
theorem State.tookOp.congr {s t u : State} {n : Nat} {q : QName} {fin : Bool} (h : s.tookOp t n q fin)
    (hq : ∀ p, (u.core n).queue p = (t.core n).queue p) (hp : (u.core n).pen = (t.core n).pen)
    (hi : (u.core n).issueSeq = (t.core n).issueSeq) : s.tookOp u n q fin := by
  simp only [State.tookOp, CoreSt.otherQueues, CoreSt.pennant, hq, hp, hi] at *
  exact h

/-- An instruction that has issued enters its queue's list; what else its engine has done meanwhile stands outside the queues. -/
theorem State.tookOp_enqueueOp {s t : State} {n : Nat} {q : QName} (hn : n < numCores) (hq : q ≠ .plotter) {d : Bool}
    (hctl : isControl (opcodeOf (s.atFront n q)) = false)
    (ht : ∀ p, (t.core n).queue p = ((s.issued n q (s.atFront n q) d).core n).queue p)
    (hp : (t.core n).pen = ((s.issued n q (s.atFront n q) d).core n).pen)
    (hi : (t.core n).issueSeq = ((s.issued n q (s.atFront n q) d).core n).issueSeq) (fin : Bool) :
    s.tookOp (t.enqueueOp n q (s.atFront n q) (s.core n).issueSeq fin) n q fin := by
  simp only [State.tookOp, State.core_enqueueOp, CoreSt.queue_setQueue, CoreSt.pennant_setQueue, CoreSt.setQueue_issueSeq]
  refine ⟨hi.trans (State.issueSeq_issued hn q _ d), fun p hp' => ?_, fun i => ?_, ?_, ?_, ?_⟩
  · rw [CoreSt.queue_setQueue_other _ _ hp', ht, State.issued_queue_other hn q p _ d hp']
  · rw [← State.issued_pennant hn hq _ d i, CoreSt.pennant, CoreSt.pennant, hp]
  · rw [ht, State.issued_queue hn]
  · rw [ht, State.issued_queue hn, List.length_append, List.length_singleton]
  · rw [List.getLast?_concat, opOf, raiseOf_operation hctl, hctl]

/-- The engine of an operation finishes it (R75): `c` and `d` are the cores before and after. -/
theorem State.tookOp.finish {s t u : State} {n : Nat} {q : QName} {c d : CoreSt} (h : s.tookOp t n q false) (f : Nat → Bool)
    (hf : f (opcodeOf (s.atFront n q)) = true) (hc : t.core n = c) (hd : u.core n = d)
    (hq : ∀ p, d.queue p = (c.setQueue q ((c.queue q).finish f (s.core n).issueSeq)).queue p) (hp : d.pen = c.pen)
    (hi : d.issueSeq = c.issueSeq) : s.tookOp u n q true := by
  subst hc hd
  obtain ⟨hseq, hother, hpen, hQ, hlen, hlast⟩ := h
  have hqq : (u.core n).queue q = ((t.core n).queue q).finish f (s.core n).issueSeq := by rw [hq, CoreSt.queue_setQueue]
  refine ⟨hi.trans hseq, fun p hpq => ?_, fun i => ?_, ?_, ?_, ?_⟩
  · rw [hq, CoreSt.queue_setQueue_other _ _ hpq, hother p hpq]
  · rw [← hpen i, CoreSt.pennant, CoreSt.pennant, hp]
  · rw [hqq, Queue.finish, hQ]
  · rw [hqq, Queue.finish, List.length_map, hlen]
  · simp [hqq, Queue.finish, List.getLast?_map, hlast, hf]

/-! ### What issue changes of a core besides its queue -/

/-- Of a core nothing has changed but one program queue, the pennants, the issue ordinal and the counters. -/
def CoreSt.queueFrame (c d : CoreSt) (q : QName) : Prop :=
  d = { c.setQueue q (d.queue q) with pen := d.pen, issueSeq := d.issueSeq, counters := d.counters, wrapped := d.wrapped }

theorem State.queueFrame_issued {s : State} {n : Nat} (hn : n < numCores) {q : QName} (hq : q ≠ .plotter) (w : InstrWord) (d : Bool) :
    (s.core n).queueFrame ((s.issued n q w d).core n) q := by
  unfold CoreSt.queueFrame
  rw [State.issued_core hn]
  simp only [CoreSt.setPennantOf, if_neg hq]
  split <;> cases q <;> rfl

theorem CoreSt.queueFrame.setQueue {c d : CoreSt} {q : QName} (h : c.queueFrame d q) (x : Queue) : c.queueFrame (d.setQueue q x) q := by
  unfold CoreSt.queueFrame at *
  cases q <;> exact congrArg (fun y : CoreSt => y.setQueue _ x) h

/-- The core of an instruction that has issued and stands in its queue. -/
theorem State.queueFrame_enqueued {s : State} {n : Nat} (hn : n < numCores) {q : QName} (hq : q ≠ .plotter) (w w' : InstrWord) (d : Bool)
    (key : Nat) (fin : Bool) : (s.core n).queueFrame (((s.issued n q w d).enqueueOp n q w' key fin).core n) q := by
  rw [State.core_enqueueOp]
  exact (State.queueFrame_issued hn hq w d).setQueue _

/-- An instruction of a program queue that has issued: its core, and its operation in the queue. -/
theorem State.ready.enqueued {s : State} {n op : Nat} {q : QName} (h : s.ready n q op) (hctl : isControl op = false) (d fin : Bool) :
    ∃ c, ((s.issued n q (s.atFront n q) d).enqueueOp n q (s.atFront n q) (s.core n).issueSeq fin).core n = c ∧ (s.core n).queueFrame c q
      ∧ s.tookOp ((s.issued n q (s.atFront n q) d).enqueueOp n q (s.atFront n q) (s.core n).issueSeq fin) n q fin :=
  ⟨_, rfl, State.queueFrame_enqueued h.lt h.program _ _ _ _ _,
    State.tookOp_enqueueOp h.lt h.program (by rw [h.opcode]; exact hctl) (fun _ => rfl) rfl rfl fin⟩

end Sys2Proof.Machine
end

section
/-!
Fetch and the weight sets (R67 to R70, R98, R102, R109, R110, R114, R115, R263 to R273): what the pump does when one thing moves.
-/

namespace Sys2Proof.Machine

/-! ### The pump without rows that enter -/

theorem CoreSt.pumpFload_nil {c : CoreSt} (h : c.floadRun = []) (fuel : Nat) : c.pumpFload fuel = c := by
  cases fuel with
  | zero => rfl
  | succ fuel => simp only [CoreSt.pumpFload, h]

theorem CoreSt.pumpFwgt_nil {c : CoreSt} (h : c.fwgtWait = []) : c.pumpFwgt = c := by simp only [CoreSt.pumpFwgt, h]

theorem CoreSt.enterSlot_none {c : CoreSt} (h : c.mmulRun = none) (modes : Nat) :
    c.enterSlot modes = { core := c, entry := .ok, kept := 0, more := false } := by simp only [CoreSt.enterSlot, h]

/-- Without an MMUL whose rows enter, one round of the two paths is all. -/
theorem CoreSt.pump_of_no_mmul {c : CoreSt} (h : ((c.pumpFload 8).pumpFwgt).mmulRun = none) (modes fuel kept : Nat) :
    c.pump modes (fuel + 1) kept = ((c.pumpFload 8).pumpFwgt, .ok, kept) := by
  simp only [CoreSt.pump, CoreSt.enterSlot_none h, Bool.false_eq_true, if_false, Nat.add_zero]

theorem State.pumpCore_of_no_mmul {s : State} {n : Nat} (h : (s.core n).mmulRun = none) :
    s.pumpCore n = s.setCore n ((s.core n).pump s.fmt.subnormal pumpFuel 0).1 := by
  simp only [State.pumpCore, h]

/-! ### Staging (R67, R68, R109) -/

theorem CoreSt.windowRow_congr {c d : CoreSt} (h : c.act = d.act) : c.windowRow = d.windowRow := by
  have hb : c.actByte = d.actByte := funext fun a => by rw [CoreSt.actByte, CoreSt.actByte, h]
  funext D pos k0 klen
  simp only [CoreSt.windowRow, CoreSt.windowBlock, CoreSt.windowCode, CoreSt.actBytesAt, hb]

theorem CoreSt.fillSlot_last (c : CoreSt) {r : FloadRun} (hr : r.row = 0) (hs : (floadF r.word).m ≤ slotSpan (floadF r.word).pack) :
    (c.fillSlot r).2 = none := by
  simp only [CoreSt.fillSlot, hr, Nat.sub_zero, Nat.zero_add, Nat.min_eq_right hs, Nat.lt_irrefl, if_false]

/-- Slots are filled from the activation store: what waits on the path does not matter. -/
theorem CoreSt.fillSlot_floadRun (c : CoreSt) (l : List FloadRun) (r : FloadRun) :
    ({ c with floadRun := l } : CoreSt).fillSlot r = ({ (c.fillSlot r).1 with floadRun := l }, (c.fillSlot r).2) := rfl

/-- The one slot of an FLOAD or FCONV: row i is the window at output position M0 + i (R266 to R273). -/
theorem CoreSt.staging_fillSlot (c : CoreSt) {r : FloadRun} (hr : r.row = 0) (hs : (floadF r.word).m ≤ slotSpan (floadF r.word).pack) :
    ∃ slot, (c.fillSlot r).1.staging = c.staging ++ [slot] ∧ slot.form = r.descriptor.form ∧ slot.packed = (floadF r.word).pack
      ∧ slot.rows = (upFrom (floadF r.word).m0 (floadF r.word).m).map (fun pos =>
          (c.windowRow r.descriptor pos (floadF r.word).k0 (floadF r.word).klen).1) := by
  refine ⟨_, rfl, rfl, rfl, ?_⟩
  simp only [hr, Nat.sub_zero, Nat.add_zero, Nat.min_eq_right hs, List.map_map]
  rfl

/-- An idle activation path with room in staging moves the rows of one slot, and finishes its operation. -/
theorem CoreSt.pump_fload {c : CoreSt} {r : FloadRun} (hf : c.floadRun = []) (hw : c.fwgtWait = []) (hm : c.mmulRun = none)
    (hs : c.staging.length < 8) (hr : r.row = 0) (hspan : (floadF r.word).m ≤ slotSpan (floadF r.word).pack) (modes fuel kept : Nat) :
    ({ c with floadRun := c.floadRun ++ [r] } : CoreSt).pump modes (fuel + 1) kept
      = ({ (c.fillSlot r).1 with fq := c.fq.finish isFloadOp r.key }, .ok, kept) := by
  have hload : ({ c with floadRun := c.floadRun ++ [r] } : CoreSt).pumpFload 8
      = { (c.fillSlot r).1 with fq := c.fq.finish isFloadOp r.key } := by
    rw [CoreSt.pumpFload]
    simp only [hf, List.nil_append, if_neg (Nat.not_le.2 hs), CoreSt.fillSlot_floadRun, CoreSt.fillSlot_last c hr hspan]
    rw [CoreSt.pumpFload_nil rfl, ← hf]
    rfl
  have hpump : (({ c with floadRun := c.floadRun ++ [r] } : CoreSt).pumpFload 8).pumpFwgt
      = { (c.fillSlot r).1 with fq := c.fq.finish isFloadOp r.key } := by
    rw [hload]
    exact CoreSt.pumpFwgt_nil hw
  rw [CoreSt.pump_of_no_mmul (by rw [hpump]; exact hm), hpump]

/-- The descriptor and the rows of an FLOAD or FCONV before any row has moved (R271, R273). -/
def CoreSt.floadStart (c : CoreSt) (w : InstrWord) (key : Nat) : FloadRun :=
  { word := w, desc := Memory.readN c.act (floadF w).desc 64, row := 0, key := key }

theorem State.onlyCore_startFload (s : State) {n : Nat} {q : QName} {w : InstrWord} {key : Nat}
    (h : ((s.enqueueOp n q w key false).core n).mmulRun = none) : s.onlyCore (s.startFload n q w key) n := by
  simp only [State.startFload]
  split
  · exact (s.onlyCore_refl n).enqueueOp _ _ _ _
  · rw [State.pumpCore_of_no_mmul (by rw [State.core_updCore]; exact h)]
    exact (((s.onlyCore_refl n).enqueueOp _ _ _ _).updCore _).setCore _

/-- The core of an FLOAD or FCONV with rows, on an idle activation path: one slot more, and its operation finished. -/
theorem State.core_startFload {s : State} {n : Nat} {q : QName} {w : InstrWord} {key : Nat} {c : CoreSt}
    (hc : (s.enqueueOp n q w key false).core n = c) (hm0 : (floadF w).m ≠ 0) (hspan : (floadF w).m ≤ slotSpan (floadF w).pack)
    (hf : c.floadRun = []) (hw : c.fwgtWait = []) (hm : c.mmulRun = none) (hs : c.staging.length < 8) :
    (s.startFload n q w key).core n = { (c.fillSlot (c.floadStart w key)).1 with fq := c.fq.finish isFloadOp key } := by
  rw [State.startFload, if_neg hm0, State.pumpCore_of_no_mmul (by rw [State.core_updCore, hc]; exact hm), State.core_setCore,
    State.core_updCore, hc]
  exact congrArg Prod.fst (CoreSt.pump_fload hf hw hm hs (r := c.floadStart w key) rfl hspan _ _ _)

/-- An FLOAD or FCONV of the fetch queue that has issued. -/
theorem State.startFload_effect {s : State} {n op : Nat} (h : s.ready n .fetch op) (hop : isFloadOp op = true)
    (hf : (s.core n).floadRun = []) (hfw : (s.core n).fwgtWait = []) (hm : (s.core n).mmulRun = none) (hs : (s.core n).staging.length < 8)
    (hspan : (floadF (s.atFront n .fetch)).m ≤ slotSpan (floadF (s.atFront n .fetch)).pack) {w : InstrWord} (hw : s.atFront n .fetch = w)
    {t : State} (ht : (s.issued n .fetch w false).startFload n .fetch w (s.core n).issueSeq = t) :
    s.onlyCore t n ∧ s.tookOp t n .fetch true
      ∧ t.core n = { s.core n with fq := (t.core n).fq, pen := (t.core n).pen, issueSeq := (t.core n).issueSeq,
                                   staging := (t.core n).staging, encerr := (t.core n).encerr, counters := (t.core n).counters,
                                   wrapped := (t.core n).wrapped }
      ∧ if (floadF w).m = 0 then (t.core n).staging = (s.core n).staging
        else ∃ slot, (t.core n).staging = (s.core n).staging ++ [slot]
          ∧ slot.form = ((s.core n).floadStart w (s.core n).issueSeq).descriptor.form ∧ slot.packed = (floadF w).pack
          ∧ slot.rows = (upFrom (floadF w).m0 (floadF w).m).map (fun pos =>
              ((s.core n).windowRow ((s.core n).floadStart w (s.core n).issueSeq).descriptor pos (floadF w).k0 (floadF w).klen).1) := by
  subst hw
  have hctl : isControl op = false := by
    simp only [isFloadOp, Bool.or_eq_true, decide_eq_true_eq] at hop
    rcases hop with rfl | rfl <;> rfl
  by_cases hm0 : (floadF (s.atFront n .fetch)).m = 0
  · obtain ⟨c, hcore, hfr, took⟩ := h.enqueued hctl false true
    rw [State.startFload, if_pos hm0] at ht
    subst ht
    refine ⟨(State.onlyCore_issued h.lt _ _ _).enqueueOp _ _ _ _, took, by rw [hcore, hfr]; rfl, ?_⟩
    rw [if_pos hm0, hcore, hfr]
    rfl
  · obtain ⟨c, hcore, hfr, took⟩ := h.enqueued hctl false false
    have hact : c.act = (s.core n).act := by rw [hfr]; rfl
    have hd : (t.core n) = { (c.fillSlot (c.floadStart (s.atFront n .fetch) (s.core n).issueSeq)).1 with fq := c.fq.finish isFloadOp (s.core n).issueSeq } := by
      rw [← ht]
      exact State.core_startFload hcore hm0 hspan (by rw [hfr]; exact hf) (by rw [hfr]; exact hfw) (by rw [hfr]; exact hm) (by rw [hfr]; exact hs)
    refine ⟨?_, took.finish isFloadOp (by rw [h.opcode]; exact hop) hcore hd (fun p => by cases p <;> rfl) rfl rfl, by rw [hd, hfr]; rfl, ?_⟩
    · rw [← ht]
      exact (State.onlyCore_issued h.lt _ _ _).trans (State.onlyCore_startFload _ (by rw [hcore, hfr]; exact hm))
    · rw [if_neg hm0]
      obtain ⟨slot, hst, hform, hpack, hrows⟩ := CoreSt.staging_fillSlot c (r := c.floadStart (s.atFront n .fetch) (s.core n).issueSeq) rfl hspan
      have hr : c.floadStart (s.atFront n .fetch) (s.core n).issueSeq = (s.core n).floadStart (s.atFront n .fetch) (s.core n).issueSeq := by
        rw [CoreSt.floadStart, CoreSt.floadStart, hact]
      rw [hr] at hform hrows
      rw [CoreSt.windowRow_congr hact] at hrows
      exact ⟨slot, by rw [hd]; exact hst.trans (by rw [hfr]; rfl), hform, hpack, hrows⟩

/-- Settles O6: both opcodes have the one effect `startFload`. -/
theorem fetchFillsStaging : Obligations.FetchFillsStaging := by
  rintro s n w r hqu rfl hf hfw hm hs hspan rfl i hi
  obtain ⟨op, hexec, hop, h, hc, hr⟩ : ∃ op, exec i s = issue s n .fetch op never (fun t w k => t.startFload n .fetch w k)
      ∧ isFloadOp op = true ∧ s.ready n .fetch op ∧ noTrap (s.causes n .fetch (s.atFront n .fetch))
      ∧ s.ordered n .fetch (s.atFront n .fetch) = true := by
    rcases hi with ⟨rfl, h, hc⟩ | ⟨rfl, h, hc⟩
    · exact ⟨0x10, rfl, rfl, h, by simpa [State.causes, h.opcode, CoreSt.viewOf_program _ h.program] using hc, by simp [State.ordered, h.opcode]⟩
    · exact ⟨0x11, rfl, rfl, h, by simpa [State.causes, h.opcode, CoreSt.viewOf_program _ h.program] using hc, by simp [State.ordered, h.opcode]⟩
  have he := State.startFload_effect h hop hf hfw hm hs hspan rfl rfl
  exact ⟨_, hexec.trans (issue_next hqu h hc hr he.1.job), he⟩

end Sys2Proof.Machine
end

section
/-!
The weight sets (R70, R98, R102, R110, R114, R115, R250, R264, R277), and the issue of an instruction of the Plotter queue.
-/

namespace Sys2Proof.Machine

/-! ### The weight path of the program (R70, R110) -/

/-- The weight path fills a shadow set that MSWAP has promoted, and finishes its operation. -/
theorem CoreSt.pump_fwgt {c : CoreSt} (hf : c.floadRun = []) (hw : c.fwgtWait = []) (hm : c.mmulRun = none) (hs : c.shadowFull = false)
    (w : InstrWord) (k modes fuel kept : Nat) :
    ({ c with fwgtWait := c.fwgtWait ++ [(w, k)] } : CoreSt).pump modes (fuel + 1) kept
      = ({ c.loadShadow w with fq := c.fq.finish (fun op => op = 0x12) k }, .ok, kept) := by
  have hpump : (({ c with fwgtWait := c.fwgtWait ++ [(w, k)] } : CoreSt).pumpFload 8).pumpFwgt
      = { c.loadShadow w with fq := c.fq.finish (fun op => op = 0x12) k } := by
    rw [CoreSt.pumpFload_nil (show ({ c with fwgtWait := c.fwgtWait ++ [(w, k)] } : CoreSt).floadRun = [] from hf)]
    simp only [CoreSt.pumpFwgt, hw, List.nil_append, hs, Bool.false_eq_true, if_false]
    rw [← hw]
    rfl
  rw [CoreSt.pump_of_no_mmul (by rw [hpump]; exact hm), hpump]

/-- With nothing for the activation path, and for the weight path nothing or a shadow set that still waits for MSWAP, nothing moves. -/
theorem CoreSt.pump_idle {c : CoreSt} (hf : c.floadRun = []) (hw : c.fwgtWait = [] ∨ c.shadowFull = true) (hm : c.mmulRun = none)
    (modes fuel kept : Nat) : c.pump modes (fuel + 1) kept = (c, .ok, kept) := by
  have hpump : (c.pumpFload 8).pumpFwgt = c := by
    rw [CoreSt.pumpFload_nil hf]
    rcases hw with h | h
    · exact CoreSt.pumpFwgt_nil h
    · unfold CoreSt.pumpFwgt
      split
      · rfl
      · rw [if_pos h]
  rw [CoreSt.pump_of_no_mmul (by rw [hpump]; exact hm), hpump]

/-! ### An instruction of the Plotter queue issues (R99, R101, R250) -/

/-- Opcodes that the Plotter feeds are listed, stand in its queue, and meet no bound beyond the core. -/
theorem plotterOpcode_cases {op : Nat} (h : op ∈ plotterOpcodes) :
    opcodeListed op = true ∧ wrongQueue op .plotter = false ∧ op ≠ 0x43 ∧ op ≠ 0x02 ∧ op ≠ 0x41 ∧ op ≠ 0x42 := by
  revert op
  decide

theorem State.stalled_of_opcode {s : State} {n : Nat} {w : InstrWord} (h2 : opcodeOf w ≠ 0x02) (h41 : opcodeOf w ≠ 0x41)
    (h42 : opcodeOf w ≠ 0x42) : s.stalled n w = false := by
  unfold State.stalled
  split
  · exact absurd ‹_› h2
  · exact absurd ‹_› h41
  · exact absurd ‹_› h42
  · rfl

theorem State.plotReady.lt {s : State} {n op : Nat} (h : s.plotReady n op) : n < numCores := h.1

theorem State.plotReady.opcode {s : State} {n op : Nat} (h : s.plotReady n op) : opcodeOf (s.atFront n .plotter) = op := by
  obtain ⟨-, -, -, -, -, hop, -⟩ := h
  exact hop

theorem State.standAlone_plotter {s : State} {n op : Nat} (h : s.plotReady n op) (hop : op ∈ plotterOpcodes)
    (hc : noTrap (s.causes n .plotter (s.atFront n .plotter))) (hr : s.ordered n .plotter (s.atFront n .plotter) = true) :
    s.standAlone n .plotter = .go := by
  obtain ⟨-, hi, hh, ht, hpc, rfl, hg, hfull, -⟩ := h
  obtain ⟨hlisted, hwrong, h43, h2, h41, h42⟩ := plotterOpcode_cases hop
  have hst := State.stalled_of_opcode (s := s) (n := n) h2 h41 h42
  have hlow : lowestCause ((cWRONG_QUEUE, false) :: s.causes n .plotter (s.atFront n .plotter)) = none :=
    lowestCause_none (List.forall_mem_cons.2 ⟨rfl, hc⟩)
  have hQ : (s.core n).queue .plotter = (s.core n).pq := rfl
  simp only [State.atFront] at *
  simp only [State.standAlone, hQ, hi, hh, ht, Nat.not_le.2 hpc, hlisted, hwrong, h43, hst, hr, hfull, hlow, bne_self_eq_false,
    Bool.false_and, Bool.and_false, Bool.or_self, decide_false, Bool.not_false, Bool.not_true, Bool.and_true, Bool.false_eq_true, if_false]
  rcases hg with h0 | h1
  · simp [h0]
  · simp [Nat.not_lt.2 h1]

theorem State.front_plotter {s : State} {n op : Nat} (h : s.plotReady n op) (hop : op ∈ plotterOpcodes)
    (hc : noTrap (s.causes n .plotter (s.atFront n .plotter))) (hr : s.ordered n .plotter (s.atFront n .plotter) = true) :
    s.front n .plotter op = .go (s.atFront n .plotter) (s.core n).issueSeq := by
  have hs := State.standAlone_plotter h hop hc hr
  obtain ⟨-, -, -, -, -, hopc, -, -, hy, -⟩ := h
  have ho : s.outranked n .plotter = false := by simp [State.outranked, queuesBefore]
  simp only [State.atFront] at *
  simp [State.front, State.rowOf, State.stand, State.standProgram, hopc, hs, ho, hy]

/-- An instruction of the Plotter queue that can issue has its effect on the state after issue, and no other when it leaves job control
alone. -/
theorem issue_plotter {s : State} {n op : Nat} {eff : State → InstrWord → Nat → State} (hqu : s.quiet) (h : s.plotReady n op)
    (hop : op ∈ plotterOpcodes) (hc : noTrap (s.causes n .plotter (s.atFront n .plotter)))
    (hr : s.ordered n .plotter (s.atFront n .plotter) = true)
    (hj : (eff (s.issued n .plotter (s.atFront n .plotter) false) (s.atFront n .plotter) (s.core n).issueSeq).job = s.job) :
    issue s n .plotter op never eff
      = .next (eff (s.issued n .plotter (s.atFront n .plotter) false) (s.atFront n .plotter) (s.core n).issueSeq) := by
  have hfront := State.front_plotter h hop hc hr
  obtain ⟨hn, -, -, -, -, -, -, -, -, hsram⟩ := h
  simp only [issue, withCore, hn, if_true, hfront, hsram, State.sramRead, List.isEmpty_nil, never]
  exact done_of_job_eq hqu hj

/-- Of a core, issue of a Plotter instruction changes the Plotter queue, its pennants, the issue ordinal and the counters alone. -/
def CoreSt.plotFrame (c d : CoreSt) : Prop :=
  d = { c with pq := d.pq, plotPen := d.plotPen, issueSeq := d.issueSeq, counters := d.counters, wrapped := d.wrapped }

theorem State.plotFrame_enqueued {s : State} {n : Nat} (hn : n < numCores) (w w' : InstrWord) (d : Bool) (key : Nat) (fin : Bool) :
    (s.core n).plotFrame (((s.issued n .plotter w d).enqueueOp n .plotter w' key fin).core n) := by
  unfold CoreSt.plotFrame
  rw [State.core_enqueueOp, State.issued_core hn]
  simp only [CoreSt.setPennantOf, if_true]
  split <;> rfl

theorem State.pc_enqueued {s : State} {n : Nat} (hn : n < numCores) (q : QName) (w w' : InstrWord) (d : Bool) (key : Nat) (fin : Bool) :
    (((s.issued n q w d).enqueueOp n q w' key fin).core n |>.queue q).pc = ((s.core n).queue q).pc + 1 := by
  rw [State.core_enqueueOp, CoreSt.queue_setQueue, State.issued_queue hn]

/-! ### The Plotter weight set (R98, R102, R103) -/

theorem CoreSt.fillPlot_frame (c : CoreSt) : c.fillPlot = { c with plotStaging := c.fillPlot.plotStaging, plotRows := c.fillPlot.plotRows } := by
  unfold CoreSt.fillPlot
  split <;> rfl

theorem CoreSt.enterPlot_none {c : CoreSt} (h : c.plotRun = none) (modes : Nat) :
    c.enterPlot modes = { core := c, entry := .ok, kept := 0, more := false } := by simp only [CoreSt.enterPlot, h]

/-- Without a Plotter MMUL whose rows enter, and with no FWGT left, one round is all. -/
theorem CoreSt.pumpPlot_of_no_mmul {c : CoreSt} (h : c.fillPlot.pumpPlotFwgt.plotRun = none) (hw : c.fillPlot.pumpPlotFwgt.plotFwgt = [])
    (modes fuel kept : Nat) : c.pumpPlot modes (fuel + 1) kept = (c.fillPlot.pumpPlotFwgt, .ok, kept) := by
  simp only [CoreSt.pumpPlot, CoreSt.enterPlot_none h, hw, List.isEmpty_nil, Bool.not_true, Bool.and_false, Bool.or_self,
    Bool.false_eq_true, if_false, Nat.add_zero]

/-- The weight path fills the Plotter weight set for the one FWGT of the Plotter queue, and finishes its operation. -/
theorem CoreSt.pumpPlot_fwgt {c : CoreSt} (hw : c.plotFwgt = []) (hr : c.plotRun = none) (w : InstrWord) (k modes fuel kept : Nat) :
    ({ c with plotFwgt := c.plotFwgt ++ [(w, k)] } : CoreSt).pumpPlot modes (fuel + 1) kept
      = ({ c.loadPlot w with plotStaging := c.fillPlot.plotStaging, plotRows := c.fillPlot.plotRows
                             pq := c.pq.finish (fun op => op = 0x12) k }, .ok, kept) := by
  have hfill : ({ c with plotFwgt := c.plotFwgt ++ [(w, k)] } : CoreSt).fillPlot
      = { c with plotFwgt := [(w, k)], plotStaging := c.fillPlot.plotStaging, plotRows := c.fillPlot.plotRows } := by
    rw [hw]
    unfold CoreSt.fillPlot
    simp only
    split <;> rfl
  have hpump : ({ c with plotFwgt := c.plotFwgt ++ [(w, k)] } : CoreSt).fillPlot.pumpPlotFwgt
      = { c.loadPlot w with plotStaging := c.fillPlot.plotStaging, plotRows := c.fillPlot.plotRows
                            pq := c.pq.finish (fun op => op = 0x12) k } := by
    rw [hfill]
    simp only [CoreSt.pumpPlotFwgt, hr]
    rw [← hw, ← hr]
    rfl
  rw [CoreSt.pumpPlot_of_no_mmul (by rw [hpump]; exact hr) (by rw [hpump]; exact hw), hpump]

theorem State.pumpPlotter_of_no_mmul {s : State} {n : Nat} (h : (s.core n).plotRun = none) :
    s.pumpPlotter n = s.setCore n ((s.core n).pumpPlot s.fmt.subnormal pumpFuel 0).1 := by
  simp only [State.pumpPlotter, h]

/-! ### FWGT and MSWAP (R70, R98, R110) -/

/-- FWGT of the fetch queue, as issue hands it on. -/
def State.startFwgt (t : State) (n : Nat) (w : InstrWord) (key : Nat) : State :=
  ((t.enqueueOp n .fetch w key false).updCore n (fun c => { c with fwgtWait := c.fwgtWait ++ [(w, key)] })).pumpCore n

/-- MSWAP of the array queue. -/
def State.startMswap (t : State) (n : Nat) (w : InstrWord) (key : Nat) : State :=
  ((t.enqueueOp n .array w key true).updCore n CoreSt.swapSets).pumpCore n

/-- FWGT of the Plotter queue. -/
def State.startPlotFwgt (t : State) (n : Nat) (w : InstrWord) (key : Nat) : State :=
  ((t.enqueueOp n .plotter w key false).updCore n (fun c => { c with plotFwgt := c.plotFwgt ++ [(w, key)] })).pumpPlotter n

theorem State.onlyCore.pumpCore {s t : State} {n : Nat} (h : s.onlyCore t n) (hm : (t.core n).mmulRun = none) :
    s.onlyCore (t.pumpCore n) n := by
  rw [State.pumpCore_of_no_mmul hm]
  exact h.setCore _

/-- The core behind a pump that no MMUL runs in. -/
theorem State.core_pumpCore {s : State} {n : Nat} {c d : CoreSt} {kept : Nat} (hc : s.core n = c) (hm : c.mmulRun = none)
    (h : c.pump s.fmt.subnormal pumpFuel 0 = (d, .ok, kept)) : (s.pumpCore n).core n = d := by
  rw [State.pumpCore_of_no_mmul (by rw [hc]; exact hm), State.core_setCore, hc, h]

/-- An FWGT that finds the shadow set promoted fills it, and is finished. -/
theorem State.core_startFwgt {s : State} {n : Nat} {w : InstrWord} {key : Nat} {c : CoreSt} (hc : (s.enqueueOp n .fetch w key false).core n = c)
    (hf : c.floadRun = []) (hw : c.fwgtWait = []) (hm : c.mmulRun = none) (hs : c.shadowFull = false) :
    (s.startFwgt n w key).core n = { c.loadShadow w with fq := c.fq.finish (fun op => op = 0x12) key } :=
  State.core_pumpCore (c := { c with fwgtWait := c.fwgtWait ++ [(w, key)] }) (by rw [State.core_updCore, hc]) hm
    (CoreSt.pump_fwgt hf hw hm hs w key _ _ 0)

/-- An FWGT that finds the shadow set full waits. -/
theorem State.core_startFwgt_full {s : State} {n : Nat} {w : InstrWord} {key : Nat} {c : CoreSt} (hc : (s.enqueueOp n .fetch w key false).core n = c)
    (hf : c.floadRun = []) (hm : c.mmulRun = none) (hs : c.shadowFull = true) :
    (s.startFwgt n w key).core n = { c with fwgtWait := c.fwgtWait ++ [(w, key)] } :=
  State.core_pumpCore (c := { c with fwgtWait := c.fwgtWait ++ [(w, key)] }) (by rw [State.core_updCore, hc]) hm
    (CoreSt.pump_idle (c := { c with fwgtWait := c.fwgtWait ++ [(w, key)] }) hf (.inr hs) hm _ _ 0)

/-- Of a core on whose paths nothing waits, an MSWAP moves the shadow set alone. -/
theorem State.core_startMswap {s : State} {n : Nat} {w : InstrWord} {key : Nat} {c : CoreSt} (hc : (s.enqueueOp n .array w key true).core n = c)
    (hf : c.floadRun = []) (hw : c.fwgtWait = []) (hm : c.mmulRun = none) : (s.startMswap n w key).core n = c.swapSets :=
  State.core_pumpCore (c := c.swapSets) (by rw [State.core_updCore, hc]) hm (CoreSt.pump_idle (c := c.swapSets) hf (.inl hw) hm _ _ 0)

theorem State.startPlotFwgt_eq {s : State} {n : Nat} {w : InstrWord} {key : Nat} {c : CoreSt} (hc : (s.enqueueOp n .plotter w key false).core n = c)
    (hw : c.plotFwgt = []) (hr : c.plotRun = none) :
    s.startPlotFwgt n w key = ((s.enqueueOp n .plotter w key false).updCore n (fun c => { c with plotFwgt := c.plotFwgt ++ [(w, key)] })).setCore n
      { c.loadPlot w with plotStaging := c.fillPlot.plotStaging, plotRows := c.fillPlot.plotRows
                          pq := c.pq.finish (fun op => op = 0x12) key } := by
  rw [State.startPlotFwgt, State.pumpPlotter_of_no_mmul (by rw [State.core_updCore, hc]; exact hr), State.core_updCore, hc]
  exact congrArg _ (congrArg Prod.fst (CoreSt.pumpPlot_fwgt hw hr w key _ _ 0))

/-- Settles O7: each instruction stands in its queue with what its weight path then does. -/
theorem weightSetsLoadAndSwap : Obligations.WeightSetsLoadAndSwap := by
  intro s n w hqu hf hfw hm
  refine ⟨?_, ?_, ?_, ?_, ?_⟩
  · rintro rfl h hc hs
    obtain ⟨c, hcore, hfr, took⟩ := h.enqueued rfl false false
    have ht := State.core_startFwgt hcore (by rw [hfr]; exact hf) (by rw [hfr]; exact hfw) (by rw [hfr]; exact hm) (by rw [hfr]; exact hs)
    have ho : s.onlyCore ((s.issued n .fetch (s.atFront n .fetch) false).startFwgt n (s.atFront n .fetch) (s.core n).issueSeq) n :=
      (((State.onlyCore_issued h.lt _ _ _).enqueueOp _ _ _ _).updCore _).pumpCore (by rw [State.core_updCore, hcore, hfr]; exact hm)
    refine ⟨_, issue_next (draws := never) (eff := fun t w k => t.startFwgt n w k) hqu h (by simpa [State.causes, h.opcode] using hc)
      (by simp [State.ordered, h.opcode]) ho.job, ho,
      took.finish (fun op => op = 0x12) (by rw [h.opcode]; rfl) hcore ht (fun p => by cases p <;> rfl) rfl rfl, ?_, ?_⟩
    · simp only [never, ht]; rw [hfr]; rfl
    · simp only [never, ht]; rw [hfr]; rfl
  · rintro rfl h hc hs
    obtain ⟨c, hcore, hfr, took⟩ := h.enqueued rfl false false
    have ht := State.core_startFwgt_full hcore (by rw [hfr]; exact hf) (by rw [hfr]; exact hm) (by rw [hfr]; exact hs)
    have ho : s.onlyCore ((s.issued n .fetch (s.atFront n .fetch) false).startFwgt n (s.atFront n .fetch) (s.core n).issueSeq) n :=
      (((State.onlyCore_issued h.lt _ _ _).enqueueOp _ _ _ _).updCore _).pumpCore (by rw [State.core_updCore, hcore, hfr]; exact hm)
    have hwait : c.fwgtWait = [] := by rw [hfr]; exact hfw
    rw [hwait] at ht
    refine ⟨_, issue_next (draws := never) (eff := fun t w k => t.startFwgt n w k) hqu h (by simpa [State.causes, h.opcode] using hc)
      (by simp [State.ordered, h.opcode]) ho.job, ho,
      took.congr (fun p => by simp only [never, ht, hcore]; cases p <;> rfl) (by simp only [never, ht, hcore]) (by simp only [never, ht, hcore]), ?_⟩
    simp only [never, ht]; rw [hfr]; rfl
  · rintro rfl h hc hs
    obtain ⟨c, hcore, hfr, took⟩ := h.enqueued rfl false true
    have ht := State.core_startMswap hcore (by rw [hfr]; exact hf) (by rw [hfr]; exact hfw) (by rw [hfr]; exact hm)
    have ho : s.onlyCore ((s.issued n .array (s.atFront n .array) false).startMswap n (s.atFront n .array) (s.core n).issueSeq) n :=
      (((State.onlyCore_issued h.lt _ _ _).enqueueOp _ _ _ _).updCore _).pumpCore (by rw [State.core_updCore, hcore, hfr]; exact hm)
    refine ⟨_, issue_next (draws := never) (eff := fun t w k => t.startMswap n w k) hqu h (by simpa [State.causes, h.opcode] using hc)
      (by simpa [State.ordered, h.opcode] using hs) ho.job, ho,
      took.congr (fun p => by simp only [never, ht, hcore]; cases p <;> rfl) (by simp only [never, ht, hcore]; rfl)
        (by simp only [never, ht, hcore]; rfl), ?_⟩
    simp only [never, ht]; rw [hfr]; rfl
  · rintro rfl h hc hpf hpr
    obtain ⟨c, hcore⟩ : ∃ c, ((s.issued n .plotter (s.atFront n .plotter) false).enqueueOp n .plotter (s.atFront n .plotter)
      (s.core n).issueSeq false).core n = c := ⟨_, rfl⟩
    have hfr : (s.core n).plotFrame c := hcore ▸ State.plotFrame_enqueued h.lt _ _ _ _ _
    have hpc : (c.queue .plotter).pc = _ := hcore ▸ State.pc_enqueued h.lt .plotter _ _ _ _ _
    have ht := State.startPlotFwgt_eq hcore (by rw [hfr]; exact hpf) (by rw [hfr]; exact hpr)
    have ho : s.onlyCore ((s.issued n .plotter (s.atFront n .plotter) false).startPlotFwgt n (s.atFront n .plotter) (s.core n).issueSeq) n := by
      rw [ht]
      exact (((State.onlyCore_issued h.lt _ _ _).enqueueOp _ _ _ _).updCore _).setCore _
    refine ⟨_, issue_plotter (eff := fun t w k => t.startPlotFwgt n w k) hqu h (by decide) (by simpa [State.causes, h.opcode] using hc)
      (by simp [State.ordered, h.opcode]) ho.job, ho, ?_, ?_, ?_⟩ <;> simp only [ht, State.core_setCore]
    · rw [hfr]; rfl
    · exact hpc
    · rw [hfr]; rfl
  · rintro rfl h hc
    have ho : s.onlyCore ((s.issued n .plotter (s.atFront n .plotter) false).enqueueOp n .plotter (s.atFront n .plotter) (s.core n).issueSeq true) n :=
      (State.onlyCore_issued h.lt _ _ _).enqueueOp _ _ _ _
    exact ⟨_, issue_plotter (eff := fun t w k => t.enqueueOp n .plotter w k true) hqu h (by decide) (by simpa [State.causes, h.opcode] using hc)
      (by simp [State.ordered, h.opcode]) ho.job, ho, State.plotFrame_enqueued h.lt _ _ _ _ _, State.pc_enqueued h.lt .plotter _ _ _ _ _⟩

end Sys2Proof.Machine
end

section
/-!
The entry of an MMUL's rows (R69, R118, R123 to R134, R139): it reads and writes the accumulators and their marks alone, so that it comes to
the same at every core that holds the same ones.
-/

namespace Sys2Proof.Machine

/-- `e` is `d` but for the accumulators with their marks, flags and tally, which are those of `c`; the counts of corrections and of wraps
are its own. -/
def CoreSt.sharesAcc (c d e : CoreSt) : Prop :=
  e = { d with acc := c.acc, accErr := c.accErr, accSat := c.accSat, flush := c.flush, tally := c.tally
               accCorrected := e.accCorrected, wrapped := e.wrapped }

/-- A row that enters at one core enters so at every core with its accumulators. -/
theorem mmulRow_sharesAcc {modes : Nat} {f : MmulF} {vs : List Vec} {av : Vec} {m : Nat} {c d e c' : CoreSt} (h : c.sharesAcc d e)
    (hr : mmulRow modes f vs av m c = .ok c') : ∃ e', mmulRow modes f vs av m e = .ok e' ∧ c'.sharesAcc d e' := by
  rw [h]
  unfold mmulRow at *
  cases hsc : (tileScan c f m).2 with
  | some p => simp only [hsc, reduceCtorEq] at hr
  | none =>
    have hsc' : (tileScan { d with acc := c.acc, accErr := c.accErr, accSat := c.accSat, flush := c.flush, tally := c.tally
                                   accCorrected := e.accCorrected, wrapped := e.wrapped } f m).2 = none := hsc
    simp only [hsc] at hr
    simp only [hsc']
    by_cases hi : isIntPair f.wf = true
    · rw [if_pos hi] at hr ⊢
      cases hr
      exact ⟨_, rfl, rfl⟩
    · rw [if_neg hi] at hr ⊢
      by_cases hw : f.w = 2
      · rw [if_pos hw] at hr ⊢
        cases hr
        exact ⟨_, rfl, rfl⟩
      · rw [if_neg hw] at hr ⊢
        cases hr
        exact ⟨_, rfl, rfl⟩

theorem CoreSt.sharesAcc.enterRow {c d e : CoreSt} (h : c.sharesAcc d e) (f : MmulF) (m : Nat) (wasted : Bool) :
    (c.enterRow f m wasted).sharesAcc d (e.enterRow f m wasted) := by
  rw [h]
  rfl

/-- So do the rows of a slot. -/
theorem mmulSlotRows_sharesAcc {modes : Nat} {f : MmulF} {vs : List Vec} {l : List (Vec × Bool)} {m k m' k' : Nat} {c d e c' : CoreSt}
    (h : c.sharesAcc d e) (hr : mmulSlotRows modes f vs l m k c = (.ok c', m', k')) :
    ∃ e', mmulSlotRows modes f vs l m k e = (.ok e', m', k') ∧ c'.sharesAcc d e' := by
  induction l generalizing m k c e with
  | nil =>
    cases hr
    exact ⟨e, rfl, h⟩
  | cons x l ih =>
    simp only [mmulSlotRows] at hr ⊢
    cases hrow : mmulRow modes f vs x.1 m c with
    | bad c1 r p => simp [hrow] at hr
    | ok c1 =>
      obtain ⟨e1, he, hs⟩ := mmulRow_sharesAcc h hrow
      rw [hrow] at hr
      rw [he]
      exact ih (hs.enterRow f m x.2) hr

end Sys2Proof.Machine
end

section
/-!
MMUL (R69, R98, R103, R118, R198, R275): the rows of one staging slot enter in one command.
-/

namespace Sys2Proof.Machine

/-! ### The pump with rows that enter -/

/-- The slot that holds the rows of the running MMUL is consumed, and the MMUL is finished. -/
theorem CoreSt.enterSlot_done {modes : Nat} {c c' : CoreSt} {r : MmulRun} {f : MmulF} {slot : Slot} {rest : List Slot} {k : Nat}
    (hr : c.mmulRun = some r) (h0 : r.row = 0) (hf : mmulF r.word = f) (hst : c.staging = slot :: rest) (hform : slot.form = f.af)
    (hrows : mmulSlotRows modes f c.active.vecs (slot.rows.zip (wastedRows (isDouble f.wf f.af) (slot.pads.take f.m))) 0 0 c
      = (.ok c', f.m, k)) :
    c.enterSlot modes = { core := { c' with staging := rest, mmulRun := none, aq := c'.aq.finish (fun op => op = 0x20) r.key }
                          entry := .ok, kept := k, more := true } := by
  simp only [CoreSt.enterSlot, hr, hst, hf, hform, h0, Nat.sub_zero, ne_eq, not_true_eq_false, if_false, hrows, Nat.lt_irrefl]

/-- With nothing else in motion, that is all that the pump does. -/
theorem CoreSt.pump_mmul {modes : Nat} {c c0 c' : CoreSt} {r : MmulRun} {f : MmulF} {slot : Slot} {rest : List Slot} {k : Nat}
    (hl : c.floadRun = []) (hw : c.fwgtWait = []) (hr : c.mmulRun = some r) (h0 : r.row = 0) (hf : mmulF r.word = f)
    (hst : c.staging = slot :: rest) (hform : slot.form = f.af) (hs : c0.sharesAcc c c')
    (hrows : mmulSlotRows modes f c.active.vecs (slot.rows.zip (wastedRows (isDouble f.wf f.af) (slot.pads.take f.m))) 0 0 c
      = (.ok c', f.m, k)) (fuel : Nat) :
    c.pump modes (fuel + 2) 0
      = ({ c' with staging := rest, mmulRun := none, aq := c'.aq.finish (fun op => op = 0x20) r.key }, .ok, k) := by
  rw [CoreSt.pump, CoreSt.pumpFload_nil hl, CoreSt.pumpFwgt_nil hw, CoreSt.enterSlot_done hr h0 hf hst hform hrows]
  simp only [if_true, Nat.zero_add]
  exact CoreSt.pump_idle (by rw [hs]; exact hl) (.inl (by rw [hs]; exact hw)) rfl modes fuel k

theorem CoreSt.pumpPlot_idle {c : CoreSt} (hw : c.plotFwgt = []) (hr : c.plotRun = none) (modes fuel kept : Nat) :
    c.pumpPlot modes (fuel + 1) kept = (c.fillPlot, .ok, kept) := by
  have hw' : c.fillPlot.plotFwgt = [] := by rw [CoreSt.fillPlot_frame]; exact hw
  have hpump : c.fillPlot.pumpPlotFwgt = c.fillPlot := by simp only [CoreSt.pumpPlotFwgt, hw']
  rw [CoreSt.pumpPlot_of_no_mmul (by rw [hpump, CoreSt.fillPlot_frame]; exact hr) (by rw [hpump]; exact hw'), hpump]

theorem CoreSt.enterPlot_done {modes : Nat} {c c' : CoreSt} {r : MmulRun} {f : MmulF} {rows : List (List Byte)} {k : Nat}
    (hr : c.plotRun = some r) (h0 : r.row = 0) (hf : mmulF r.word = f) (hst : c.plotStaging = some rows)
    (hrows : mmulSlotRows modes f c.plotSet.vecs ((rows.take f.m).map (fun b => (Vec.ofBytes f.af (kT f.wf) b, false))) 0 0 c
      = (.ok c', f.m, k)) :
    c.enterPlot modes = { core := { c' with plotStaging := none, plotRun := none, pq := c'.pq.finish (fun op => op = 0x20) r.key }
                          entry := .ok, kept := k, more := true } := by
  simp only [CoreSt.enterPlot, hr, hst, hf, h0, Nat.sub_zero, hrows, Nat.lt_irrefl, if_false]

/-- So for the Plotter queue; the staging slot then takes the next rows that wait for it (R103). -/
theorem CoreSt.pumpPlot_mmul {modes : Nat} {c c0 c' : CoreSt} {r : MmulRun} {f : MmulF} {rows : List (List Byte)} {k : Nat}
    (hw : c.plotFwgt = []) (hr : c.plotRun = some r) (h0 : r.row = 0) (hf : mmulF r.word = f) (hst : c.plotStaging = some rows)
    (hs : c0.sharesAcc c c')
    (hrows : mmulSlotRows modes f c.plotSet.vecs ((rows.take f.m).map (fun b => (Vec.ofBytes f.af (kT f.wf) b, false))) 0 0 c
      = (.ok c', f.m, k)) (fuel : Nat) :
    ∃ st rs, c.pumpPlot modes (fuel + 2) 0
      = ({ c' with plotStaging := st, plotRows := rs, plotRun := none, pq := c'.pq.finish (fun op => op = 0x20) r.key }, .ok, k) := by
  have hfill : c.fillPlot.pumpPlotFwgt = c := by
    rw [show c.fillPlot = c by simp only [CoreSt.fillPlot, hst]]
    simp only [CoreSt.pumpPlotFwgt, hw]
  rw [CoreSt.pumpPlot, hfill, CoreSt.enterPlot_done hr h0 hf hst hrows]
  simp only [Bool.true_or, if_true, Nat.zero_add]
  rw [CoreSt.pumpPlot_idle (by rw [hs]; exact hw) rfl modes fuel k, CoreSt.fillPlot_frame]
  exact ⟨_, _, rfl⟩

/-! ### What the module counts of it (R197, R198, R756, R757) -/

/-- Of a core nothing has changed but its counters and its samples. -/
def CoreSt.countFrame (c d : CoreSt) : Prop := d = { c with counters := d.counters, wrapped := d.wrapped, tri := d.tri }

/-- Of the module nothing has changed but those of one core. -/
structure State.Counted (s t : State) (n : Nat) : Prop where
  only : s.onlyCore t n
  core : (s.core n).countFrame (t.core n)

theorem State.Counted.trans {s t u : State} {n : Nat} (h : s.Counted t n) (g : t.Counted u n) : s.Counted u n where
  only := h.only.trans g.only
  core := by
    have hg := g.core
    unfold CoreSt.countFrame at hg
    rw [h.core] at hg
    exact hg

theorem State.counted_count {n : Nat} (s : State) (hn : n < numCores) (ev q v c : Nat) : s.Counted (s.count n ev q v c) n where
  only := (s.onlyCore_refl n).count hn ev q v c
  core := by rw [State.count_core hn, State.core_updCore]; rfl

theorem State.counted_countMacs {n : Nat} (s : State) (hn : n < numCores) (qual : Nat) (f : MmulF) (rows cycles : Nat) :
    s.Counted (s.countMacs n qual f rows cycles) n := by
  unfold State.countMacs
  split
  · exact (s.counted_count hn _ _ _ _).trans (State.counted_count _ hn _ _ _ _)
  · exact s.counted_count hn _ _ _ _

theorem State.counted_refl (s : State) (n : Nat) : s.Counted s n := ⟨s.onlyCore_refl n, rfl⟩

theorem State.counted_sampleTile (s : State) (n : Nat) (w : InstrWord) : s.Counted (s.sampleTile n w) n := by
  simp only [State.sampleTile]
  split
  · exact s.counted_refl n
  · split
    · exact s.counted_refl n
    · exact ⟨(s.onlyCore_refl n).updCore _, by rw [State.core_updCore]; rfl⟩

/-- The pump with an MMUL that it finishes: the core that it leaves, and counts. -/
theorem State.pumpCore_of_mmul {s : State} {n : Nat} {c d : CoreSt} {r : MmulRun} {kept : Nat} (hn : n < numCores) (hc : s.core n = c)
    (hr : c.mmulRun = some r) (hp : c.pump s.fmt.subnormal pumpFuel 0 = (d, .ok, kept)) (hd : d.mmulRun = none) :
    (s.setCore n d).Counted (s.pumpCore n) n := by
  simp only [State.pumpCore, hc, hr, hp, hd, Option.isNone_none, if_true]
  exact (State.counted_countMacs _ hn _ _ _ _).trans (State.counted_sampleTile _ _ _)

/-- The same of the Plotter queue; the rows count at the Plotter of the core's sheet too. -/
theorem State.pumpPlotter_of_mmul {s : State} {n : Nat} {c d : CoreSt} {r : MmulRun} {kept : Nat} (hn : n < numCores) (hc : s.core n = c)
    (hr : c.plotRun = some r) (hp : c.pumpPlot s.fmt.subnormal pumpFuel 0 = (d, .ok, kept)) :
    ∃ u x, (s.setCore n d).Counted u n ∧ s.pumpPlotter n = { u with gaz := { u.gaz with blocks := x } } := by
  obtain ⟨x, hx⟩ := ((s.setCore n d).countMacs n 16 (mmulF r.word) kept (d.tally.sub c.tally).retired).count_blocks
    (b := blkPlotter (sheetOf n)) (by simp [blkPlotter]; omega) evPLOTTER_ROWS 0 1 kept
  refine ⟨_, x, State.counted_countMacs _ hn 16 (mmulF r.word) kept (d.tally.sub c.tally).retired, ?_⟩
  simp only [State.pumpPlotter, hc, hr, hp]
  exact hx

/-! ### The statement -/

/-- An MMUL of the array queue counts, and stands in its queue. -/
def State.enqueueMmul (t : State) (n : Nat) (w : InstrWord) (key : Nat) (fin : Bool) : State :=
  (t.updCore n (fun c => { c with mmulCount := c.mmulCount + 1 })).enqueueOp n .array w key fin

theorem State.core_enqueueMmul (t : State) (n : Nat) (w : InstrWord) (key : Nat) (fin : Bool) :
    (t.enqueueMmul n w key fin).core n = { (t.enqueueOp n .array w key fin).core n with mmulCount := (t.core n).mmulCount + 1 } := by
  rw [State.enqueueMmul, State.core_enqueueOp, State.core_enqueueOp, State.core_updCore]
  rfl

theorem State.onlyCore_enqueueMmul {s : State} {n : Nat} (hn : n < numCores) (w : InstrWord) (key : Nat) (fin : Bool) :
    s.onlyCore ((s.issued n .array w false).enqueueMmul n w key fin) n :=
  ((State.onlyCore_issued hn _ _ _).updCore _).enqueueOp _ _ _ _

theorem State.startMmul_empty {t : State} {n : Nat} {w : InstrWord} {key : Nat} (h : (mmulF w).m = 0 ∨ (mmulF w).n = 0) :
    t.startMmul n .array w key = t.enqueueMmul n w key true := by
  rw [State.startMmul, if_pos h]
  rfl

theorem State.startMmul_rows {t : State} {n : Nat} {w : InstrWord} {key : Nat} (hm : (mmulF w).m ≠ 0) (hn : (mmulF w).n ≠ 0)
    (hk : (mmulF w).k ≠ 0) :
    t.startMmul n .array w key
      = ((t.enqueueMmul n w key false).updCore n (fun c => { c with mmulRun := some { word := w, row := 0, key := key } })).pumpCore n := by
  simp only [State.startMmul, hm, hn, hk, or_self, if_false]
  rfl

theorem State.startPlotMmul_rows {t : State} {n : Nat} {w : InstrWord} {key : Nat} (hm : (mmulF w).m ≠ 0) (hn : (mmulF w).n ≠ 0)
    (hk : (mmulF w).k ≠ 0) :
    t.startPlotMmul n w key
      = ((t.enqueueOp n .plotter w key false).updCore n (fun c => { c with plotRun := some { word := w, row := 0, key := key } })).pumpPlotter n := by
  simp only [State.startPlotMmul, hm, hn, hk, or_self, if_false]

/-- A core that an instruction of the array queue has left holds the accumulators that it held before issue. -/
theorem CoreSt.queueFrame.sharesAcc {c d e : CoreSt} {q : QName} (h : c.queueFrame d q) (he : e = { d with mmulCount := e.mmulCount, mmulRun := e.mmulRun }) :
    c.sharesAcc e e := by
  rw [he, h]
  cases q <;> rfl

/-- An MMUL of the array queue whose rows stand in the first staging slot, from the core `b` before issue. -/
theorem State.startMmul_effect {s t : State} {n : Nat} {w : InstrWord} {key k : Nat} {f : MmulF} {c b c1 : CoreSt} {slot : Slot} {rest : List Slot}
    (hn : n < numCores) (hf : mmulF w = f) (hcore : (s.enqueueOp n .array w key false).core n = c) (hb : b.queueFrame c .array)
    (hm0 : f.m ≠ 0) (hn0 : f.n ≠ 0) (hk0 : f.k ≠ 0) (hl : b.floadRun = []) (hw : b.fwgtWait = []) (hst : b.staging = slot :: rest)
    (hform : slot.form = f.af)
    (hrows : mmulSlotRows s.fmt.subnormal f b.active.vecs (slot.rows.zip (wastedRows (isDouble f.wf f.af) (slot.pads.take f.m))) 0 0 b
      = (.ok c1, f.m, k)) (ht : s.startMmul n .array w key = t) :
    s.onlyCore t n ∧ t.core n =
      { c with mmulCount := (s.core n).mmulCount + 1, mmulRun := none, staging := rest, aq := c.aq.finish (fun op => op = 0x20) key
               acc := c1.acc, accErr := c1.accErr, accSat := c1.accSat, flush := c1.flush, tally := c1.tally
               accCorrected := (t.core n).accCorrected, counters := (t.core n).counters, wrapped := (t.core n).wrapped
               tri := (t.core n).tri } := by
  subst hf
  rw [State.startMmul_rows hm0 hn0 hk0] at ht
  obtain ⟨u, hu⟩ : ∃ u, (s.enqueueMmul n w key false).updCore n (fun c => { c with mmulRun := some { word := w, row := 0, key := key } }) = u := ⟨_, rfl⟩
  have ho : s.onlyCore u n := by
    rw [← hu]
    exact (((s.onlyCore_refl n).updCore _).enqueueOp _ _ _ _).updCore _
  have hfmt : u.fmt = s.fmt := by rw [ho.1]
  obtain ⟨e, he⟩ : ∃ e : CoreSt, { c with mmulCount := (s.core n).mmulCount + 1, mmulRun := some { word := w, row := 0, key := key } } = e := ⟨_, rfl⟩
  have hue : u.core n = e := by rw [← hu, State.core_updCore, State.core_enqueueMmul, hcore, ← he]
  obtain ⟨e', hrows', hs⟩ := mmulSlotRows_sharesAcc (hb.sharesAcc (e := e) (by rw [← he])) hrows
  have hp := CoreSt.pump_mmul (r := { word := w, row := 0, key := key }) (f := mmulF w) (slot := slot) (rest := rest) (modes := s.fmt.subnormal)
    (c := e) (by rw [← he, hb]; exact hl) (by rw [← he, hb]; exact hw) (by rw [← he]) rfl rfl (by rw [← he, hb]; exact hst) hform hs
    (by rw [← hrows', ← he, hb]; rfl) 62
  have hC := State.pumpCore_of_mmul hn hue (by rw [← he]) (by rw [hfmt]; exact hp) rfl
  rw [hu] at ht
  rw [ht] at hC
  refine ⟨(ho.setCore _).trans hC.only, ?_⟩
  rw [hC.core, State.core_setCore, hs, ← he]

/-- So for a Plotter MMUL, whose rows stand in the Plotter staging slot. -/
theorem State.startPlotMmul_effect {s t : State} {n : Nat} {w : InstrWord} {key k : Nat} {f : MmulF} {c b c1 : CoreSt} {rows : List (List Byte)}
    (hn : n < numCores) (hf : mmulF w = f) (hcore : (s.enqueueOp n .plotter w key false).core n = c) (hb : b.plotFrame c)
    (hm0 : f.m ≠ 0) (hn0 : f.n ≠ 0) (hk0 : f.k ≠ 0) (hw : b.plotFwgt = []) (hst : b.plotStaging = some rows)
    (hrows : mmulSlotRows s.fmt.subnormal f b.plotSet.vecs ((rows.take f.m).map (fun x => (Vec.ofBytes f.af (kT f.wf) x, false))) 0 0 b
      = (.ok c1, f.m, k)) (ht : s.startPlotMmul n w key = t) :
    t.job = s.job ∧ (∀ m, m ≠ n → t.core m = s.core m) ∧ ∃ st rs ac, t.core n =
      { c with plotRun := none, pq := c.pq.finish (fun op => op = 0x20) key, plotStaging := st, plotRows := rs
               acc := c1.acc, accErr := c1.accErr, accSat := c1.accSat, flush := c1.flush, tally := c1.tally
               accCorrected := ac, counters := (t.core n).counters, wrapped := (t.core n).wrapped
               tri := (t.core n).tri } := by
  subst hf
  rw [State.startPlotMmul_rows hm0 hn0 hk0] at ht
  obtain ⟨u, hu⟩ : ∃ u, (s.enqueueOp n .plotter w key false).updCore n (fun c => { c with plotRun := some { word := w, row := 0, key := key } }) = u := ⟨_, rfl⟩
  have ho : s.onlyCore u n := by
    rw [← hu]
    exact ((s.onlyCore_refl n).enqueueOp _ _ _ _).updCore _
  have hfmt : u.fmt = s.fmt := by rw [ho.1]
  obtain ⟨e, he⟩ : ∃ e : CoreSt, { c with plotRun := some { word := w, row := 0, key := key } } = e := ⟨_, rfl⟩
  have hue : u.core n = e := by rw [← hu, State.core_updCore, hcore, ← he]
  obtain ⟨e', hrows', hs⟩ := mmulSlotRows_sharesAcc (c := b) (d := e) (e := e) (by rw [← he, hb]; rfl) hrows
  obtain ⟨st, rs, hp⟩ := CoreSt.pumpPlot_mmul (r := { word := w, row := 0, key := key }) (f := mmulF w) (rows := rows) (modes := s.fmt.subnormal)
    (c := e) (by rw [← he, hb]; exact hw) (by rw [← he]) rfl rfl (by rw [← he, hb]; exact hst) hs (by rw [← hrows', ← he, hb]) 62
  obtain ⟨v, x, hC, hv⟩ := State.pumpPlotter_of_mmul hn hue (by rw [← he]) (by rw [hfmt]; exact hp)
  rw [hu, hv] at ht
  subst ht
  have hov := (ho.setCore _).trans hC.only
  refine ⟨hov.job, hov.2, st, rs, e'.accCorrected, ?_⟩
  show v.core n = _
  rw [hC.core, State.core_setCore, hs, ← he]
  rfl

/-- Settles O8: the rows enter as they would at the core before issue (`mmulSlotRows_sharesAcc`), and the pump finishes the operation. -/
theorem mmulAccumulates : Obligations.MmulAccumulates := by
  rintro s n w f hqu rfl
  refine ⟨?_, ?_, ?_⟩
  · rintro rfl h hc hr hl hw hmn
    obtain ⟨c, hcore, hfr, took⟩ := h.enqueued rfl false true
    have ho : s.onlyCore ((s.issued n .array (s.atFront n .array) false).startMmul n .array (s.atFront n .array) (s.core n).issueSeq) n := by
      rw [State.startMmul_empty hmn]
      exact State.onlyCore_enqueueMmul h.lt _ _ _
    have ht : ((s.issued n .array (s.atFront n .array) false).startMmul n .array (s.atFront n .array) (s.core n).issueSeq).core n
        = { c with mmulCount := (s.core n).mmulCount + 1 } := by
      rw [State.startMmul_empty hmn, State.core_enqueueMmul, hcore, State.queueFrame_issued h.lt h.program]
      rfl
    refine ⟨_, issue_next (draws := never) (eff := fun t w k => t.startMmul n .array w k) hqu h
      (by simpa [State.causes, h.opcode, CoreSt.viewOf_program _ h.program] using hc)
      (by simpa [State.ordered, h.opcode] using hr) ho.job, ho,
      took.congr (fun p => by simp only [never, ht, hcore]; cases p <;> rfl) (by simp only [never, ht, hcore])
        (by simp only [never, ht, hcore]), ?_⟩
    simp only [never, ht]; rw [hfr]; rfl
  · rintro slot rest c1 k rfl h hc hr hl hw hm0 hn0 hk0 hst hform hrows
    obtain ⟨c, hcore, hfr, took⟩ := h.enqueued rfl false false
    have hmc : ((s.issued n .array (s.atFront n .array) false).core n).mmulCount = (s.core n).mmulCount := by
      rw [State.queueFrame_issued h.lt h.program]; rfl
    have hissued := State.onlyCore_issued (s := s) h.lt .array (s.atFront n .array) false
    obtain ⟨hpump, ht⟩ := State.startMmul_effect h.lt rfl hcore hfr hm0 hn0 hk0 hl hw hst hform (by rw [hissued.1]; exact hrows) rfl
    have ho := hissued.trans hpump
    rw [hmc] at ht
    refine ⟨_, issue_next (draws := never) (eff := fun t w k => t.startMmul n .array w k) hqu h
      (by simpa [State.causes, h.opcode, CoreSt.viewOf_program _ h.program] using hc)
      (by simpa [State.ordered, h.opcode] using hr) ho.job, ho,
      took.finish (fun op => op = 0x20) (by rw [h.opcode]; rfl) hcore ht (fun p => by cases p <;> rfl) rfl rfl, ?_⟩
    simp only [never]
    rw [ht, hfr]
    exact ⟨rfl, rfl, rfl, rfl, rfl, rfl, rfl, rfl, rfl, rfl, rfl, rfl, rfl, rfl⟩
  · rintro c1 k rows rfl h hc hr hm0 hn0 hk0 hst hrows
    obtain ⟨c, hcore⟩ : ∃ c, ((s.issued n .plotter (s.atFront n .plotter) false).enqueueOp n .plotter (s.atFront n .plotter)
      (s.core n).issueSeq false).core n = c := ⟨_, rfl⟩
    have hfr : (s.core n).plotFrame c := hcore ▸ State.plotFrame_enqueued h.lt _ _ _ _ _
    have hpc : (c.queue .plotter).pc = _ := hcore ▸ State.pc_enqueued h.lt .plotter _ _ _ _ _
    have hissued := State.onlyCore_issued (s := s) h.lt .plotter (s.atFront n .plotter) false
    have hw : (s.core n).plotFwgt = [] := by
      simp only [plotMmulReady, Bool.and_eq_true, List.isEmpty_iff] at hr
      exact hr.1.2
    obtain ⟨hj, hother, st, rs, ac, ht⟩ := State.startPlotMmul_effect h.lt rfl hcore hfr hm0 hn0 hk0 hw hst (by rw [hissued.1]; exact hrows) rfl
    refine ⟨_, issue_plotter (eff := fun t w k => t.startPlotMmul n w k) hqu h (by decide) (by simpa [State.causes, h.opcode, CoreSt.viewOf] using hc)
      (by simpa [State.ordered, h.opcode] using hr) (hj.trans hissued.job), fun m hm => (hother m hm).trans (hissued.2 m hm), ?_⟩
    rw [ht]
    refine ⟨rfl, rfl, ?_, ?_, ?_, ?_, ?_, hpc⟩ <;> rw [hfr]

end Sys2Proof.Machine
end

section
/-!
Packets that enter the mesh (R359, R381, R386, R388): the packets of a transfer's data, and what their way leaves alone.
-/

namespace Sys2Proof.Machine

/-! ### The packets of a transfer's data (R359) -/

theorem getElem?_upFrom {a n i j : Nat} : (upFrom a n)[i]? = some j ↔ i < n ∧ j = a + i := by
  induction n generalizing a i with
  | zero => simp [upFrom]
  | succ n ih =>
    cases i with
    | zero => simp [upFrom, eq_comm]
    | succ i => simp [upFrom, ih, Nat.add_right_comm, Nat.add_assoc]

theorem chunksF_flatten {α : Type} {n : Nat} (hn : 0 < n) {fuel : Nat} {l : List α} (h : l.length ≤ fuel) : (chunksF n fuel l).flatten = l := by
  induction fuel generalizing l with
  | zero => rw [List.length_eq_zero_iff.1 (Nat.le_zero.1 h)]; rfl
  | succ fuel ih =>
    cases l with
    | nil => rfl
    | cons x l =>
      rw [chunksF, List.flatten_cons, ih (by simp only [List.length_drop, List.length_cons] at h ⊢; omega), List.take_append_drop]
      exact List.cons_ne_nil x l

theorem length_chunksF {α : Type} {n : Nat} (hn : 0 < n) {fuel : Nat} {l : List α} (h : l.length ≤ fuel) :
    (chunksF n fuel l).length = ceilDiv l.length n := by
  have step : ∀ k, 0 < k → ceilDiv (k - n) n + 1 = ceilDiv k n := by
    intro k hk
    unfold ceilDiv
    rcases Nat.lt_or_ge k n with hlt | hge
    · rw [Nat.sub_eq_zero_of_le hlt.le, Nat.zero_add, Nat.div_eq_of_lt (by omega), show k + n - 1 = (k - 1) + n by omega,
        Nat.add_div_right _ hn, Nat.div_eq_of_lt (by omega)]
    · rw [show k + n - 1 = (k - n + n - 1) + n by omega, Nat.add_div_right _ hn]
  induction fuel generalizing l with
  | zero =>
    rw [List.length_eq_zero_iff.1 (Nat.le_zero.1 h)]
    exact (Nat.div_eq_of_lt (by simp only [List.length_nil]; omega)).symm
  | succ fuel ih =>
    cases l with
    | nil => exact (Nat.div_eq_of_lt (by simp only [List.length_nil]; omega)).symm
    | cons x l =>
      rw [chunksF, List.length_cons, ih (by simp only [List.length_drop, List.length_cons] at h ⊢; omega), List.length_drop,
        step _ (by simp only [List.length_cons]; omega)]
      exact List.cons_ne_nil x l

theorem length_le_of_mem_chunksF {α : Type} {n fuel : Nat} {l c : List α} (h : c ∈ chunksF n fuel l) : c.length ≤ n := by
  induction fuel generalizing l with
  | zero => exact absurd h (List.not_mem_nil)
  | succ fuel ih =>
    cases l with
    | nil => exact absurd h (List.not_mem_nil)
    | cons x l =>
      rw [chunksF, List.mem_cons] at h
      · rcases h with rfl | h
        · exact List.length_take_le _ _
        · exact ih h
      · exact List.cons_ne_nil x l

theorem packetData_flatten (l : List Byte) : (packetData l).flatten = l := by
  unfold packetData
  split
  · next h => rw [List.isEmpty_iff.1 h]; rfl
  · exact chunksF_flatten (by decide) (Nat.le_refl _)

theorem length_packetData (l : List Byte) : (packetData l).length = max 1 (ceilDiv l.length 8192) := by
  unfold packetData
  split
  · next h => rw [List.isEmpty_iff.1 h]; rfl
  · next h =>
    have hl : 0 < l.length := List.length_pos_iff.2 (by simpa using h)
    have hc : 1 ≤ ceilDiv l.length 8192 := (Nat.one_le_div_iff (by decide)).2 (by omega)
    rw [chunks, length_chunksF (by decide) (Nat.le_refl _), packetBytes]
    exact (Nat.max_eq_right hc).symm

theorem length_le_of_mem_packetData {l c : List Byte} (h : c ∈ packetData l) : c.length ≤ 8192 := by
  unfold packetData at h
  split at h
  · rw [List.mem_singleton.1 h]; exact Nat.zero_le _
  · exact length_le_of_mem_chunksF h

theorem length_packets (s : State) (src vc here dst : Nat) (track : List (Nat × Nat)) (l : List (List Byte)) :
    (s.packets src vc here dst track l).length = l.length := by
  simp [State.packets]

/-! ### What packets on their way leave alone (R386, R388) -/

/-- Of the module, nothing but the fabric's counts has changed. -/
def State.fabricCounted (s t : State) : Prop :=
  t = { s with fabric := { s.fabric with counts := t.fabric.counts, tablesFixed := t.fabric.tablesFixed } }

namespace State.fabricCounted

variable {s t u : State}

theorem refl (s : State) : s.fabricCounted s := rfl

theorem trans (h : s.fabricCounted t) (g : t.fabricCounted u) : s.fabricCounted u := by
  unfold State.fabricCounted at g ⊢
  rw [h] at g
  exact g

theorem dropAt (h : s.fabricCounted t) (n d : Nat) : t.dropAt n d = s.dropAt n d := by
  rw [h]
  rfl

theorem foldl {α : Type} {f : State → α → State} (h : ∀ (t : State) x, t.fabricCounted (f t x)) (l : List α) (s : State) :
    s.fabricCounted (l.foldl f s) := by
  induction l generalizing s with
  | nil => exact refl s
  | cons x l ih => exact (h s x).trans (ih _)

end State.fabricCounted

theorem State.fabricCounted_tableRead (s : State) (e : TableAt) : s.fabricCounted (s.tableRead e) := by
  unfold State.tableRead
  split
  · exact .refl s
  · dsimp only
    split <;> rfl

theorem State.fabricCounted_passes (s : State) (n d : Nat) : s.fabricCounted (s.passes n d) := by
  unfold State.passes
  split
  · exact .refl s
  · exact .foldl (fun (t : State) x => t.fabricCounted_tableRead _) _ s

/-- Packets with a way go it (R386). -/
theorem State.routed_of_way {s : State} {n d : Nat} (h : s.dropAt n d = none) (count : Nat) (go : State → State) :
    s.routed n d count go = go (s.passes n d) := by
  rw [State.routed]
  simp only [(s.fabricCounted_passes n d).dropAt, h]

end Sys2Proof.Machine
end

section
/-!
Core-to-core sends (R288 to R291, R359, R381, R111): the packets of a DSEND leave, and one arrives.
-/

namespace Sys2Proof.Machine

/-! ### The packets of a DSEND to one core leave -/

/-- The i-th packet of a send, with its data. -/
def sendMsg (n d : Nat) (f : DsendF) (key : Nat) (x : (Packet × List Byte) × Nat) : SendMsg :=
  { src := n, dst := d, vc := f.vc, dmem := f.dmem, daddr := f.daddr + packetBytes * x.2, data := x.1.2,
    pen := if x.1.1.last then f.pen else none, key := key, pkt := x.1.1, place := .flying }

/-- The packets of a DSEND's data to one core. -/
def State.sendMsgs (s : State) (n d : Nat) (f : DsendF) (key : Nat) (l : List (List Byte)) : List SendMsg :=
  (((s.packets n f.vc n d [] l).zip l).zip (upFrom 0 l.length)).map (sendMsg n d f key)

theorem State.length_sendMsgs (s : State) (n d : Nat) (f : DsendF) (key : Nat) (l : List (List Byte)) :
    (s.sendMsgs n d f key l).length = l.length := by
  simp [State.sendMsgs, length_packets]

theorem State.data_sendMsgs (s : State) (n d : Nat) (f : DsendF) (key : Nat) (l : List (List Byte)) :
    (s.sendMsgs n d f key l).flatMap (fun m => m.data) = l.flatten := by
  have hp := length_packets s n f.vc n d [] l
  have hdata : (s.sendMsgs n d f key l).map (fun m => m.data) = l := by
    rw [State.sendMsgs, List.map_map]
    calc _ = ((((s.packets n f.vc n d [] l).zip l).zip (upFrom 0 l.length)).map Prod.fst).map Prod.snd := by rw [List.map_map]; rfl
      _ = l := by rw [List.map_fst_zip (by simp [hp]), List.map_snd_zip (by omega)]
  rw [List.flatMap_def, hdata]

theorem State.get_sendMsgs {s : State} {n d : Nat} {f : DsendF} {key : Nat} {l : List (List Byte)} {i : Nat} {m : SendMsg}
    (h : (s.sendMsgs n d f key l)[i]? = some m) :
    ∃ p c, c ∈ l ∧ m = sendMsg n d f key ((p, c), i) ∧ p.seq = (Tab.get 0 s.fabric.seqNo (5 * n + f.vc) + i) % 1024
      ∧ p.last = decide (i + 1 = l.length) := by
  simp only [State.sendMsgs, State.packets, List.getElem?_map, Option.map_eq_some_iff, List.getElem?_zip_eq_some, getElem?_upFrom] at h
  obtain ⟨⟨⟨p, c⟩, j⟩, ⟨⟨⟨⟨a, b⟩, ⟨ha, hb⟩, hp⟩, hc⟩, hj⟩, rfl⟩ := h
  obtain rfl : j = i := by omega
  obtain rfl : b = j := by simp only at hb; omega
  exact ⟨p, c, List.mem_of_getElem? hc, rfl, (congrArg Packet.seq hp).symm, (congrArg Packet.last hp).symm⟩

/-- The packets of a send go out when they have a way. -/
theorem State.foldl_routed {s : State} {n d : Nat} (h : s.dropAt n d = none) {α : Type} (g : α → SendMsg) (l : List α) :
    ∃ u, s.fabricCounted u ∧ l.foldl (fun t x => t.routed n d 1 (fun u =>
        { u with flight := { u.flight with sends := u.flight.sends ++ [g x] } })) s
      = { u with flight := { s.flight with sends := s.flight.sends ++ l.map g } } := by
  induction l generalizing s with
  | nil => exact ⟨s, .refl s, by simp⟩
  | cons x l ih =>
    have hp := s.fabricCounted_passes n d
    rw [List.foldl_cons, State.routed_of_way h]
    obtain ⟨u, hu, hfold⟩ := ih (s := { s.passes n d with
      flight := { (s.passes n d).flight with sends := (s.passes n d).flight.sends ++ [g x] } }) ((hp.dropAt n d).trans h)
    refine ⟨{ u with flight := s.flight }, ?_, ?_⟩
    · rw [hu, hp]
      rfl
    · rw [hfold, hp]
      simp

/-- The packets that a DSEND to one core puts on its way. -/
def State.dsendMsgs (s : State) (n : Nat) (w : InstrWord) (key : Nat) : List SendMsg :=
  s.sendMsgs n (s.phys (dsendF w).dest) (dsendF w) key (packetData (Memory.readN (s.core n).act (dsendF w).src (dsendF w).len))

/-- The packets `ms` of core `n` are on their way on a channel, numbered, and nothing else has changed but the fabric's counts. -/
structure State.Sent (s t : State) (n vc : Nat) (ms : List SendMsg) : Prop where
  only : t = { s with flight := { s.flight with sends := s.flight.sends ++ ms }, fabric := t.fabric }
  traffic : s.onlyTraffic t
  seqNo : Tab.get 0 t.fabric.seqNo (5 * n + vc) = (Tab.get 0 s.fabric.seqNo (5 * n + vc) + ms.length) % 1024

theorem State.sent_sendPackets {s : State} {n d : Nat} (h : s.dropAt n d = none) (f : DsendF) (key : Nat) (l : List (List Byte)) :
    s.Sent (s.sendPackets n d f key l) n f.vc (s.sendMsgs n d f key l) := by
  obtain ⟨u, hu, hfold⟩ := State.foldl_routed (s := s.numbered n f.vc l.length) (n := n) (d := d) h (sendMsg n d f key)
    (((s.packets n f.vc n d [] l).zip l).zip (upFrom 0 l.length))
  have hs : s.sendPackets n d f key l = { u with flight := { s.flight with sends := s.flight.sends ++ s.sendMsgs n d f key l } } := hfold
  rw [hs]
  refine ⟨?_, ?_, ?_⟩
  · rw [hu]
    rfl
  · unfold State.onlyTraffic
    rw [hu]
    rfl
  · show Tab.get 0 u.fabric.seqNo _ = _
    rw [hu, State.length_sendMsgs]
    show Tab.get 0 (Tab.upd 0 s.fabric.seqNo _ (fun q => (q + l.length) % 1024)) _ = _
    rw [Tab.get_upd_self]

/-- A count of the fabric before the packets leave. -/
theorem State.fabricCounted.sent {s t u : State} {n vc : Nat} {ms : List SendMsg} (h : s.fabricCounted t) (g : t.Sent u n vc ms) :
    s.Sent u n vc ms := by
  unfold State.fabricCounted at h
  refine ⟨?_, ?_, ?_⟩
  · have := g.only
    rw [h] at this
    exact this
  · have := g.traffic
    unfold State.onlyTraffic at *
    rw [h] at this
    exact this
  · have := g.seqNo
    rw [h] at this
    exact this

/-- The data of a DSEND to one core leaves. -/
theorem State.sent_sendData {s : State} {n : Nat} {w : InstrWord} (hk : (dsendF w).dkind = 0) (h : s.dropAt n (s.phys (dsendF w).dest) = none)
    (key : Nat) : s.Sent (s.sendData n w key) n (dsendF w).vc (s.dsendMsgs n w key) := by
  have ht := s.fabricCounted_tableRead (.legend n (dsendF w).dest)
  have hm : ∀ d l, (s.tableRead (.legend n (dsendF w).dest)).sendMsgs n d (dsendF w) key l = s.sendMsgs n d (dsendF w) key l := by
    intro d l
    rw [ht]
    rfl
  have hg := State.sent_sendPackets ((ht.dropAt n _).trans h) (dsendF w) key
    (packetData (Memory.readN (s.core n).act (dsendF w).src (dsendF w).len))
  rw [hm] at hg
  simp only [State.sendData, State.sendTargets, hk, if_true, List.foldl_cons, List.foldl_nil]
  exact ht.sent hg

/-! ### Credits on VC4 (R111) -/

theorem State.onlyCore.vc4Full {s t : State} {n : Nat} (h : s.onlyCore t n) (m : Nat) (w : InstrWord) : t.vc4Full m w = s.vc4Full m w := by
  rw [h.1]
  rfl

/-- The state in which an operation runs that has waited for credits alone: core `n` has nothing that waits for them. -/
def State.noVc4 (s : State) (n : Nat) (x : VcWait) : State :=
  (s.updCore n (fun c => { c with vc4 := c.vc4 ++ [x] })).updCore n (fun c => { c with vc4 := [] })

theorem State.core_noVc4 (s : State) (n : Nat) (x : VcWait) : (s.noVc4 n x).core n = { s.core n with vc4 := [] } := by
  rw [State.noVc4, State.core_updCore, State.core_updCore]

theorem State.onlyCore_noVc4 (s : State) (n : Nat) (x : VcWait) : s.onlyCore (s.noVc4 n x) n := ((s.onlyCore_refl n).updCore _).updCore _

/-- An operation that finds credits, and none before it that waits for them, goes at once. -/
theorem State.waitVc4_of_credits {s : State} {n : Nat} {x : VcWait} (h : (s.core n).vc4 = []) (hf : s.vc4Full n x.word = false) :
    s.waitVc4 n x = if opcodeOf x.word = 0x43 then (s.noVc4 n x).exitNow n x
      else ((s.noVc4 n x).sendData n x.word x.key).finishOp n .dispatch x.key := by
  have hw : (s.updCore n (fun c => { c with vc4 := c.vc4 ++ [x] })).vc4Full n x.word = false :=
    (((s.onlyCore_refl n).updCore _).vc4Full n x.word).trans hf
  simp only [State.waitVc4, State.core_updCore, h, List.nil_append, List.length_singleton, State.runVc4, hw, Bool.false_eq_true, if_false]
  rfl

/-! ### A DSEND to one core -/

/-- Packets leave between two updates of the core that sends them. -/
theorem State.Sent.between {s b u t : State} {n vc : Nat} {ms : List SendMsg} (ho : s.onlyCore b n) (g : b.Sent u n vc ms) (hu : u.onlyCore t n) :
    (∀ m, m ≠ n → t.core m = s.core m)
      ∧ t = { s with cores := t.cores, flight := { s.flight with sends := s.flight.sends ++ ms }, fabric := t.fabric } ∧ s.onlyTraffic t
      ∧ Tab.get 0 t.fabric.seqNo (5 * n + vc) = (Tab.get 0 s.fabric.seqNo (5 * n + vc) + ms.length) % 1024 := by
  obtain ⟨hb, hbm⟩ := ho
  obtain ⟨hg, htr, hno⟩ := g
  obtain ⟨ht, htm⟩ := hu
  have hbf : b.fabric = s.fabric := by rw [hb]
  have htf : t.fabric = u.fabric := by rw [ht]
  refine ⟨fun m hm => ?_, ?_, ?_, ?_⟩
  · rw [htm m hm, hg]
    exact hbm m hm
  · rw [ht, hg, hb]
  · rw [State.onlyTraffic, hbf] at htr
    rw [State.onlyTraffic, htf]
    exact htr
  · rw [htf, hno, hbf]

theorem State.dsendMsgs_congr {s b : State} {n : Nat} (ho : s.onlyCore b n) (ha : (b.core n).act = (s.core n).act) (w : InstrWord) (key : Nat) :
    b.dsendMsgs n w key = s.dsendMsgs n w key := by
  rw [State.dsendMsgs, ha, ho.1]
  rfl

theorem CoreSt.queueFrame.onlyIssue {c d : CoreSt} {q : QName} (h : c.queueFrame d q) (hi : d.issueSeq = c.issueSeq + 1) : c.onlyIssue d := by
  unfold CoreSt.onlyIssue
  rw [← hi]
  unfold CoreSt.queueFrame at h
  rw [h]
  cases q <;> rfl

theorem State.get_dsendMsgs {s : State} {n i : Nat} {w : InstrWord} {key : Nat} {m : SendMsg} (h : (s.dsendMsgs n w key)[i]? = some m) :
    m.src = n ∧ m.dst = s.phys (dsendF w).dest ∧ m.vc = (dsendF w).vc ∧ m.dmem = (dsendF w).dmem ∧ m.daddr = (dsendF w).daddr + 8192 * i
      ∧ m.pen = (if i + 1 = (s.dsendMsgs n w key).length then (dsendF w).pen else none) ∧ m.key = key ∧ m.place = .flying
      ∧ m.pkt.seq = (Tab.get 0 s.fabric.seqNo (5 * n + (dsendF w).vc) + i) % 1024 ∧ m.data.length ≤ 8192 := by
  have hlen := s.length_sendMsgs n (s.phys (dsendF w).dest) (dsendF w) key
    (packetData (Memory.readN (s.core n).act (dsendF w).src (dsendF w).len))
  obtain ⟨p, c, hc, rfl, hseq, hlast⟩ := State.get_sendMsgs h
  refine ⟨rfl, rfl, rfl, rfl, rfl, ?_, rfl, rfl, hseq, length_le_of_mem_packetData hc⟩
  rw [State.dsendMsgs, hlen]
  simp only [sendMsg, hlast, decide_eq_true_eq]

theorem Memory.length_readN (m : Memory) (a n : Nat) : (Memory.readN m a n).length = n := by
  induction n generalizing a with
  | zero => rfl
  | succ n ih => rw [Memory.readN, List.length_cons, ih]

/-- The data of a DSEND leaves as it stood at issue, from a core whose activation store has not changed since. -/
theorem State.startDsend_sent {s b : State} {n : Nat} {w : InstrWord} {key : Nat} (ho : s.onlyCore b n) (ha : (b.core n).act = (s.core n).act)
    (hk : (dsendF w).dkind = 0) (h : s.dropAt n (s.phys (dsendF w).dest) = none) :
    b.Sent (b.sendData n w key) n (dsendF w).vc (s.dsendMsgs n w key) := by
  rw [← State.dsendMsgs_congr ho ha]
  refine State.sent_sendData hk ?_ key
  rw [ho.1]
  exact h

/-- A DSEND has issued, and its data leaves: at once, or on VC4 with the credits that it finds. -/
theorem State.ready.dsend {s : State} {n : Nat} {w : InstrWord} (hw : s.atFront n .dispatch = w) (h : s.ready n .dispatch 0x40)
    (hk : (dsendF w).dkind = 0) (hv : (dsendF w).vc = 4 → (s.core n).vc4 = [] ∧ s.vc4Full n w = false)
    (hway : s.dropAt n (s.phys (dsendF w).dest) = none) :
    ∃ b u t, (if (dsendF w).vc = 4 then
          ((s.issued n .dispatch w false).enqueueOp n .dispatch w (s.core n).issueSeq false).waitVc4 n
            { word := w, key := (s.core n).issueSeq, codes := [], seq := 0, tile := 0 }
        else ((s.issued n .dispatch w false).enqueueOp n .dispatch w (s.core n).issueSeq true).sendData n w (s.core n).issueSeq) = t
      ∧ s.onlyCore b n ∧ b.Sent u n (dsendF w).vc (s.dsendMsgs n w (s.core n).issueSeq) ∧ u.onlyCore t n
      ∧ s.tookOp t n .dispatch true ∧ (s.core n).onlyIssue (t.core n) := by
  subst hw
  have hissued := State.onlyCore_issued (s := s) h.lt .dispatch (s.atFront n .dispatch) false
  by_cases h4 : (dsendF (s.atFront n .dispatch)).vc = 4
  · obtain ⟨hvc, hfull⟩ := hv h4
    obtain ⟨c, hcore, hfr, took⟩ := h.enqueued rfl false false
    have hb := hissued.enqueueOp .dispatch (s.atFront n .dispatch) (s.core n).issueSeq false
    obtain ⟨b, hbe⟩ : ∃ b, (s.issued n .dispatch (s.atFront n .dispatch) false).enqueueOp n .dispatch (s.atFront n .dispatch)
      (s.core n).issueSeq false = b := ⟨_, rfl⟩
    rw [hbe] at hcore took hb
    have hcv : { c with vc4 := [] } = c := by
      have hc : c.vc4 = [] := by rw [hfr]; exact hvc
      rw [← hc]
    obtain ⟨x, hx⟩ : ∃ x : VcWait, { word := s.atFront n .dispatch, key := (s.core n).issueSeq, codes := [], seq := 0, tile := 0 } = x := ⟨_, rfl⟩
    have hv : (b.noVc4 n x).core n = c := by rw [State.core_noVc4, hcore, hcv]
    have ho := hb.trans (b.onlyCore_noVc4 n x)
    have hsent := State.startDsend_sent (key := (s.core n).issueSeq) ho (by rw [hv, hfr]; rfl) hk hway
    have hu : ((b.noVc4 n x).sendData n (s.atFront n .dispatch) (s.core n).issueSeq).core n = c := by rw [hsent.only]; exact hv
    obtain ⟨u, hue⟩ : ∃ u, (b.noVc4 n x).sendData n (s.atFront n .dispatch) (s.core n).issueSeq = u := ⟨_, rfl⟩
    rw [hue] at hsent hu
    have ht : (u.finishOp n .dispatch (s.core n).issueSeq).core n
        = c.setQueue .dispatch ((c.queue .dispatch).finish (fun _ => true) (s.core n).issueSeq) := by
      rw [State.finishOp, State.core_updCore, hu]
    refine ⟨b.noVc4 n x, u, u.finishOp n .dispatch (s.core n).issueSeq, ?_, ho, hsent, (u.onlyCore_refl n).updCore _,
      took.finish (fun _ => true) rfl hcore ht (fun _ => rfl) rfl rfl, ?_⟩
    · rw [if_pos h4, hbe, hx, State.waitVc4_of_credits (by rw [hcore, hfr]; exact hvc) (by rw [← hx, hb.vc4Full]; exact hfull), ← hue, ← hx]
      exact if_neg fun e => absurd (h.opcode.symm.trans e) (by decide)
    · have hi := took.1
      rw [hcore] at hi
      rw [ht]
      exact (hfr.onlyIssue hi).setQueue _ _
  · obtain ⟨c, hcore, hfr, took⟩ := h.enqueued rfl false true
    have hb := hissued.enqueueOp .dispatch (s.atFront n .dispatch) (s.core n).issueSeq true
    have hsent := State.startDsend_sent (key := (s.core n).issueSeq) hb (by rw [hcore, hfr]; rfl) hk hway
    obtain ⟨b, hbe⟩ : ∃ b, (s.issued n .dispatch (s.atFront n .dispatch) false).enqueueOp n .dispatch (s.atFront n .dispatch)
      (s.core n).issueSeq true = b := ⟨_, rfl⟩
    rw [hbe] at hcore took hb hsent
    have hu : (b.sendData n (s.atFront n .dispatch) (s.core n).issueSeq).core n = c := by rw [hsent.only]; exact hcore
    refine ⟨b, _, _, by rw [if_neg h4, hbe], hb, hsent, State.onlyCore_refl _ n,
      took.congr (fun p => by rw [hu, hcore]) (by rw [hu, hcore]) (by rw [hu, hcore]), ?_⟩
    have hi := took.1
    rw [hcore] at hi
    rw [hu]
    exact hfr.onlyIssue hi

/-! ### A packet arrives (R93, R291, R381) -/

theorem State.wf_core {s : State} (h : s.memOk) (n : Nat) : (s.core n).memOk := Tab.get_of_forall h.1 ⟨rfl, rfl, rfl⟩ n

theorem CoreSt.writeMem_frame (c : CoreSt) (sb : Bool) (a : Nat) (l : List Byte) :
    c.writeMem sb a l = { c with act := (c.writeMem sb a l).act, sbuf := (c.writeMem sb a l).sbuf, sramErr := (c.writeMem sb a l).sramErr } := by
  cases sb <;> rfl

/-- A write to a core's memory is there, and leaves every other byte. -/
theorem CoreSt.writeMem_reads {c : CoreSt} (h : c.memOk) (sb : Bool) (a : Nat) (l : List Byte) :
    if sb then (c.writeMem sb a l).act = c.act ∧ Memory.readN (c.writeMem sb a l).sbuf a l.length = l
        ∧ Memory.sameOutside c.sbuf (c.writeMem sb a l).sbuf a l.length
      else (c.writeMem sb a l).sbuf = c.sbuf ∧ Memory.readN (c.writeMem sb a l).act a l.length = l
        ∧ Memory.sameOutside c.act (c.writeMem sb a l).act a l.length := by
  obtain ⟨hact, hsbuf, -⟩ := h
  cases sb
  · exact ⟨rfl, Memory.readN_writeN hact a l, fun _ hb => Memory.read_writeN_outside hact l hb⟩
  · exact ⟨rfl, Memory.readN_writeN hsbuf a l, fun _ hb => Memory.read_writeN_outside hsbuf l hb⟩

/-- A packet is written, and makes the raise that it carries. -/
theorem State.writeSend_raised {s : State} {m : SendMsg} (h : ∀ p, m.pen = some p → (s.core m.dst).pennant p < 65535) :
    s.onlyCore (s.writeSend m) m.dst
      ∧ (s.writeSend m).core m.dst = { (s.core m.dst).writeMem m.dmem m.daddr m.data with pen := ((s.writeSend m).core m.dst).pen }
      ∧ ∀ i, ((s.writeSend m).core m.dst).pennant i = (s.core m.dst).pennant i + (if m.pen = some i then 1 else 0) := by
  obtain ⟨u, hu⟩ : ∃ u, s.updCore m.dst (fun c => c.writeMem m.dmem m.daddr m.data) = u := ⟨_, rfl⟩
  have ho : s.onlyCore u m.dst := hu ▸ (s.onlyCore_refl m.dst).updCore _
  have hc : u.core m.dst = (s.core m.dst).writeMem m.dmem m.daddr m.data := by rw [← hu, State.core_updCore]
  have hp : ∀ i, (u.core m.dst).pennant i = (s.core m.dst).pennant i := by
    intro i
    rw [hc, CoreSt.writeMem_frame]
    rfl
  simp only [State.writeSend, hu]
  cases hm : m.pen with
  | none => exact ⟨ho, by rw [hc], fun i => by simp [hp]⟩
  | some p =>
    have hr : u.Raised (u.raise m.dst p 1 none) m.dst p 1 := State.raised_raise (by decide) (by rw [hp]; exact h p hm)
    exact ⟨ho.trans hr.only, by rw [hr.core, hc], fun i => by rw [hr.pen, hp]; simp⟩

theorem refill_of_flying {α : Type} {place : α → PktPlace} {l : List α} (h : ∀ x ∈ l, place x = .flying) (setPlace : PktPlace → α → α)
    (port : α → Bool) (free : Nat) : refill place setPlace port free l = l := by
  induction l with
  | nil => rfl
  | cons x l ih =>
    have hx : place x = .flying := h x (List.mem_cons_self ..)
    simp [refill, hx, ih fun y hy => h y (List.mem_cons_of_mem _ hy)]

/-- Of packets that are all on their way, the oldest of a flow arrives alone. -/
theorem arrive_oldest {α : Type} [BEq α] {place : α → PktPlace} {flow : α → Bool} {l : List α} {x : α} {rest : List α}
    (h : ∀ y ∈ l, place y = .flying) (hf : l.filter flow = x :: rest) (setPlace : PktPlace → α → α) (port : α → Bool) :
    arrive place setPlace flow port 0 l = (l.erase x, [x], false) := by
  have hmem : ∀ y ∈ x :: rest, place y = .flying := fun y hy => h y (List.mem_of_mem_filter (hf ▸ hy))
  have hrest : rest.takeWhile (fun y => place y != .flying) = [] := by
    cases rest with
    | nil => rfl
    | cons y rest => simp [hmem y (by simp)]
  have herase : ∀ y ∈ l.erase x, place y = .flying := fun y hy => h y (List.mem_of_mem_erase hy)
  simp [arrive, hf, hmem x (by simp), hrest, refill_of_flying herase]

end Sys2Proof.Machine
end

section
/-!
Messages (R541, R548, R552 to R554, R564, R592): what the sending of one leaves alone.
-/

namespace Sys2Proof.Machine

/-- Of the module, nothing has changed but the network, what has left it, the log with its copies, and the counts of blocks; no gather has begun
or ended. -/
structure State.Messaged (s t : State) : Prop where
  only : t = { s with net := t.net, out := t.out, log := t.log, host := t.host, fieldNet := t.fieldNet
                      gaz := { s.gaz with blocks := t.gaz.blocks } }
  gathers : t.net.gathers = s.net.gathers

namespace State.Messaged

variable {s t u : State}

theorem refl (s : State) : s.Messaged s := ⟨rfl, rfl⟩

theorem trans (h : s.Messaged t) (g : t.Messaged u) : s.Messaged u := by
  refine ⟨?_, g.gathers.trans h.gathers⟩
  have hg := g.only
  rw [h.only] at hg
  exact hg

theorem foldl {α : Type} {f : State → α → State} (h : ∀ (t : State) x, t.Messaged (f t x)) (l : List α) (s : State) :
    s.Messaged (l.foldl f s) := by
  induction l generalizing s with
  | nil => exact refl s
  | cons x l ih => exact (h s x).trans (ih _)

end State.Messaged

/-! ### An information event -/

theorem State.vector_frame (s : State) (v : Nat) : s.vector v = { s with host := (s.vector v).host, out := (s.vector v).out } := by
  unfold State.vector
  split
  · rfl
  · split <;> rfl

theorem State.messaged_copyEvents (s : State) (n : Nat) : s.Messaged (s.copyEvents n) := by
  induction n generalizing s with
  | zero => exact .refl s
  | succ n ih =>
    unfold State.copyEvents
    dsimp only
    split
    · split
      · exact .refl s
      · refine .trans ?_ (ih _)
        rw [State.vector_frame]
        exact ⟨rfl, rfl⟩
    · exact .refl s

theorem State.messaged_info (s : State) (name : String) (i : List Nat) : s.Messaged (s.info name i) := by
  unfold State.info State.event
  refine .trans ?_ (State.messaged_copyEvents _ _)
  exact ⟨rfl, rfl⟩

/-! ### A message -/

theorem State.messaged_resolve (s : State) (i : Nat) : s.Messaged (s.resolve i) := by
  unfold State.resolve
  split <;> exact ⟨rfl, rfl⟩

theorem State.messaged_netCount (s : State) (i : Nat) (f : NetCounts → NetCounts) : s.Messaged (s.netCount i f) := by
  unfold State.netCount
  split <;> exact ⟨rfl, rfl⟩

theorem State.messaged_frameBytes (s : State) (i direction payload : Nat) : s.Messaged (s.frameBytes i direction payload) := by
  unfold State.frameBytes
  split
  · exact .refl s
  · obtain ⟨x, hx⟩ := s.count_blocks (b := blkPort (i / 2)) (by simp only [blkPort]; omega) evBYTES (2 ^ (i % 2) + direction) 1 (payload + 106)
    rw [hx]
    exact ⟨rfl, rfl⟩

theorem State.messaged_messageOn (s : State) (p : PeerSt) (i : Nat) (m : Msg) : s.Messaged (s.messageOn p i m) := by
  unfold State.messageOn
  dsimp only
  refine .trans (.trans ?_ (.foldl (fun (t : State) b => t.messaged_frameBytes i 4 (List.length b)) _ _)) ⟨rfl, rfl⟩
  refine .trans ?_ (State.messaged_netCount _ _ _)
  exact (s.messaged_resolve i).trans ⟨rfl, rfl⟩

theorem State.messaged_message (s : State) (dst : Nat) (group port : Option Nat) (m : Msg) : s.Messaged (s.message dst group port m) := by
  unfold State.message
  split
  · exact s.messaged_info _ _
  · dsimp only
    split
    · exact s.messaged_info _ _
    · split
      · exact .refl s
      · split
        · exact ⟨rfl, rfl⟩
        · exact s.messaged_messageOn _ _ _

end Sys2Proof.Machine
end

section
/-!
Tagged receives (R295, R563): the source of the DRECV in front is asked, which stands in the way of no issue, and the DRECV waits.
-/

namespace Sys2Proof.Machine

/-- The source of the tagged message that core `n` needs has been asked, and nothing else of the cores has changed. -/
structure State.Asked (s a : State) (n : Nat) : Prop where
  only : a = { s with cores := a.cores, net := a.net, out := a.out, log := a.log, host := a.host, fieldNet := a.fieldNet
                      gaz := { s.gaz with blocks := a.gaz.blocks } }
  others : ∀ m, m ≠ n → a.core m = s.core m
  core : a.core n = { s.core n with recvAsked := true }

/-- The request for a tagged message. -/
def State.recvGather (s : State) (n tag : Nat) (e : RecvEntry) : OutGather :=
  { g := { kind := 5, aux := e.ready, tag := tag, layer := e.region, step := s.stepCurrent, first := e.offset, count := e.len },
    holder := e.source, rest := [], use := .recv n tag }

/-- A request is out, before its message leaves. -/
def State.recvOwed (s : State) (n : Nat) (o : OutGather) : State :=
  { s.updCore n (fun c => { c with recvAsked := true }) with net := { s.net with gathers := s.net.gathers ++ [o] } }

theorem State.asked_recvOwed (s : State) (n : Nat) (o : OutGather) : s.Asked (s.recvOwed n o) n where
  only := rfl
  others := fun _ hm => s.core_updCore_other (fun c => { c with recvAsked := true }) hm
  core := s.core_updCore n (fun c => { c with recvAsked := true })

theorem State.Asked.messaged {s a b : State} {n : Nat} (h : s.Asked a n) (g : a.Messaged b) : s.Asked b n := by
  have hc : ∀ m, b.core m = a.core m := fun m => by rw [g.only]; rfl
  exact ⟨by rw [g.only, h.only], fun m hm => (hc m).trans (h.others m hm), (hc n).trans h.core⟩

theorem State.askTagged_eq {s : State} {n : Nat} {w : InstrWord} {e : RecvEntry} (h : s.recvEntry n (drecvF w).tag = some e) :
    s.askTagged n w = (s.recvOwed n (s.recvGather n (drecvF w).tag e)).message e.source none none
      (.gatherReq (s.recvGather n (drecvF w).tag e).g) := by
  simp only [State.askTagged, h]
  rfl

namespace State.Asked

variable {s a : State} {n : Nat}

theorem queue (h : s.Asked a n) (q : QName) : (a.core n).queue q = (s.core n).queue q := by
  rw [h.core]
  cases q <;> rfl

theorem fetch (h : s.Asked a n) (q : QName) : (a.core n).fetch q = (s.core n).fetch q := by
  rw [h.core]
  cases q <;> rfl

theorem codeRange (h : s.Asked a n) (htab : Nat) : a.codeRange n htab = s.codeRange n htab := by
  unfold State.codeRange
  dsimp only
  rw [h.core, h.only]
  rfl

theorem codesMissing (h : s.Asked a n) (w : InstrWord) : Machine.codesMissing n a (a.core n) w = Machine.codesMissing n s (s.core n) w := by
  unfold Machine.codesMissing
  rw [h.codeRange, h.core, h.only]
  rfl

theorem dexitPlanCauses (h : s.Asked a n) (w : InstrWord) :
    Machine.dexitPlanCauses n a (a.core n) w = Machine.dexitPlanCauses n s (s.core n) w := by
  unfold Machine.dexitPlanCauses
  simp only [h.codeRange]
  rw [h.core, h.only]
  rfl

theorem causes (h : s.Asked a n) {q : QName} (hq : q ≠ .plotter) (w : InstrWord) : a.causes n q w = s.causes n q w := by
  unfold State.causes
  simp only [CoreSt.viewOf_program _ hq, h.queue, h.dexitPlanCauses]
  rw [h.core, h.only]
  rfl

theorem ordered (h : s.Asked a n) (q : QName) (w : InstrWord) : a.ordered n q w = s.ordered n q w := by
  unfold State.ordered
  simp only [h.codesMissing, fenceReady, h.queue]
  rw [h.core]
  rfl

theorem stalled (h : s.Asked a n) {w : InstrWord} (hw : opcodeOf w ≠ 0x41 ∧ opcodeOf w ≠ 0x42) : a.stalled n w = s.stalled n w := by
  have hr : a.remoteOut n = s.remoteOut n := by
    unfold State.remoteOut
    dsimp only
    rw [h.core, h.only]
  unfold State.stalled
  rw [hr]
  split
  · rfl
  · exact absurd ‹_› hw.1
  · exact absurd ‹_› hw.2
  · rfl

/-- A DSTORE or DLOAD stands in front of no queue before Dispatch without a trap of its own, so no bound of a stack stalls those. -/
theorem stalled_of_queue (h : s.Asked a n) {q : QName} (hq : q ≠ .dispatch) (w : InstrWord) :
    (!wrongQueue (opcodeOf w) q && a.stalled n w) = (!wrongQueue (opcodeOf w) q && s.stalled n w) := by
  by_cases hw : opcodeOf w ≠ 0x41 ∧ opcodeOf w ≠ 0x42
  · rw [h.stalled hw]
  · have wrong : ∀ op, op = 0x41 ∨ op = 0x42 → wrongQueue op q = true := by
      rintro op (rfl | rfl) <;> revert hq <;> cases q <;> decide
    rw [wrong _ (by omega)]
    rfl

theorem standAlone (h : s.Asked a n) {q : QName} (hp : q ≠ .plotter) (hq : q ≠ .dispatch) : a.standAlone n q = s.standAlone n q := by
  have hpen : ∀ i, (a.core n).pennantOf q i = (s.core n).pennantOf q i := fun i => by rw [h.core]; rfl
  have hst : (a.core n).stopped = (s.core n).stopped := by rw [h.core]
  unfold State.standAlone
  simp only [h.queue, h.fetch, h.codesMissing, h.ordered, h.causes hp, h.stalled_of_queue hq, hpen, hst]

theorem outranked (h : s.Asked a n) : a.outranked n .dispatch = s.outranked n .dispatch := by
  have hc : ∀ q i, (a.core n).consumes q i = (s.core n).consumes q i := fun q i => by rw [CoreSt.consumes, h.fetch, CoreSt.consumes]
  have hb : queuesBefore .dispatch = [.fetch, .array, .vector] := rfl
  simp only [State.outranked, hb, List.any_cons, List.any_nil, h.fetch, hc, h.standAlone (q := .fetch) (by decide) (by decide),
    h.standAlone (q := .array) (by decide) (by decide), h.standAlone (q := .vector) (by decide) (by decide)]

theorem atFront (h : s.Asked a n) (q : QName) : a.atFront n q = s.atFront n q := h.fetch q

/-- A DRECV that can issue can issue once its source has been asked. -/
theorem ready (h : s.Asked a n) {op : Nat} (hop : op ≠ 0x41 ∧ op ≠ 0x42) (hr : s.ready n .dispatch op) : a.ready n .dispatch op := by
  obtain ⟨⟨hn, hstop, hidle, hhalt, htrap, hpc⟩, hopc, hlist, hwrong, ⟨hpen, hslot⟩, hplot, hout, hstall, hsram⟩ := hr
  have hp : ∀ i, (a.core n).pennant i = (s.core n).pennant i := fun i => by rw [h.core]; rfl
  refine ⟨⟨hn, ?_, ?_, ?_, ?_, ?_⟩, ?_, hlist, hwrong, ⟨?_, ?_⟩, hplot, ?_, ?_, ?_⟩
  · rw [h.core]; exact hstop
  · rwa [h.queue]
  · rwa [h.queue]
  · rwa [h.queue]
  · rwa [h.queue]
  · rwa [h.atFront]
  · rwa [h.atFront, hp]
  · rwa [h.atFront, h.queue]
  · rwa [h.outranked]
  · rw [h.atFront, h.stalled (by rwa [hopc])]; exact hstall
  · rw [h.core]; exact hsram

theorem tookOp (h : s.Asked a n) {t : State} {q : QName} {fin : Bool} (ht : a.tookOp t n q fin) : s.tookOp t n q fin := by
  have hi : (a.core n).issueSeq = (s.core n).issueSeq := by rw [h.core]
  have hw : ∀ w i, (a.core n).waited w i = (s.core n).waited w i := fun w i => by rw [h.core]; rfl
  unfold State.tookOp CoreSt.otherQueues at ht ⊢
  simp only [h.queue, h.atFront, hi, hw] at ht
  exact ht

end State.Asked

/-! ### The DRECV itself -/

/-- The receive of a DRECV that waits. -/
def recvWait (w : InstrWord) (key : Nat) : RecvWait :=
  { tag := (drecvF w).tag, dmem := (drecvF w).dmem, daddr := (drecvF w).daddr, len := (drecvF w).len, key := key }

/-- A DRECV whose message has not come waits for it. -/
theorem State.startDrecv_waits {s : State} {n key : Nat} {q : QName} {w : InstrWord}
    (h : ((s.enqueueOp n q w key false).core n).recvHeld.find? (fun x => x.1 = (drecvF w).tag) = none) :
    s.startDrecv n q w key
      = (s.enqueueOp n q w key false).updCore n (fun c => { c with recvs := c.recvs ++ [recvWait w key], recvAsked := false }) := by
  simp only [State.startDrecv, State.core_updCore, h]
  rfl

/-- A DRECV that can issue is the next instruction of its queue. -/
theorem State.ready.recvNext {s : State} {n : Nat} (h : s.ready n .dispatch 0x44) : s.recvNext n = !(s.core n).recvAsked := by
  obtain ⟨⟨-, hstop, hidle, hhalt, htrap, hpc⟩, hopc, -⟩ := h
  have hidle' : (s.core n).dq.st ≠ .idle := hidle
  have hhalt' : (s.core n).dq.st ≠ .halted := hhalt
  have htrap' : (s.core n).dq.st ≠ .trapped := htrap
  have hpc' : (s.core n).dq.pc < (s.core n).dq.qlen := hpc
  have hopc' : opcodeOf ((s.core n).fetch .dispatch) = 0x44 := hopc
  simp [State.recvNext, hstop, hidle', hhalt', htrap', hpc', hopc']

/-- DRECV asks for its message before it issues, unless that has been done. -/
theorem State.ready.asked {s : State} {n : Nat} {e : RecvEntry} (h : s.ready n .dispatch 0x44)
    (he : s.recvEntry n (drecvF (s.atFront n .dispatch)).tag = some e) :
    ∃ a, (if n < numCores && QName.dispatch = .dispatch && s.recvNext n then s.askTagged n ((s.core n).fetch .dispatch) else s) = a ∧ s.Asked a n
      ∧ a.net.gathers = s.net.gathers ++ (if (s.core n).recvAsked then [] else [s.recvGather n (drecvF (s.atFront n .dispatch)).tag e]) := by
  refine ⟨_, rfl, ?_⟩
  rw [h.recvNext]
  cases hasked : (s.core n).recvAsked with
  | true =>
    simp only [Bool.not_true, Bool.and_false, Bool.false_eq_true, if_false, if_true, List.append_nil, and_true]
    exact ⟨rfl, fun _ _ => rfl, by rw [← hasked]⟩
  | false =>
    have hm := State.messaged_message (s.recvOwed n (s.recvGather n (drecvF (s.atFront n .dispatch)).tag e)) e.source none none
      (.gatherReq (s.recvGather n (drecvF (s.atFront n .dispatch)).tag e).g)
    rw [← State.askTagged_eq he] at hm
    simp only [decide_eq_true h.lt, Bool.not_false, Bool.and_true, decide_true, if_true, Bool.false_eq_true, if_false]
    exact ⟨(s.asked_recvOwed n _).messaged hm, hm.gathers⟩

/-- A DRECV asks for its message and waits. -/
theorem exec_drecv {s : State} {n : Nat} {e : RecvEntry} (hqu : s.quiet) (h : s.ready n .dispatch 0x44)
    (hc : noTrap (drecvCauses n s (s.core n) (s.atFront n .dispatch))) (he : s.recvEntry n (drecvF (s.atFront n .dispatch)).tag = some e)
    (hheld : (s.core n).recvHeld.find? (fun x => x.1 = (drecvF (s.atFront n .dispatch)).tag) = none) :
    ∃ a t, exec (.drecv n .dispatch) s = .next t ∧ s.Asked a n ∧ a.onlyCore t n ∧ s.tookOp t n .dispatch false
      ∧ (t.core n).recvs = (s.core n).recvs ++ [recvWait (s.atFront n .dispatch) (s.core n).issueSeq] ∧ (t.core n).recvAsked = false
      ∧ a.net.gathers = s.net.gathers ++ (if (s.core n).recvAsked then [] else [s.recvGather n (drecvF (s.atFront n .dispatch)).tag e]) := by
  obtain ⟨a, ha, hA, hg⟩ := h.asked he
  have hr : a.ready n .dispatch 0x44 := hA.ready (by decide) h
  have hf := hA.atFront .dispatch
  have hseq : (a.core n).issueSeq = (s.core n).issueSeq := by rw [hA.core]
  have haq : a.quiet := by rw [hA.only]; exact hqu
  obtain ⟨c, hcore, hfr, took⟩ := hr.enqueued rfl false false
  have hissued := State.onlyCore_issued (s := a) hr.lt .dispatch (a.atFront n .dispatch) false
  obtain ⟨b, hb⟩ : ∃ b, (a.issued n .dispatch (a.atFront n .dispatch) false).enqueueOp n .dispatch (a.atFront n .dispatch)
    (a.core n).issueSeq false = b := ⟨_, rfl⟩
  have hbo : a.onlyCore b n := hb ▸ hissued.enqueueOp _ _ _ _
  have hno : (b.core n).recvHeld.find? (fun x => x.1 = (drecvF (a.atFront n .dispatch)).tag) = none := by
    rw [← hb, hcore, hfr, hA.core, hf]
    exact hheld
  have hstart := State.startDrecv_waits (s := a.issued n .dispatch (a.atFront n .dispatch) false) (key := (a.core n).issueSeq) (q := .dispatch)
    (by rw [hb]; exact hno)
  rw [hb] at hstart hcore took
  obtain ⟨t, ht⟩ : ∃ t, b.updCore n (fun c =>
    { c with recvs := c.recvs ++ [recvWait (a.atFront n .dispatch) (a.core n).issueSeq], recvAsked := false }) = t := ⟨_, rfl⟩
  rw [ht] at hstart
  have hto : a.onlyCore t n := ht ▸ hbo.updCore _
  have htc : t.core n = { c with recvs := c.recvs ++ [recvWait (a.atFront n .dispatch) (a.core n).issueSeq], recvAsked := false } := by
    rw [← ht, State.core_updCore, hcore]
  have hcr : c.recvs = (s.core n).recvs := by rw [hfr, hA.core]; rfl
  refine ⟨a, t, ?_, hA, hto, hA.tookOp (took.congr (fun p => ?_) ?_ ?_), ?_, by rw [htc], hg⟩
  · have hi := issue_next (draws := never) (eff := fun t w k => t.startDrecv n .dispatch w k) haq hr
      (by rw [hf, hA.causes (by decide)]; simpa [State.causes, h.opcode, CoreSt.viewOf_program] using hc) (by simp [State.ordered, hr.opcode])
      (by simp only [never, hstart]; exact hto.job)
    rw [show exec (.drecv n .dispatch) s = issue a n .dispatch 0x44 never (fun t w k => t.startDrecv n .dispatch w k) by rw [← ha]; rfl, hi]
    simp only [never, hstart]
  · rw [htc, hcore]
    cases p <;> rfl
  · rw [htc, hcore]
  · rw [htc, hcore]
  · rw [htc, hcr, hf, hseq]

end Sys2Proof.Machine
end

section
/-!
Transfers between cores (O11).
-/

namespace Sys2Proof.Machine

/-- A packet has come to the end of its way; the counts of blocks are `x`. -/
def State.landedSend (s : State) (m : SendMsg) (x : Tab BlockCounts) : State :=
  { s with flight := { s.flight with sends := s.flight.sends.erase m }, gaz := { s.gaz with blocks := x } }

/-- The oldest packet of a flow arrives, when none of the module's packets has arrived early. -/
theorem exec_dsendArrival {s : State} {src dst vc : Nat} {m : SendMsg} {rest : List SendMsg} (hqu : s.quiet) (hs : src < numCores)
    (hd : dst < numCores) (hm : s.flight.sendsOf src dst vc = m :: rest) (hfly : ∀ x ∈ s.flight.sends, x.place = .flying)
    (hfs : s.coreStateOf src ≠ .fenced) (hfd : s.coreStateOf dst ≠ .fenced) (hp : ∀ p, m.pen = some p → (s.core m.dst).pennant p < 65535) :
    ∃ x, exec (.dsendArrival src ⟨dst, 0⟩ vc) s = .next ((s.landedSend m x).writeSend m) := by
  have harr := arrive_oldest (place := SendMsg.place) hfly hm (fun p (m : SendMsg) => { m with place := p }) (fun m => m.dst = dst && m.vc = vc)
  obtain ⟨x, hx⟩ : ∃ x, State.landed { s with flight := { s.flight with sends := s.flight.sends.erase m } } [m.pkt] = s.landedSend m x :=
    State.landed_blocks _ _
  obtain ⟨ho, -⟩ := State.writeSend_raised (s := s.landedSend m x) hp
  refine ⟨x, ?_⟩
  rw [← done_of_job_eq hqu ho.job]
  show execDsendArrival src ⟨dst, 0⟩ vc s = _
  simp only [execDsendArrival, withCore, hs, hd, if_true, harr, State.reorderWait, Bool.false_eq_true, if_false, List.map_cons, List.map_nil,
    hfs, hfd, decide_false, Bool.or_self, List.foldl_cons, List.foldl_nil]
  rw [hx]

theorem FlightSt.dst_of_sendsOf {f : FlightSt} {src dst vc : Nat} {m : SendMsg} (h : m ∈ f.sendsOf src dst vc) : m.dst = dst := by
  simp only [FlightSt.sendsOf, List.mem_filter, Bool.and_eq_true, decide_eq_true_eq] at h
  exact h.2.1.2

/-- Settles O11: a DSEND's packets leave (`State.ready.dsend`), one arrives (`exec_dsendArrival`), and a DRECV waits (`exec_drecv`). -/
theorem coresSendAndReceive : Obligations.CoresSendAndReceive := by
  refine ⟨fun s hqu hmem => ⟨?_, ?_⟩, ?_⟩
  · rintro n w f rfl rfl h hc hk hv hway
    obtain ⟨b, u, t, ht, hb, hsent, hu, took, hi⟩ := State.ready.dsend rfl h hk hv hway
    obtain ⟨hother, honly, htraffic, hseq⟩ := State.Sent.between hb hsent hu
    refine ⟨t, _, ?_, took, hi, hother, honly, htraffic, ?_, ?_, fun i m hm => State.get_dsendMsgs hm, hseq⟩
    · have hj : t.job = s.job := by rw [honly]
      rw [← ht]
      exact issue_next (draws := never) (eff := fun t w k => if (dsendF w).vc = 4 then
          (t.enqueueOp n .dispatch w k false).waitVc4 n { word := w, key := k, codes := [], seq := 0, tile := 0 }
        else (t.enqueueOp n .dispatch w k true).sendData n w k) hqu h
        (by simpa [State.causes, h.opcode] using hc) (by simp [State.ordered, h.opcode]) (by rw [← hj, ← ht]; rfl)
    · rw [State.dsendMsgs, State.data_sendMsgs, packetData_flatten]
    · rw [State.dsendMsgs, State.length_sendMsgs, length_packetData, Memory.length_readN]
  · intro src dst vc m rest hs hd hm hfly hfs hfd hp
    obtain rfl : m.dst = dst := FlightSt.dst_of_sendsOf (hm ▸ List.mem_cons_self ..)
    obtain ⟨x, hex⟩ := exec_dsendArrival hqu hs hd hm hfly hfs hfd hp
    obtain ⟨ho, hc, hpen⟩ := State.writeSend_raised (s := s.landedSend m x) hp
    obtain ⟨t, ht⟩ : ∃ t, (s.landedSend m x).writeSend m = t := ⟨_, rfl⟩
    rw [ht] at hex ho hc hpen
    have hw : (s.landedSend m x).core m.dst = s.core m.dst := rfl
    rw [hw] at hc
    refine ⟨t, hex, ?_, ho.2, ?_, ?_, hpen⟩
    · rw [ho.1]
      rfl
    · rw [hc, CoreSt.writeMem_frame]
    · have hr := CoreSt.writeMem_reads (State.wf_core hmem m.dst) m.dmem m.daddr m.data
      rw [hc]
      exact hr
  · rintro s n w f e hqu rfl rfl h hc he hheld
    obtain ⟨a, t, hex, hA, hto, took, hrecvs, hasked, hg⟩ := exec_drecv hqu h hc he hheld
    refine ⟨t, hex, took, fun m hm => (hto.2 m hm).trans (hA.others m hm), hrecvs, hasked, ?_, ?_⟩
    · rw [hto.1]; exact hg
    · rw [hto.1, hA.only]

end Sys2Proof.Machine
end

section
/-!
The way of packets to a station (R382, R383, R386), and what a core's own work leaves alone while its packets leave.
-/

namespace Sys2Proof.Machine

/-- Nothing has changed but core `n`, and of the fabric its traffic. -/
structure State.CoreAndTraffic (s t : State) (n : Nat) : Prop where
  only : t = { s with cores := t.cores, fabric := { s.fabric with
    seqNo := t.fabric.seqNo, counts := t.fabric.counts, tablesFixed := t.fabric.tablesFixed, band := t.fabric.band } }
  others : ∀ m, m ≠ n → t.core m = s.core m

namespace State.CoreAndTraffic

variable {s t u : State} {n : Nat}

theorem refl (s : State) (n : Nat) : s.CoreAndTraffic s n := ⟨rfl, fun _ _ => rfl⟩

theorem trans (h : s.CoreAndTraffic t n) (g : t.CoreAndTraffic u n) : s.CoreAndTraffic u n := by
  refine ⟨?_, fun m hm => (g.others m hm).trans (h.others m hm)⟩
  have hg := g.only
  rw [h.only] at hg
  exact hg

theorem of_onlyCore (h : s.onlyCore t n) : s.CoreAndTraffic t n := ⟨by rw [h.1], h.2⟩

theorem of_fabricCounted (h : s.fabricCounted t) : s.CoreAndTraffic t n := by
  unfold State.fabricCounted at h
  exact ⟨by rw [h], fun m _ => by rw [h]; rfl⟩

theorem updCore (h : s.CoreAndTraffic t n) (f : CoreSt → CoreSt) : s.CoreAndTraffic (t.updCore n f) n :=
  h.trans (of_onlyCore ((t.onlyCore_refl n).updCore f))

theorem entryOf (h : s.CoreAndTraffic t n) (m htab : Nat) : t.entryOf m htab = s.entryOf m htab := by
  rw [h.only]
  rfl

theorem dexitDest (h : s.CoreAndTraffic t n) (m : Nat) (f : DexitF) (e : HalEntry) (tile : Nat) : t.dexitDest m f e tile = s.dexitDest m f e tile := by
  rw [h.only]
  rfl

theorem reachesDest (h : s.CoreAndTraffic t n) {m : Nat} {d : ContribDest} (hd : s.reachesDest m d) : t.reachesDest m d := by
  rw [h.only]
  exact hd

theorem vc4Full (h : s.CoreAndTraffic t n) (m : Nat) (w : InstrWord) : t.vc4Full m w = s.vc4Full m w := by
  rw [h.only]
  rfl

theorem entryFaulty (h : s.CoreAndTraffic t n) (e : HalEntry) : t.entryFaulty e = s.entryFaulty e := by
  rw [h.only]
  rfl

end State.CoreAndTraffic

/-! ### To a station (R382, R383) -/

theorem State.coreAndTraffic_toStation (s : State) (n m count : Nat) : s.CoreAndTraffic (s.toStation m count) n := by
  unfold State.toStation
  split
  · exact ⟨rfl, fun _ _ => rfl⟩
  · exact .refl s n

theorem State.cores_toStation (s : State) (m count : Nat) : (s.toStation m count).cores = s.cores := by
  unfold State.toStation
  split <;> rfl

/-- Packets with a way to a station go it. -/
theorem State.toTarget_of_way {s : State} {n t vc : Nat} (h : s.reachesTarget n t vc) (count : Nat)
    (go : Nat → List (Nat × Nat) → State → State) :
    ∃ dst track u, s.CoreAndTraffic u n ∧ u.cores = s.cores ∧ s.toTarget n t vc count go = go dst track u := by
  obtain ⟨hentry, htrack, hcarries, hdrop⟩ := h
  obtain ⟨track, htr⟩ := Option.isSome_iff_exists.1 htrack
  have hr := s.fabricCounted_tableRead (.target n t)
  obtain ⟨u, hu⟩ : ∃ u, s.tableRead (.target n t) = u := ⟨_, rfl⟩
  rw [hu] at hr
  have hw : Tab.get noTarget u.fabric.routing.target (48 * n + t) = Tab.get noTarget s.fabric.routing.target (48 * n + t) := by rw [hr]
  have hsd : u.segmentDown = s.segmentDown := by rw [hr]; rfl
  obtain ⟨a, ha⟩ : ∃ a, targetAttach (Tab.get noTarget s.fabric.routing.target (48 * n + t)) = a := ⟨_, rfl⟩
  rw [ha] at hdrop
  refine ⟨a, track, (u.passes n a).toStation a count, ?_, ?_, ?_⟩
  · exact ((State.CoreAndTraffic.of_fabricCounted hr).trans (.of_fabricCounted (u.fabricCounted_passes n a))).trans
      (State.coreAndTraffic_toStation _ n a count)
  · rw [State.cores_toStation, u.fabricCounted_passes n a, hr]
  · simp only [State.toTarget, hu, hw, hsd, ge_iff_le, Nat.not_le.2 hentry, if_false, htr, hcarries, Bool.not_true, Bool.and_false, ha,
      Bool.false_eq_true]
    exact State.routed_of_way ((hr.dropAt n a).trans hdrop) count _

end Sys2Proof.Machine
end

section
/-!
DEXIT (R230 to R237, R294, R439, R442, R446, R447): Dispatch takes its codes, and its blocks leave for their destination.
-/

namespace Sys2Proof.Machine

/-! ### The codes (R446) -/

/-- Dispatch takes the codes of the DEXIT in front of it. -/
theorem exec_dexitCodesReady {s : State} {n k a len : Nat} (hqu : s.quiet) (hn : n < numCores) (hst : (s.core n).dq.st ≠ .idle)
    (hpc : (s.core n).dq.pc < (s.core n).dq.qlen) (hop : opcodeOf (s.atFront n .dispatch) = 0x43) (hcodes : (s.core n).codes = none)
    (hr : s.codeRange n (dexitF (s.atFront n .dispatch)).htab = some (k, a, len)) (hclean : s.clean k) (hfull : s.stackFull k = false) :
    exec (.dexitCodesReady n) s = .next ((((s.linesAt k a len (.dload n)).setStack k (s.stack k)).updCore n
      (fun c => { c with codes := some ((s.readStack k a len).map (fun b => b.toNat)) }))) := by
  obtain ⟨x, hx⟩ := s.linesAt_blocks k a len (.dload n)
  have hop' : opcodeOf ((s.core n).fetch .dispatch) = 0x43 := hop
  have hr' : s.codeRange n (dexitF ((s.core n).fetch .dispatch)).htab = some (k, a, len) := hr
  rw [← done_of_job_eq hqu (by rw [hx]; rfl)]
  show execDexitCodesReady n s = _
  simp only [execDexitCodesReady, withCore, hn, if_true, hst, hop', hcodes, hr', hfull, State.readHbm_clean hclean, decide_false, Bool.false_or,
    ge_iff_le, Nat.not_le.2 hpc, bne_self_eq_false, Option.isSome_none, Bool.false_eq_true, if_false]
  rfl

/-! ### The blocks leave (R345, R359, R442, R447) -/

/-- The message of the blocks of a DEXIT's tile. -/
def State.dexitMsg (s : State) (n htab : Nat) (e : HalEntry) (tile : Nat) (dest : ContribDest) (blocks : List DexBlock)
    (pkts : List Packet) : ContribMsg :=
  { src := n, dest := dest, htab := htab, layer := e.layer, tile := tile, chain := e.chain, step := s.stepCurrent, attempt := s.stepAttempt,
    round := if s.job.calibrating then 0 else 1, m := e.m, n := e.n, blocks := blocks, pkts := pkts }

/-- A message of core `n` is on its way, and nothing else has changed but core `n` and the fabric's traffic. -/
structure State.Contributed (s t : State) (n : Nat) (m : ContribMsg) : Prop where
  only : t = { s with cores := t.cores, flight := { s.flight with contribs := joinContrib m s.flight.contribs }, fabric := t.fabric }
  traffic : s.onlyTraffic t
  others : ∀ k, k ≠ n → t.core k = s.core k

theorem State.CoreAndTraffic.contributed {s t u : State} {n : Nat} {m : ContribMsg} (h : s.CoreAndTraffic t n) (g : t.Contributed u n m) :
    s.Contributed u n m := by
  obtain ⟨honly, htraffic, hothers⟩ := g
  unfold State.onlyTraffic at htraffic
  rw [h.only] at honly htraffic
  exact ⟨honly, htraffic, fun k hk => (hothers k hk).trans (h.others k hk)⟩

theorem State.Contributed.onlyCore {s t u : State} {n : Nat} {m : ContribMsg} (h : s.Contributed t n m) (g : t.onlyCore u n) :
    s.Contributed u n m := by
  obtain ⟨honly, htraffic, hothers⟩ := h
  have hf : u.fabric = t.fabric := by rw [g.1]
  refine ⟨?_, ?_, fun k hk => (g.2 k hk).trans (hothers k hk)⟩
  · rw [g.1, honly]
  · unfold State.onlyTraffic at htraffic ⊢
    rw [hf]
    exact htraffic

/-- The blocks enter the mesh at the core, toward router `dst`. -/
def State.enterBlocks (n htab : Nat) (e : HalEntry) (tile : Nat) (dest : ContribDest) (blocks : List DexBlock) (dst : Nat)
    (track : List (Nat × Nat)) (s : State) : State :=
  let m := s.dexitMsg n htab e tile dest blocks (s.packets n dest.vc n dst track (blocks.map DexBlock.data))
  let t := s.numbered n dest.vc (blocks.map DexBlock.data).length
  { t with flight := { t.flight with contribs := joinContrib m t.flight.contribs } }

/-- The blocks of core `n` have left it: a message of theirs is on its way, and the core has not changed. -/
def State.BlocksLeft (s t : State) (n htab : Nat) (e : HalEntry) (tile : Nat) (dest : ContribDest) (blocks : List DexBlock) : Prop :=
  ∃ pkts, pkts.length = blocks.length ∧ s.Contributed t n (s.dexitMsg n htab e tile dest blocks pkts) ∧ t.cores = s.cores

theorem State.blocksLeft_enterBlocks {s u : State} {n : Nat} (hu : s.CoreAndTraffic u n) (hc : u.cores = s.cores) (htab : Nat) (e : HalEntry)
    (tile : Nat) (dest : ContribDest) (blocks : List DexBlock) (dst : Nat) (track : List (Nat × Nat)) :
    s.BlocksLeft (u.enterBlocks n htab e tile dest blocks dst track) n htab e tile dest blocks := by
  refine ⟨u.packets n dest.vc n dst track (blocks.map DexBlock.data), by rw [length_packets, List.length_map], ?_, hc⟩
  have hm : ∀ p, u.dexitMsg n htab e tile dest blocks p = s.dexitMsg n htab e tile dest blocks p := by
    intro p
    rw [hu.only]
    rfl
  rw [← hm]
  exact hu.contributed ⟨rfl, rfl, fun _ _ => rfl⟩

/-- Blocks with a way to their destination leave. -/
theorem State.blocksLeft_sendBlocks {s : State} {n : Nat} {dest : ContribDest} (h : s.reachesDest n dest) (htab : Nat) (e : HalEntry)
    (tile : Nat) (blocks : List DexBlock) :
    s.BlocksLeft (s.sendBlocks n htab e tile dest blocks) n htab e tile dest blocks := by
  have leavesFor : ∀ t vc, s.reachesTarget n t vc → s.BlocksLeft (s.toTarget n t vc (blocks.map DexBlock.data).length
      (State.enterBlocks n htab e tile dest blocks)) n htab e tile dest blocks := by
    intro t vc ht
    obtain ⟨dst, track, u, hu, hc, hgo⟩ := State.toTarget_of_way ht (blocks.map DexBlock.data).length (State.enterBlocks n htab e tile dest blocks)
    rw [hgo]
    exact State.blocksLeft_enterBlocks hu hc ..
  cases dest with
  | core d =>
    have hp := s.fabricCounted_passes n d
    have hgo := State.routed_of_way h (blocks.map DexBlock.data).length (State.enterBlocks n htab e tile (.core d) blocks d [])
    show s.BlocksLeft (s.routed n d _ (State.enterBlocks n htab e tile (.core d) blocks d [])) ..
    rw [hgo]
    exact State.blocksLeft_enterBlocks (.of_fabricCounted hp) (by rw [hp]) ..
  | unit g => exact leavesFor (44 + g) 4 h
  | ledger k => exact leavesFor k 3 h

/-! ### The conversion (R231 to R237) -/

/-- Lanes that do not draw round alike under every key (R171, R172). -/
theorem LaneRnd.at_of_mode {r r' : LaneRnd} (h : r.mode = r'.mode) (hm : r.mode = 0 ∨ r.mode = 1) : r.at = r'.at := by
  funext lane e row slot
  rcases hm with h0 | h1
  · simp [LaneRnd.at, ← h, h0]
  · simp [LaneRnd.at, ← h, h1]

/-- A block depends on the accumulators of its core and on how its lanes round. -/
theorem dexitBlock_congr {c d : CoreSt} {r r' : LaneRnd} (hc : c.acc = d.acc) (hr : r.at = r'.at) (modes : Nat) (f : DexitF) (eb : Int)
    (words : Bool) (b : Nat) : dexitBlock modes c f r eb words b = dexitBlock modes d f r' eb words b := by
  have hg : c.accGet = d.accGet := by
    funext i j
    rw [CoreSt.accGet, CoreSt.accGet, hc]
  unfold dexitBlock dexitValue
  simp only [hg, hr]

/-- The blocks of a DEXIT's tile, when its lanes draw nothing. -/
def State.dexitBlocks (s : State) (n : Nat) (f : DexitF) (e : HalEntry) (codes : List Nat) : List DexBlock :=
  (upFrom 0 (ceilDiv f.m 8)).map (fun b => (dexitBlock s.fmt.subnormal (s.core n) f
    { mode := f.rmode, bits := rbitsOf s.fmt.randomBits f.rbits, key := s.drawKey n 0 0 }
    (blockExpOf e (e.mu s.halyard.margin) (codes.getD b 0)) (!s.job.calibrating) b).1)

theorem State.length_dexitBlocks (s : State) (n : Nat) (f : DexitF) (e : HalEntry) (codes : List Nat) :
    (s.dexitBlocks n f e codes).length = ceilDiv f.m 8 := by
  rw [State.dexitBlocks, List.length_map, upFrom_length]

theorem State.dexitBlocks_congr {s t : State} {n : Nat} {f : DexitF} (h : s.CoreAndTraffic t n) (hc : (t.core n).acc = (s.core n).acc)
    (hm : f.rmode = 0 ∨ f.rmode = 1) (e : HalEntry) (codes : List Nat) : t.dexitBlocks n f e codes = s.dexitBlocks n f e codes := by
  unfold State.dexitBlocks
  refine List.map_congr_left fun b _ => ?_
  have hr : (t.fmt, t.halyard, t.job) = (s.fmt, s.halyard, s.job) := by rw [h.only]
  obtain ⟨hfmt, hhal, hjob⟩ : t.fmt = s.fmt ∧ t.halyard = s.halyard ∧ t.job = s.job := by simpa using hr
  rw [hfmt, hhal, hjob]
  exact congrArg Prod.fst (dexitBlock_congr hc (by exact LaneRnd.at_of_mode rfl hm) ..)

/-- What the conversion of a tile gives when every row can be read. -/
theorem State.exitBlocks_all (s : State) {n : Nat} {x : VcWait} (hm : (dexitF x.word).rmode = 0 ∨ (dexitF x.word).rmode = 1) (e : HalEntry) :
    ((s.exitBlocks n x e none).1.map (fun y => y.1)).take (s.exitBlocks n x e none).2 = s.dexitBlocks n (dexitF x.word) e x.codes := by
  have hall : (s.exitBlocks n x e none).1.map (fun y => y.1) = s.dexitBlocks n (dexitF x.word) e x.codes := by
    simp only [State.exitBlocks, State.dexitBlocks, List.map_map, ite_self]
    refine List.map_congr_left fun b _ => ?_
    exact congrArg Prod.fst (dexitBlock_congr rfl (by exact LaneRnd.at_of_mode rfl hm) ..)
  rw [hall]
  exact List.take_of_length_le (s.length_dexitBlocks n _ e x.codes).le

theorem State.drew_of_mode (s : State) (n : Nat) {r : LaneRnd} (h : r.mode ≠ 2) (lanes roundings rows : Nat) :
    s.drew n r lanes roundings rows = s := by
  simp [State.drew, h]

/-! ### The exit -/

/-- Of a core nothing has changed but counts and flags of the conversion. -/
def CoreSt.exitFrame (c d : CoreSt) : Prop :=
  d = { c with flush := d.flush, dexitSat := d.dexitSat, dexitNonfinite := d.dexitNonfinite, accCorrected := d.accCorrected
               counters := d.counters, wrapped := d.wrapped }

theorem CoreSt.exitFrame.trans {c d e : CoreSt} (h : c.exitFrame d) (g : d.exitFrame e) : c.exitFrame e := by
  unfold CoreSt.exitFrame at *
  rw [h] at g
  exact g

/-- A DEXIT whose rows can all be read, without an upstream hop, converts its tile, sends its blocks and is finished. -/
theorem State.exitNow_leaves {s : State} {n : Nat} {x : VcWait} {f : DexitF} {e : HalEntry} {dest : ContribDest} (hn : n < numCores)
    (hf : dexitF x.word = f) (hent : s.entryOf n f.htab = some e) (hd : s.dexitDest n f e x.tile = some dest) (hreach : s.reachesDest n dest)
    (hup : e.upstream = false) (hm : f.rmode = 0 ∨ f.rmode = 1)
    (hscan : ((s.core n).accScan f.base (f.m * (if f.efmt = 2 then 2 else 1)) (if f.efmt = 2 then 2 else 1) f.n).2 = none) :
    ∃ u v, s.onlyCore u n ∧ (s.core n).exitFrame (u.core n)
      ∧ u.BlocksLeft v n f.htab e x.tile dest (u.dexitBlocks n f e x.codes) ∧ s.exitNow n x = v.finishOp n .dispatch x.key := by
  subst hf
  have hb : n < 1344 := hn
  unfold State.exitNow
  simp only [hent, hd, hscan, Option.map_none, hup, Bool.false_eq_true, if_false, State.exitBlocks_all _ hm]
  rw [State.drew_of_mode _ _ (by simp only; omega)]
  generalize hs1 : (s.count n evACC_READS 0 1 (dexitF x.word).m).updCore n (fun c => c.addCorrected _) = s1
  generalize hu : s1.updCore n _ = u
  have ho1 : s.onlyCore s1 n := hs1 ▸ ((s.onlyCore_refl n).count hn _ _ _ _).updCore _
  have hc1 : (s.core n).exitFrame (s1.core n) := by
    rw [← hs1, State.core_updCore, State.count_core hb, State.core_updCore]
    rfl
  have ho : s1.onlyCore u n := hu ▸ (s1.onlyCore_refl n).updCore _
  have hc : (s1.core n).exitFrame (u.core n) := by
    rw [← hu, State.core_updCore]
    rfl
  have hb : u.dexitBlocks n (dexitF x.word) e x.codes = s1.dexitBlocks n (dexitF x.word) e x.codes :=
    State.dexitBlocks_congr (.of_onlyCore ho) (by rw [hc]) hm e x.codes
  rw [← hb]
  exact ⟨u, _, ho1.trans ho, hc1.trans hc,
    State.blocksLeft_sendBlocks ((State.CoreAndTraffic.of_onlyCore (ho1.trans ho)).reachesDest hreach) .., rfl⟩

/-- The core of a DEXIT that has issued, `c` with its operation in the queue: the codes are taken, and the tile is counted. -/
def CoreSt.dexitIssued (c : CoreSt) (htab : Nat) : CoreSt :=
  { c with codes := none, dexitCount := Tab.upd 0 c.dexitCount htab (· + 1) }

/-- A DEXIT of a faultless entry that has issued exits, or waits for credits toward its halyard unit. -/
theorem State.startDexit_eq {s : State} {n : Nat} {w : InstrWord} {key : Nat} {e : HalEntry} (hent : s.entryOf n (dexitF w).htab = some e)
    (hfault : s.entryFaulty e = false) :
    ∃ b x, s.CoreAndTraffic b n ∧ b.core n = ((s.enqueueOp n .dispatch w key false).core n).dexitIssued (dexitF w).htab
      ∧ x.word = w ∧ x.key = key ∧ x.codes = (s.core n).codes.getD [] ∧ x.tile = e.tileAt (Tab.get 0 (s.core n).dexitCount (dexitF w).htab)
      ∧ s.startDexit n .dispatch w key = if e.nextKind = 1 then b.waitVc4 n x else b.exitNow n x := by
  generalize ha : (s.enqueueOp n .dispatch w key false).updCore n (fun c => { c with codes := none }) = a
  have hao : s.onlyCore a n := ha ▸ ((s.onlyCore_refl n).enqueueOp _ _ _ _).updCore _
  have hac : a.core n = { (s.enqueueOp n .dispatch w key false).core n with codes := none } := by rw [← ha, State.core_updCore]
  generalize ht : a.tableRead (.halyard n (dexitF w).htab) = t
  have htf : a.fabricCounted t := ht ▸ a.fabricCounted_tableRead _
  have hst : s.CoreAndTraffic t n := (State.CoreAndTraffic.of_onlyCore hao).trans (.of_fabricCounted htf)
  have htc : t.core n = a.core n := by rw [htf]; rfl
  generalize hb : t.updCore n (fun c => { c with dexitCount := Tab.upd 0 c.dexitCount (dexitF w).htab (· + 1) }) = b
  have hsb : s.CoreAndTraffic b n := hb ▸ hst.updCore _
  have hf := hsb.entryFaulty e
  rw [hfault] at hf
  refine ⟨b, { word := w, key := key, codes := (s.core n).codes.getD [], seq := (((b.core n).queue .dispatch).opSeq + 2 ^ 31 - 1) % 2 ^ 31,
               tile := e.tileAt (Tab.get 0 (s.core n).dexitCount (dexitF w).htab) }, hsb, ?_, rfl, rfl, rfl, rfl, ?_⟩
  · rw [← hb, State.core_updCore, htc, hac]
    rfl
  · simp only [State.startDexit, ha, ht, hst.entryOf, hent, hb, hf, Bool.false_eq_true, if_false]

/-- A DEXIT that finds its credits, or needs none, exits at once. -/
theorem State.startDexit_exits {s : State} {n : Nat} {w : InstrWord} {key : Nat} {e : HalEntry} (hop : opcodeOf w = 0x43)
    (hent : s.entryOf n (dexitF w).htab = some e) (hfault : s.entryFaulty e = false)
    (hv : e.nextKind = 1 → (s.core n).vc4 = [] ∧ s.vc4Full n w = false) :
    ∃ b x, s.CoreAndTraffic b n ∧ b.core n = ((s.enqueueOp n .dispatch w key false).core n).dexitIssued (dexitF w).htab
      ∧ x.word = w ∧ x.key = key ∧ x.codes = (s.core n).codes.getD [] ∧ x.tile = e.tileAt (Tab.get 0 (s.core n).dexitCount (dexitF w).htab)
      ∧ s.startDexit n .dispatch w key = b.exitNow n x := by
  obtain ⟨b, x, hsb, hbc, rfl, hkey, hcodes, htile, heq⟩ := State.startDexit_eq (key := key) hent hfault
  by_cases hk : e.nextKind = 1
  · obtain ⟨hvc, hfull⟩ := hv hk
    have hbv : (b.core n).vc4 = [] := by
      rw [hbc, State.core_enqueueOp]
      exact hvc
    refine ⟨b.noVc4 n x, x, hsb.trans (.of_onlyCore (b.onlyCore_noVc4 n x)), ?_, rfl, hkey, hcodes, htile, ?_⟩
    · rw [State.core_noVc4, ← hbv, hbc]
    · rw [heq, if_pos hk, State.waitVc4_of_credits hbv ((hsb.vc4Full n _).trans hfull), if_pos hop]
  · exact ⟨b, x, hsb, hbc, rfl, hkey, hcodes, htile, by rw [heq, if_neg hk]⟩

theorem State.CoreAndTraffic.dexitMsg {s t : State} {n : Nat} (h : s.CoreAndTraffic t n) (htab : Nat) (e : HalEntry) (tile : Nat)
    (dest : ContribDest) (blocks : List DexBlock) (pkts : List Packet) :
    t.dexitMsg n htab e tile dest blocks pkts = s.dexitMsg n htab e tile dest blocks pkts := by
  rw [h.only]
  rfl

/-- A DEXIT without an upstream hop that has issued: its blocks leave, and its operation is finished. -/
theorem State.ready.dexit {s : State} {n : Nat} {f : DexitF} {codes : List Nat} {e : HalEntry} {dest : ContribDest}
    (h : s.ready n .dispatch 0x43) (hf : dexitF (s.atFront n .dispatch) = f) (hcodes : (s.core n).codes = some codes)
    (hent : s.entryOf n f.htab = some e) (hfault : s.entryFaulty e = false) (hup : e.upstream = false) (hm : f.rmode = 0 ∨ f.rmode = 1)
    (hv : e.nextKind = 1 → (s.core n).vc4 = [] ∧ s.vc4Full n (s.atFront n .dispatch) = false)
    (hd : s.dexitDest n f e (e.tileAt (Tab.get 0 (s.core n).dexitCount f.htab)) = some dest) (hreach : s.reachesDest n dest)
    (hscan : ((s.core n).accScan f.base (f.m * (if f.efmt = 2 then 2 else 1)) (if f.efmt = 2 then 2 else 1) f.n).2 = none) :
    ∃ t pkts, (s.issued n .dispatch (s.atFront n .dispatch) false).startDexit n .dispatch (s.atFront n .dispatch) (s.core n).issueSeq = t
      ∧ s.tookOp t n .dispatch true ∧ pkts.length = ceilDiv f.m 8
      ∧ s.Contributed t n (s.dexitMsg n f.htab e (e.tileAt (Tab.get 0 (s.core n).dexitCount f.htab)) dest (s.dexitBlocks n f e codes) pkts)
      ∧ (t.core n).codes = none ∧ (t.core n).act = (s.core n).act ∧ (t.core n).sbuf = (s.core n).sbuf ∧ (t.core n).acc = (s.core n).acc
      ∧ Tab.get 0 (t.core n).dexitCount f.htab = Tab.get 0 (s.core n).dexitCount f.htab + 1 := by
  subst hf
  have hi := State.onlyCore_issued (s := s) h.lt .dispatch (s.atFront n .dispatch) false
  have hic := State.queueFrame_issued (s := s) h.lt h.program (s.atFront n .dispatch) false
  obtain ⟨c, hcore, hfr, took⟩ := h.enqueued rfl false false
  have hsi : s.CoreAndTraffic _ n := .of_onlyCore hi
  obtain ⟨b, x, hib, hbc, hxw, hxk, hxc, hxt, heq⟩ := State.startDexit_exits (key := (s.core n).issueSeq) h.opcode
    ((hsi.entryOf n _).trans hent) ((hsi.entryFaulty e).trans hfault)
    (fun hk => ⟨by rw [hic]; exact (hv hk).1, (hsi.vc4Full n _).trans (hv hk).2⟩)
  have hsb := hsi.trans hib
  have hbc' : b.core n = c.dexitIssued (dexitF (s.atFront n .dispatch)).htab := by rw [hbc, hcore]
  have hbacc : (b.core n).acc = (s.core n).acc ∧ (b.core n).accErr = (s.core n).accErr := by
    rw [hbc', hfr]
    exact ⟨rfl, rfl⟩
  have hxc' : x.codes = codes := by
    rw [hxc, hic]
    simp only [CoreSt.setQueue_codes, hcodes, Option.getD_some]
  have hxt' : x.tile = e.tileAt (Tab.get 0 (s.core n).dexitCount (dexitF (s.atFront n .dispatch)).htab) := by
    rw [hxt, hic]
    rfl
  obtain ⟨u, v, hbu, huc, ⟨pkts, hlen, hcon, hvc⟩, hexit⟩ := State.exitNow_leaves (s := b) (x := x) h.lt (by rw [hxw]) ((hsb.entryOf n _).trans hent)
    ((hsb.dexitDest n _ e _).trans (by rw [hxt']; exact hd)) (hsb.reachesDest hreach) hup hm
    (by rw [CoreSt.accScan, hbacc.2]; exact hscan)
  have hsu := hsb.trans (.of_onlyCore hbu)
  have hacc : (u.core n).acc = (s.core n).acc := by rw [huc]; exact hbacc.1
  have hvu : v.core n = u.core n := by rw [State.core, hvc, State.core]
  have ht : (v.finishOp n .dispatch (s.core n).issueSeq).core n
      = (u.core n).setQueue .dispatch (((u.core n).queue .dispatch).finish (fun _ => true) (s.core n).issueSeq) := by
    rw [State.finishOp, State.core_updCore, hvu]
  rw [hbc', CoreSt.exitFrame] at huc
  refine ⟨v.finishOp n .dispatch (s.core n).issueSeq, pkts, by rw [heq, hexit, hxk],
    took.finish (fun _ => true) rfl hcore ht (fun p => ?_) ?_ ?_, ?_, ?_, ?_, ?_, ?_, ?_, ?_⟩
  · rw [huc]
    cases p <;> rfl
  · rw [huc]
    rfl
  · rw [huc]
    rfl
  · rw [hlen, State.length_dexitBlocks]
  · rw [hsu.dexitMsg, State.dexitBlocks_congr hsu hacc hm, hxc', hxt'] at hcon
    exact (hsu.contributed hcon).onlyCore ((v.onlyCore_refl n).updCore _)
  · rw [ht, huc]
    rfl
  · rw [ht, huc, hfr]
    rfl
  · rw [ht, huc, hfr]
    rfl
  · rw [ht, huc, hfr]
    rfl
  · rw [ht, huc, hfr]
    exact Tab.get_upd_self _ _ _ _

/-- A DEXIT that decodes has a rounding mode of R294, and draws only in the third. -/
theorem rmode_of_noTrap {s : State} {n : Nat} {c : CoreSt} {w : InstrWord} (h : noTrap (dexitPlanCauses n s c w)) (h2 : (dexitF w).rmode ≠ 2) :
    (dexitF w).rmode = 0 ∨ (dexitF w).rmode = 1 := by
  have h3 : (dexitF w).rmode ≠ 3 := by
    intro h3
    have := h (cFIELD_CODE, (dexitF w).efmt = 3 || (dexitF w).rmode = 3 || opf w 56 49 = 0x80 || ((dexitF w).efmt != 1 && opf w 56 49 != 0))
      (by simp [dexitPlanCauses, dexitCauses])
    simp [h3] at this
  have h4 : (dexitF w).rmode < 4 := Nat.mod_lt _ (by decide)
  omega

/-- Settles O13: Dispatch takes the codes (`exec_dexitCodesReady`), and the blocks leave as they are converted (`State.ready.dexit`). -/
theorem dexitSendsItsBlocks : Obligations.DexitSendsItsBlocks := by
  rintro s n w f k a len hqu rfl rfl hn hrange
  refine ⟨fun hst hpc hop hcodes hclean hfull => ?_, fun codes e dest h hc hcodes hent hfault hup hm hv hd hreach hscan => ?_⟩
  · obtain ⟨x, hx⟩ := s.linesAt_blocks k a len (.dload n)
    have hex := exec_dexitCodesReady hqu hn hst hpc hop hcodes hrange hclean hfull
    rw [hx] at hex
    refine ⟨_, hex, fun j => ?_, rfl, fun m hm => ?_, ?_⟩
    · by_cases hj : j = k
      · rw [hj, State.stack_updCore, State.stack_setStack]
      · rw [State.stack_updCore, State.stack_setStack_other _ _ hj]
        rfl
    · rw [State.core_updCore_other _ _ hm]
      rfl
    · rw [State.core_updCore]
      rfl
  · have hm' := rmode_of_noTrap hc hm
    obtain ⟨t, pkts, ht, took, hlen, hcon, hcodes', hact, hsbuf, hacc, hcount⟩ :=
      h.dexit rfl hcodes hent hfault hup hm' hv hd hreach hscan
    have hj : t.job = s.job := by rw [hcon.only]
    have hx := issue_next (draws := fun w => (dexitF w).rmode = 2) (eff := fun t w k => t.startDexit n .dispatch w k) hqu h
      (by simpa [State.causes, h.opcode, CoreSt.viewOf_program] using hc) (by simp [State.ordered, h.opcode, codesMissing, hcodes])
      (by simp only [hm, decide_false]; rw [ht]; exact hj)
    simp only [hm, decide_false, ht] at hx
    exact ⟨t, _, hx, took, hcon.others, hcodes', hact, hsbuf, hacc, hcount, hcon.traffic, hlen, hcon.only, rfl⟩

end Sys2Proof.Machine
end

section
/-!
STEP_INPUT and JOB_START (R115, R331, R418, R419, R521, R630): the record that a posting makes, and the cores and stack controllers of a job
that starts.
-/

namespace Sys2Proof.Machine

/-! ### Tables updated place by place -/

/-- Updates that do nothing more a second time, place by place: each place of the list has its own, once. -/
theorem Tab.get_foldl_upd {α : Type} (d : α) {f : Nat → α → α} (hf : ∀ n x, f n (f n x) = f n x) (l : List Nat) (t : Tab α) (k : Nat) :
    Tab.get d (l.foldl (fun t n => Tab.upd d t n (f n)) t) k = if k ∈ l then f k (Tab.get d t k) else Tab.get d t k := by
  induction l generalizing t with
  | nil => rfl
  | cons n l ih =>
    rw [List.foldl_cons, ih]
    by_cases hk : k = n
    · subst hk
      simp [hf]
    · simp [Tab.get_upd_other d t (f n) hk, hk]

/-- A table that lists the first `n` keys. -/
theorem Tab.get_map_upFrom {α : Type} (d : α) (g : Nat → α) {n i : Nat} (hi : i < n) :
    Tab.get d ((upFrom 0 n).map (fun j => (j, g j))) i = g i := by
  refine Tab.get_of_mem d (List.pairwise_map.2 (upFrom_pairwise 0 n)) (List.mem_map.2 ⟨i, mem_upFrom.2 ?_, rfl⟩)
  omega

/-- One update of each core of a list, as an update of the table of cores. -/
theorem State.updCores_eq (s : State) (l : List Nat) (f : Nat → CoreSt → CoreSt) :
    s.updCores l f = { s with cores := l.foldl (fun t n => Tab.upd .reset t n (f n)) s.cores } :=
  List.foldl_hom (fun c => ({ s with cores := c } : State)) (fun _ _ => rfl)

/-- One update of each stack of a list, as an update of the table of stacks. -/
theorem State.foldl_updStack (s : State) (l : List Nat) (f : Nat → StackSt → StackSt) :
    l.foldl (fun t k => t.updStack k (f k)) s = { s with hbm := l.foldl (fun t k => Tab.upd .reset t k (f k)) s.hbm } :=
  List.foldl_hom (fun x => ({ s with hbm := x } : State)) (fun _ _ => rfl)

theorem State.core_updCores {f : Nat → CoreSt → CoreSt} (hf : ∀ n c, f n (f n c) = f n c) (s : State) (l : List Nat) (n : Nat) :
    (s.updCores l f).core n = if n ∈ l then f n (s.core n) else s.core n := by
  rw [State.updCores_eq]
  exact Tab.get_foldl_upd _ hf l s.cores n

/-! ### Action records (R622) -/

@[simp] theorem State.busy_actionDone (s : State) (index sub status : Nat) :
    ((s.actionDone index sub status).action index sub).busy = false := by
  simp [State.actionDone, State.actionStart, State.actionEnd, State.action]

@[simp] theorem State.count_actionDone (s : State) (index sub status : Nat) :
    ((s.actionDone index sub status).action index sub).count = satAdd32 (s.action index sub).count 1 := by
  simp [State.actionDone, State.actionStart, State.actionEnd, State.action]

/-- A completed action changes the action records alone. -/
theorem State.actionDone_frame {s t : State} (h : s = t) (index sub status : Nat) :
    s.actionDone index sub status = { t with actions := (s.actionDone index sub status).actions } := by
  subst h
  rfl

/-- An open entry whose action completes at once and whose effect asks nothing of job control (R621, R622). -/
theorem done_opened_acted_of_quiet {s t : State} {f : State → Wrote} {index sub : Nat} (hc : s.closed = none) (hf : f s = t.acted index sub)
    (ht : t.quiet) : done (s.opened f).1 = .next (t.actionDone index sub 0) := by
  rw [State.opened_of_closed_eq_none hc, hf]
  exact done_quiet _ ht

/-! ### STEP_INPUT (R418, R419, R521) -/

/-- The entries of job control can be reached within a job (R621). -/
theorem State.closed_of_inJob {s : State} (h : s.inJob = true) : s.closed = none := by
  have hj : s.job.jobState = jsRUNNING ∨ s.job.jobState = jsLOADED := by simpa [State.inJob] using h
  rcases hj with hj | hj <;> simp [State.closed, hj, jsRUNNING, jsLOADED, jsSTARTING, jsDATUM]

/-- A record that is set changes job alone. -/
theorem State.setRec_eq (s : State) (slot : Nat) (r : StepRec) : s.setRec slot r = { s with job := (s.setRec slot r).job } := by
  unfold State.setRec
  split <;> rfl

/-- The other record stands as it did. -/
theorem State.record_setRec_succ (s : State) (slot : Nat) (r : StepRec) : (s.setRec slot r).record (slot + 1) = s.record (slot + 1) := by
  unfold State.setRec State.record
  rcases Nat.mod_two_eq_zero_or_one slot with h | h
  · have hsucc : ¬ (slot + 1) % 2 = 0 := by omega
    simp [h, hsucc]
  · have hsucc : (slot + 1) % 2 = 0 := by omega
    simp [h, hsucc]

theorem State.quiet_setRec {s : State} (h : s.quiet) (slot : Nat) (r : StepRec) : (s.setRec slot r).quiet := by
  unfold State.quiet at *
  rw [State.setRec_job]
  exact h

/-- The record of a step whose inputs are posted (R418, R420). -/
def StepRec.posted (step tokens bytes : Nat) : StepRec :=
  { StepRec.free with step := step, st := .input, tokens := tokens % 2 ^ 40, inputBytes := bytes }

theorem exec_stepInput {s : State} {step tokens bytes : Nat} (hq : s.quiet) (hj : s.inJob = true)
    (hresync : s.job.resync = 0 ∨ step = s.job.resync) (hinput : (s.record step).st ≠ .input) (hrun : (s.record step).st ≠ .running)
    (hpost : s.postable step = true) (hbytes : bytes ≤ s.inputSize step) :
    exec (.stepInput step tokens bytes) s = .next ((s.setRec step (.posted step tokens bytes)).actionDone 0x2012 1 0) := by
  have htarget : (s.job.resync != 0 && step != s.job.resync) = false := by
    rcases hresync with h | h <;> simp [h]
  refine done_opened_acted_of_quiet (State.closed_of_inJob hj) ?_ (State.quiet_setRec hq step _)
  simp only [hj, htarget, hinput, hrun, hpost, gt_iff_lt, Nat.not_lt.2 hbytes, decide_false, Bool.not_true, Bool.or_self, Bool.false_eq_true,
    if_false]
  rfl

/-! ### JOB_START (R115, R331, R630) -/

/-- A Plotter queue that is blank stays so. -/
theorem CoreSt.blankPlot_blankPlot (c : CoreSt) : c.blankPlot.blankPlot = c.blankPlot := rfl

/-- A stack controller with the counters of the plan image (R331). -/
def StackSt.atStart (p : Plan) (k : Nat) (x : StackSt) : StackSt :=
  { x with counters := (upFrom 0 256).map (fun i => (i, Tab.get 0 p.counters (256 * k + i))), released := [] }

theorem StackSt.atStart_atStart (p : Plan) (k : Nat) (x : StackSt) : (x.atStart p k).atStart p k = x.atStart p k := rfl

theorem StackSt.counter_atStart (p : Plan) (k : Nat) (x : StackSt) {i : Nat} (hi : i < 256) :
    (x.atStart p k).counter i = Tab.get 0 p.counters (256 * k + i) :=
  Tab.get_map_upFrom 0 (fun i => Tab.get 0 p.counters (256 * k + i)) hi

/-- The controller counters load on every stack, and nothing else changes. -/
theorem State.loadCounters_eq {s : State} {p : Plan} (h : s.job.plan = some p) :
    s.loadCounters = { s with hbm := (upFrom 0 numStacks).foldl (fun t k => Tab.upd .reset t k (StackSt.atStart p k)) s.hbm } := by
  simp only [State.loadCounters, h]
  exact s.foldl_updStack (upFrom 0 numStacks) (StackSt.atStart p)

theorem State.stack_loadCounters {s : State} {p : Plan} (h : s.job.plan = some p) {k : Nat} (hk : k < numStacks) :
    s.loadCounters.stack k = (s.stack k).atStart p k := by
  have hmem : k ∈ upFrom 0 numStacks := mem_upFrom.2 ⟨Nat.zero_le k, by rwa [Nat.zero_add]⟩
  rw [State.loadCounters_eq h, State.stack, Tab.get_foldl_upd .reset (StackSt.atStart_atStart p), if_pos hmem]
  rfl

/-- The job runs, and no Plotter weight set of a mapped core holds a form (R115, R630). -/
def State.startJob (s : State) : State :=
  { s.updCores s.mapped (fun _ c => c.blankPlot) with job := { s.job with jobState := jsRUNNING } }

theorem State.core_startJob (s : State) (n : Nat) : s.startJob.core n = if n ∈ s.mapped then (s.core n).blankPlot else s.core n :=
  State.core_updCores (fun _ => CoreSt.blankPlot_blankPlot) s s.mapped n

theorem State.startJob_eq (s : State) :
    s.startJob = { s with cores := s.startJob.cores, job := { s.job with jobState := jsRUNNING } } := by
  unfold State.startJob
  rw [State.updCores_eq]

/-- The plan's counters load into the stacks alone, after the job's start. -/
theorem State.loadCounters_startJob {s : State} {p : Plan} (hp : s.job.plan = some p) :
    s.startJob.loadCounters = { s with cores := s.startJob.cores, hbm := s.startJob.loadCounters.hbm, job := { s.job with jobState := jsRUNNING } }
      ∧ ∀ k < numStacks, s.startJob.loadCounters.stack k = (s.stack k).atStart p k := by
  have hbm : s.startJob.hbm = s.hbm := by rw [State.startJob_eq]
  refine ⟨?_, fun k hk => ?_⟩
  · rw [State.loadCounters_eq (s := s.startJob) hp, State.startJob_eq]
  · rw [State.stack_loadCounters (s := s.startJob) hp hk, State.stack, hbm, State.stack]

theorem exec_jobStart {s : State} {p : Plan} (hq : s.quiet) (hj : s.job.jobState = jsLOADED) (hrejoin : s.job.rejoin = false)
    (hp : s.job.plan = some p) : exec .jobStart s = .next (s.startJob.loadCounters.actionDone 0x2000 2 0) := by
  refine done_opened_acted_of_quiet (State.closed_of_inJob (by simp [State.inJob, hj])) ?_ ?_
  · have hplan : ¬ jsLOADED = jsNO_PLAN := by decide
    simp only [hj, hplan, bne_self_eq_false, Bool.false_eq_true, if_false]
    show (if s.startJob.job.rejoin = true then _ else s.startJob.loadCounters).acted 0x2000 2 = _
    rw [show s.startJob.job.rejoin = false from hrejoin]
    rfl
  · rw [(State.loadCounters_startJob hp).1]
    exact hq

/-- Settles O24: a posting sets its step's record (`exec_stepInput`); a start blanks the mapped cores' Plotter queues and loads the plan's
counters (`exec_jobStart`). -/
theorem jobsStartOnInputs : Obligations.JobsStartOnInputs := by
  unfold Obligations.JobsStartOnInputs
  constructor
  · intro s step tokens bytes hq hj hresync hinput hrun hpost hbytes
    refine ⟨_, exec_stepInput hq hj hresync hinput hrun hpost hbytes, ?_, s.setRec_job step _, s.record_setRec step _,
      s.record_setRec_succ step _, State.status_actionDone .., State.busy_actionDone .., ?_⟩
    · exact State.actionDone_frame (s.setRec_eq step _) 0x2012 1 0
    · rw [State.count_actionDone, State.setRec_eq]
      rfl
  · intro s p hq hj hrejoin hp
    obtain ⟨honly, hstack⟩ := State.loadCounters_startJob hp
    refine ⟨_, exec_jobStart hq hj hrejoin hp, ?_, fun n => ?_, fun k hk => ?_, State.status_actionDone .., ?_⟩
    · rw [State.actionDone_frame honly]
    · rw [← State.core_startJob, State.core, State.core, State.actionDone_cores, honly]
    · have hk' : (s.startJob.loadCounters.actionDone 0x2000 2 0).stack k = (s.stack k).atStart p k := hstack k hk
      rw [hk']
      exact ⟨fun i hi => StackSt.counter_atStart p k _ hi, rfl⟩
    · rw [State.count_actionDone, honly]
      rfl

end Sys2Proof.Machine
end

section
/-!
TRIANGULATION_COMPLETE (R198, R200, R201): the weights are read, the reference row is tested, and the alarm counted.
-/

namespace Sys2Proof.Machine

/-! ### Reads of stacks that read as written (R310, R756) -/

/-- Reads have been made: every stack holds what it did, and only counts of blocks have changed. -/
structure State.DidRead (s t : State) : Prop where
  only : t = { s with hbm := t.hbm, gaz := { s.gaz with blocks := t.gaz.blocks } }
  stack : ∀ k, t.stack k = s.stack k

theorem State.DidRead.trans {s t u : State} (h : s.DidRead t) (g : t.DidRead u) : s.DidRead u where
  only := by
    have hg := g.only
    rw [h.only] at hg
    exact hg
  stack k := (g.stack k).trans (h.stack k)

theorem State.DidRead.job {s t : State} (h : s.DidRead t) : t.job = s.job := by rw [h.only]

theorem State.didRead_readHbm {s : State} {k : Nat} (h : s.clean k) (a n : Nat) (c : Consumer) :
    s.DidRead (s.readHbm k a n c).1 ∧ (s.readHbm k a n c).2 = some (s.readStack k a n) := by
  rw [State.readHbm_clean h]
  obtain ⟨x, hx⟩ := s.linesAt_blocks k a n c
  refine ⟨⟨by rw [hx]; rfl, fun j => ?_⟩, rfl⟩
  by_cases hj : j = k
  · rw [hj, State.stack_setStack]
  · rw [State.stack_setStack_other _ _ hj, State.linesAt_stack]

theorem State.readEach_concat (s : State) (l : List (Nat × Nat × Nat)) (p : Nat × Nat × Nat) (who : Consumer) :
    s.readEach (l ++ [p]) who = (((s.readEach l who).1.readHbm p.1 p.2.1 p.2.2 who).1,
      (s.readEach l who).2 ++ [((s.readEach l who).1.readHbm p.1 p.2.1 p.2.2 who).2]) := by
  simp only [State.readEach, List.foldl_append, List.foldl_cons, List.foldl_nil]

/-- A list of ranges in clean stacks reads as it was written. -/
theorem State.didRead_readEach {s : State} {l : List (Nat × Nat × Nat)} (h : ∀ p ∈ l, s.clean p.1) (who : Consumer) :
    s.DidRead (s.readEach l who).1 ∧ (s.readEach l who).2 = l.map (fun p => some (s.readStack p.1 p.2.1 p.2.2)) := by
  induction l using List.reverseRecOn with
  | nil => exact ⟨⟨rfl, fun _ => rfl⟩, rfl⟩
  | append_singleton l p ih =>
    obtain ⟨hread, hdata⟩ := ih fun q hq => h q (List.mem_append_left _ hq)
    have hclean : (s.readEach l who).1.clean p.1 := by
      unfold State.clean
      rw [hread.stack]
      exact h p (List.mem_append_right _ (List.mem_singleton_self p))
    obtain ⟨hlast, hbytes⟩ := State.didRead_readHbm hclean p.2.1 p.2.2 who
    rw [State.readEach_concat, hdata, hbytes, List.map_append, State.readStack, hread.stack]
    exact ⟨hread.trans hlast, rfl⟩

/-! ### The test (R201) -/

/-- Past the test of the copied row, a finite reference leaves nothing open. -/
theorem triAlarm_of_finite {r : List Word32} (h : ∀ x ∈ r, isFin32 x = true) (thr : Word32) (y : List Word32) (any : Bool) :
    triAlarm thr y r any = triAlarm thr y r false := by
  have hr : r.all isFin32 = true := List.all_eq_true.2 h
  simp only [triAlarm, hr, Bool.not_true, Bool.false_eq_true, if_false]

/-! ### The sample is done -/

/-- What a completed triangulation leaves of its core: the flushed classes, the weight set, the samples left and the layer's alarms. -/
def CoreSt.triangulated (c : CoreSt) (fl : Flushes) (set : WSet) (ordinal layer : Nat) (bad : Bool) (cycles : Nat) : CoreSt :=
  CoreSt.enter { c.addFlush fl with
    plotSet := set, tri := c.tri.filter (fun y => y.ordinal != ordinal), alarms := if bad then Tab.upd 0 c.alarms layer (· + 1) else c.alarms }
    true cycles

theorem CoreSt.triangulated_frame (c : CoreSt) (fl : Flushes) (set : WSet) (ordinal layer : Nat) (bad : Bool) (cycles : Nat) :
    c.triangulated fl set ordinal layer bad cycles = { c with
      tri := c.tri.filter (fun y => y.ordinal != ordinal), alarms := (c.triangulated fl set ordinal layer bad cycles).alarms
      tally := (c.triangulated fl set ordinal layer bad cycles).tally, wrapped := (c.triangulated fl set ordinal layer bad cycles).wrapped
      plotSet := set, flush := orFlush c.flush fl } := rfl

theorem CoreSt.alarms_triangulated (c : CoreSt) (fl : Flushes) (set : WSet) (ordinal layer : Nat) (bad : Bool) (cycles y : Nat) :
    Tab.get 0 (c.triangulated fl set ordinal layer bad cycles).alarms y
      = Tab.get 0 c.alarms y + (if y = layer ∧ bad = true then 1 else 0) := by
  show Tab.get 0 (if bad then Tab.upd 0 c.alarms layer (· + 1) else c.alarms) y = _
  cases bad with
  | false => simp
  | true =>
    by_cases hy : y = layer
    · simp [hy]
    · simp [hy, Tab.get_upd_other _ _ _ hy]

/-- The free value of a state is drawn, and one core has completed a triangulation. -/
def State.triDone (s : State) (n : Nat) (fl : Flushes) (set : WSet) (ordinal layer : Nat) (bad : Bool) (cycles : Nat) : State :=
  s.fresh.2.updCore n (fun c => c.triangulated fl set ordinal layer bad cycles)

section

variable {s u : State} (h : s.DidRead u) (n : Nat) (fl : Flushes) (set : WSet) (ordinal layer : Nat) (bad : Bool) (cycles : Nat)
include h

theorem State.DidRead.core (m : Nat) : u.core m = s.core m := by
  rw [State.core, h.only, State.core]

theorem State.DidRead.triDone_frame :
    u.triDone n fl set ordinal layer bad cycles = { s with
      cores := (u.triDone n fl set ordinal layer bad cycles).cores, hbm := (u.triDone n fl set ordinal layer bad cycles).hbm
      gaz := { s.gaz with blocks := (u.triDone n fl set ordinal layer bad cycles).gaz.blocks }
      freshCount := (u.triDone n fl set ordinal layer bad cycles).freshCount } := by
  unfold State.triDone State.fresh State.updCore State.setCore
  rw [h.only]

theorem State.DidRead.core_triDone :
    (u.triDone n fl set ordinal layer bad cycles).core n = (s.core n).triangulated fl set ordinal layer bad cycles :=
  (u.fresh.2.core_updCore n _).trans (congrArg (CoreSt.triangulated · fl set ordinal layer bad cycles) (h.core n))

theorem State.DidRead.core_triDone_other {m : Nat} (hm : m ≠ n) : (u.triDone n fl set ordinal layer bad cycles).core m = s.core m :=
  (u.fresh.2.core_updCore_other _ hm).trans (h.core m)

end

/-- The reference row of a sample: the row that its activations give with its tile's weights, as the stacks hold these (R200). -/
def State.triRow (s : State) (n : Nat) (x : TriSample) (l : PlanLayer) (e : TriTile) (rs : List (List (Nat × Nat × Nat))) :
    List (Word32 × Flushes) :=
  triReference s.fmt.subnormal (triActs s.fmt.subnormal (s.core n) e x.m)
    ((chunks (max 1 (rs.headD []).length) (rs.flatten.map (fun p => s.readStack p.1 p.2.1 p.2.2))).map
      (triWeights s.fmt.subnormal (s.backForm l))) (e.col0 % 128) x.n (triExp (s.core n) l e x)

/-- On clean stacks, with a finite reference, the command reads its weights and counts by the test's answer. -/
theorem exec_triangulationComplete {s : State} {n o : Nat} {x : TriSample} {l : PlanLayer} {e : TriTile} {rs : List (List (Nat × Nat × Nat))}
    {r : List (Word32 × Flushes)} (hq : s.quiet) (hn : n < numCores) (hpq : (s.core n).pq.st ≠ .run)
    (hx : (s.core n).tri.find? (fun y => y.ordinal = o) = some x) (hl : s.planLayer x.layer = some l)
    (he : l.tri.tiles.find? (fun t => some t.core = s.logicalOf n && t.ordinal = x.ordinal) = some e) (hrs : s.triRanges l e x.n = some rs)
    (hc : ∀ p ∈ rs.flatten, s.clean p.1) (hr : r = s.triRow n x l e rs) (hfin : ∀ p ∈ r, isFin32 p.1 = true) :
    ∃ u set cycles, s.DidRead u ∧ set.form = some (s.backForm l) ∧ set.n = x.n ∧
      exec (.triangulationComplete n o) s = .next (u.triDone n (r.foldl (fun m p => orFlush m p.2) 0) set o x.layer
        (triAlarm (l.tri.threshold.getD s.fmt.triThreshold) x.row (r.map (fun p => p.1)) false) cycles) := by
  obtain ⟨hread, hdata⟩ := State.didRead_readEach hc (.stream n)
  have hall : (rs.flatten.map (fun p => some (s.readStack p.1 p.2.1 p.2.2))).all (fun b => b.isSome) = true := by simp
  have hget : (rs.flatten.map (fun p => some (s.readStack p.1 p.2.1 p.2.2))).map (fun b => b.getD [])
      = rs.flatten.map (fun p => s.readStack p.1 p.2.1 p.2.2) := List.map_map
  have htest := triAlarm_of_finite (r := r.map (fun p => p.1)) (by simpa using hfin) (l.tri.threshold.getD s.fmt.triThreshold) x.row
  refine ⟨(s.readEach rs.flatten (.stream n)).1,
    { form := some (s.backForm l), n := x.n,
      cols := (rs.flatten.map (fun p => s.readStack p.1 p.2.1 p.2.2)).drop (rs.flatten.length - 128) },
    4 * ceilDiv e.k 128, hread, rfl, rfl, ?_⟩
  unfold State.triRow at hr
  show execTriangulationComplete n o s = _
  simp only [execTriangulationComplete, withCore, hn, if_true, hx, hl, he, hpq, if_false, hrs, hdata, hall, Bool.not_true, Bool.false_eq_true,
    hget, ← hr, htest]
  exact done_of_job_eq hq hread.job

/-- Settles O10: the command's one effect (`exec_triangulationComplete`), and what of module and core it touches. -/
theorem triangulationAlarms : Obligations.TriangulationAlarms := by
  unfold Obligations.TriangulationAlarms
  intro s n o x l e rs r hq hn hpq hx hl he hrs hc hr hfin
  obtain ⟨u, set, cycles, hu, hform, hset, hexec⟩ := exec_triangulationComplete hq hn hpq hx hl he hrs hc hr hfin
  refine ⟨_, hexec, hu.triDone_frame .., fun m hm => hu.core_triDone_other n _ _ _ _ _ _ hm, hu.stack, ?_⟩
  rw [hu.core_triDone]
  exact ⟨CoreSt.triangulated_frame .., hform, hset, fun y => CoreSt.alarms_triangulated ..⟩

end Sys2Proof.Machine
end

section
/-!
STEP_START and STEP_BOUNDARY (R195, R202, R203, R206, R415, R416, R418, R760): a step's record runs, and becomes COMPLETE at the boundary.
-/

namespace Sys2Proof.Machine

/-! ### A step starts (R416) -/

theorem State.startable_iff {s : State} : s.startable = true ↔
    s.job.jobState = jsRUNNING ∧ s.running = none ∧ s.job.batch.stage = .idle ∧ (s.record s.job.next).st = .input
      ∧ (s.record s.job.next).step = s.job.next := by
  simp [State.startable, and_assoc]

theorem State.record_beginStep_succ (s : State) (step : Nat) : (s.beginStep step).record (step + 1) = s.record (step + 1) :=
  s.record_setRec_succ step (s.startRec step)

theorem State.quiet_beginStep {s : State} (h : s.quiet) (step : Nat) : (s.beginStep step).quiet := by
  have hset := State.quiet_setRec h step (s.startRec step)
  unfold State.quiet at *
  rw [State.job_beginStep]
  exact hset

theorem exec_stepStart {s : State} (hq : s.quiet) (hs : s.startable = true) (hsync : s.job.resync = 0) (hp : s.job.plan ≠ none)
    (hg : s.gathersHeld) (hk : s.job.ckpt.st = 0) :
    exec .stepStart s = .next (s.startStep s.job.next) ∧ (s.beginStep s.job.next).Released (s.startStep s.job.next) := by
  have hR := State.released_startStep s.job.next hp hg hk
  have e : execStepStart s = done (s.startStep s.job.next) := by
    simp only [execStepStart, hs, hsync, decide_true, Bool.and_self, if_true]
  exact ⟨e.trans (done_of_job_eq (State.quiet_beginStep hq _) hR.job), hR⟩

/-! ### Samples and alarms at a boundary (R193, R202, R203) -/

theorem State.combineScales_cores (s : State) : s.combineScales = { s with cores := s.combineScales.cores } := by
  unfold State.combineScales
  split
  · rfl
  · exact State.foldl_cores (fun _ _ => rfl) _ s

theorem CoreSt.dropSamples_dropSamples (c : CoreSt) : c.dropSamples.dropSamples = c.dropSamples := by
  simp [CoreSt.dropSamples, satAdd32]

/-- Alarm counts have been kept or sent: of the module, nothing has changed but the Plotter, and what messages change. -/
def State.Alarmed (s t : State) : Prop :=
  t = { s with plotter := t.plotter, net := t.net, out := t.out, log := t.log, host := t.host, fieldNet := t.fieldNet
               gaz := { s.gaz with blocks := t.gaz.blocks } }

theorem State.Alarmed.trans {s t u : State} (h : s.Alarmed t) (g : t.Alarmed u) : s.Alarmed u := by
  unfold State.Alarmed at h g
  rw [h] at g
  exact g

theorem State.Messaged.alarmed {s t : State} (h : s.Messaged t) : s.Alarmed t := by
  unfold State.Alarmed
  rw [h.only]

theorem State.alarmed_alarmFrom (s : State) (layer step value : Nat) : s.Alarmed (s.alarmFrom layer step value) := by
  unfold State.alarmFrom
  dsimp only
  split <;> rfl

theorem State.alarmed_sendAlarms (s : State) (step : Nat) : s.Alarmed (s.sendAlarms step) := by
  unfold State.sendAlarms
  generalize s.planLayers = ls
  induction ls generalizing s with
  | nil => rfl
  | cons l ls ih =>
    refine State.Alarmed.trans ?_ (ih _)
    dsimp only
    split
    · exact s.alarmed_alarmFrom _ _ _
    · exact .trans (t := { s with plotter := _ }) rfl (State.messaged_message _ _ _ _ _).alarmed

/-- The scales combine, the halyard units close their counts, and the samples left are dropped. -/
def State.dropSamples (s : State) : State :=
  let t : State := { s.combineScales with halyard := s.halyard.endStep }
  t.updCores t.mapped (fun _ c => c.dropSamples)

theorem State.dropSamples_frame (s : State) : s.dropSamples = { s with cores := s.dropSamples.cores, halyard := s.dropSamples.halyard } := by
  unfold State.dropSamples
  rw [State.updCores_cores, State.combineScales_cores]

theorem State.tri_dropSamples {s : State} {n : Nat} (hn : n ∈ s.mapped) : (s.dropSamples.core n).tri = [] := by
  have hmap : n ∈ ({ s.combineScales with halyard := s.halyard.endStep } : State).mapped := by
    rwa [State.combineScales_cores]
  rw [State.dropSamples, State.core_updCores (fun _ => CoreSt.dropSamples_dropSamples), if_pos hmap]
  rfl

/-- The run of a step is over: what a boundary does before it touches the records. -/
def State.closeRun (s : State) (step : Nat) : State := s.dropSamples.sendAlarms step

theorem State.closeRun_frame (s : State) (step : Nat) :
    s.closeRun step = { s with
      cores := s.dropSamples.cores, halyard := s.dropSamples.halyard, plotter := (s.closeRun step).plotter, net := (s.closeRun step).net
      out := (s.closeRun step).out, log := (s.closeRun step).log, host := (s.closeRun step).host, fieldNet := (s.closeRun step).fieldNet
      gaz := { s.gaz with blocks := (s.closeRun step).gaz.blocks } } := by
  have ha := s.dropSamples.alarmed_sendAlarms step
  have hd := s.dropSamples_frame
  unfold State.closeRun
  generalize s.dropSamples.sendAlarms step = t at *
  generalize s.dropSamples = u at *
  unfold State.Alarmed at ha
  rw [hd] at ha
  exact ha

theorem State.tri_closeRun {s : State} {n : Nat} (hn : n ∈ s.mapped) (step : Nat) : ((s.closeRun step).core n).tri = [] := by
  rw [State.closeRun_frame]
  exact State.tri_dropSamples hn

/-! ### The records (R418) -/

theorem State.record_add_two (s : State) (n : Nat) : s.record (n + 2) = s.record n := by
  simp [State.record]

/-- The two records stand under any two numbers in a row. -/
theorem State.running_eq_none {s : State} {n : Nat} (h : (s.record n).st ≠ .running) (h' : (s.record (n + 1)).st ≠ .running) :
    s.running = none := by
  unfold State.record at h h'
  unfold State.running
  rcases Nat.mod_two_eq_zero_or_one n with hn | hn
  · simp_all [Nat.add_mod]
  · simp_all [Nat.add_mod]

theorem State.record_completeRecord (s : State) (r : StepRec) : (s.completeRecord r).record r.step = { r with st := .complete } := by
  unfold State.completeRecord
  dsimp only
  split
  · rw [← State.record_add_two, State.record_setRec_succ, State.record_add_two, State.record_setRec]
  · rw [State.record_setRec]

theorem State.running_completeRecord {s : State} {r : StepRec} (h : (s.record (r.step + 1)).st ≠ .running) :
    (s.completeRecord r).running = none := by
  refine State.running_eq_none (n := r.step) (by simp [State.record_completeRecord]) ?_
  unfold State.completeRecord
  dsimp only
  split
  · rw [State.record_setRec]
    decide
  · rwa [State.record_setRec_succ]

theorem State.completeRecord_eq (s : State) (r : StepRec) :
    s.completeRecord r = { s with job := { s.job with rec0 := (s.completeRecord r).job.rec0, rec1 := (s.completeRecord r).job.rec1 } } := by
  unfold State.completeRecord State.setRec
  dsimp only
  split_ifs <;> rfl

theorem State.switchVariants_eq (s : State) :
    s.switchVariants = { s with job := { s.job with switched := s.switchVariants.job.switched } } := by
  unfold State.switchVariants
  generalize s.planLayers = ls
  induction ls generalizing s with
  | nil => rfl
  | cons l ls ih =>
    rw [List.foldl_cons, ih]
    dsimp only
    split <;> rfl

/-! ### The boundary -/

theorem State.noteStep_frame (s : State) (before : Nat) :
    s.noteStep before = { s with host := (s.noteStep before).host, out := (s.noteStep before).out } := by
  unfold State.noteStep
  split
  · rfl
  · exact s.vector_frame 4

theorem State.stepSeq_sendCapture (s : State) (kind step attempt : Nat) (boundary : Bool) :
    (s.sendCapture kind step attempt boundary).gaz.stepSeq = (s.gaz.stepSeq + 1) % 2 ^ 32 := by
  unfold State.sendCapture GazSt.due
  dsimp only
  split <;> rfl

/-- The record of the step is complete, and the layers have switched their variants. -/
def State.closeRecord (s : State) (r : StepRec) : State := (s.completeRecord r).switchVariants

theorem State.closeRecord_frame (s : State) (r : StepRec) :
    ∃ sw, s.closeRecord r = { s with job := { s.job with
      rec0 := (s.completeRecord r).job.rec0, rec1 := (s.completeRecord r).job.rec1, switched := sw } } := by
  have hc := s.completeRecord_eq r
  have hv := (s.completeRecord r).switchVariants_eq
  unfold State.closeRecord
  generalize s.completeRecord r = t at *
  refine ⟨t.switchVariants.job.switched, hv.trans ?_⟩
  rw [hc]

/-- The capture message of the boundary has gone, with vector 4 (R593, R760). -/
def State.captureStep (s : State) (r : StepRec) : State :=
  (((s.closeRun r.step).closeRecord r).sendCapture 0 r.step r.attempt true).noteStep r.step

/-- The rest of the boundary: after a replay the module may realign (R518). -/
def State.leaveReplay (s : State) (r : StepRec) : State :=
  let t : State := { s with job := { s.job with replayed := false } }
  if s.job.replayed && t.peerStep > r.step then t.realign (some r.scales) (r.step + 1) (t.peerStep + 1) else t

theorem State.leaveReplay_of_not_replayed {s : State} (h : s.job.replayed = false) (r : StepRec) : s.leaveReplay r = s := by
  have hs : { s with job := { s.job with replayed := false } } = s := by rw [← h]
  unfold State.leaveReplay
  dsimp only
  rw [hs, h, Bool.false_and, if_neg Bool.false_ne_true]

theorem State.endStep_eq (s : State) (r : StepRec) : s.endStep r = (s.captureStep r).leaveReplay r := by
  unfold State.endStep State.leaveReplay State.captureStep State.closeRecord State.closeRun State.dropSamples
  with_reducible rfl

theorem State.captured_frame (s : State) (kind step attempt before : Nat) (boundary : Bool) :
    ∃ g h o, (s.sendCapture kind step attempt boundary).noteStep before = { s with gaz := g, host := h, out := o } :=
  ⟨_, _, _, State.noteStep_frame _ _⟩

/-- What the boundary leaves of the module once its capture message has gone. -/
theorem State.captureStep_frame (s : State) (r : StepRec) :
    ∃ sw g h o, s.captureStep r = { s.closeRun r.step with
      job := { s.job with rec0 := ((s.closeRun r.step).completeRecord r).job.rec0, rec1 := ((s.closeRun r.step).completeRecord r).job.rec1
                          switched := sw }
      gaz := g, host := h, out := o } := by
  obtain ⟨sw, hsw⟩ := (s.closeRun r.step).closeRecord_frame r
  obtain ⟨g, h, o, hu⟩ := ((s.closeRun r.step).closeRecord r).captured_frame 0 r.step r.attempt r.step true
  have hjob : (s.closeRun r.step).job = s.job := by rw [State.closeRun_frame]
  refine ⟨sw, g, h, o, hu.trans ?_⟩
  rw [hsw, hjob]

/-- The records are those that completing the step's record leaves. -/
theorem State.record_captureStep (s : State) (r : StepRec) (n : Nat) :
    (s.captureStep r).record n = ((s.closeRun r.step).completeRecord r).record n := by
  obtain ⟨sw, g, h, o, hu⟩ := s.captureStep_frame r
  rw [hu]
  rfl

theorem State.stepSeq_captureStep (s : State) (r : StepRec) : (s.captureStep r).gaz.stepSeq = (s.gaz.stepSeq + 1) % 2 ^ 32 := by
  obtain ⟨sw, hsw⟩ := (s.closeRun r.step).closeRecord_frame r
  rw [State.captureStep, State.noteStep_frame]
  refine (State.stepSeq_sendCapture _ _ _ _ _).trans ?_
  rw [hsw, State.closeRun_frame]

theorem exec_stepBoundary {s : State} {r : StepRec} (hq : s.quiet) (hr : s.running = some r) (hj : s.job.jobState = jsRUNNING)
    (hst : s.job.batch.stage = .idle) (hrel : s.job.release = .none) (hb : s.atBoundary = true) (hcal : s.job.calibrating = false)
    (hrep : s.job.replayed = false) : exec .stepBoundary s = .next (s.captureStep r) := by
  obtain ⟨sw, g, h, o, hu⟩ := s.captureStep_frame r
  have hjob := congrArg State.job hu
  have hend : s.endStep r = s.captureStep r := by
    rw [State.endStep_eq]
    exact State.leaveReplay_of_not_replayed (by rw [hjob]; exact hrep) r
  have e : execStepBoundary s = done (s.captureStep r) := by
    simp only [execStepBoundary, hr, hj, hst, hrel, hb, hcal, bne_self_eq_false, Bool.not_true, Bool.or_self, Bool.false_eq_true, if_false, hend]
  refine e.trans (done_quiet _ ?_)
  unfold State.quiet
  rw [hjob]
  exact hq

/-- Settles O25: a start by its record and the release of the queues (`exec_stepStart`), a boundary by what it does before, to and after the
records (`exec_stepBoundary`). -/
theorem stepsStartAndEnd : Obligations.StepsStartAndEnd := by
  unfold Obligations.StepsStartAndEnd
  constructor
  · intro s hq hs hsync hp hk hg
    obtain ⟨hexec, hR⟩ := exec_stepStart hq hs hsync hp hg hk
    obtain ⟨hj, -, -, -, hstep⟩ := State.startable_iff.1 hs
    have hrec : ∀ n, (s.startStep s.job.next).record n = (s.beginStep s.job.next).record n := fun n => by
      rw [State.record, hR.job, State.record]
    have hstart := (hrec _).trans (s.record_beginStep s.job.next)
    obtain ⟨hw, hm⟩ := s.beginStep_frame s.job.next
    refine ⟨_, hexec, ?_⟩
    rw [hstart]
    refine ⟨rfl, hstep, rfl, rfl, rfl, rfl, (hrec _).trans (s.record_beginStep_succ _), by rw [hR.job]; rfl, ?_, fun l hl => ?_, fun n hn => ?_,
      fun k => (hR.mem k).trans (hm k)⟩
    · rw [hR.job, State.job_beginStep, State.setRec_job]
      exact hj
    · have := hR.released l (by rwa [State.planCores, hw])
      rwa [State.phys, hw] at this
    · rw [hR.other n (by rwa [State.mapped, hw]), State.beginStep_eq]
      rfl
  · intro s r hq hr _ hother hj hst hrel hb hcal hrep
    obtain ⟨sw, g, h, o, hu⟩ := s.captureStep_frame r
    have hsame : ∀ n, (s.closeRun r.step).record n = s.record n := fun n => by rw [State.closeRun_frame]; rfl
    refine ⟨_, exec_stepBoundary hq hr hj hst hrel hb hcal hrep, ?_, ?_, by rw [hu], fun n hn => ?_, s.stepSeq_captureStep r, fun k => ?_, ?_, ?_⟩
    · rw [State.record_captureStep, State.record_completeRecord]
    · rw [hu]
      exact State.running_completeRecord (by rwa [hsame])
    · rw [hu]
      exact State.tri_closeRun hn r.step
    · rw [hu, State.closeRun_frame]
      rfl
    · rw [hu, State.closeRun_frame]
    · rw [hu, State.closeRun_frame]

end Sys2Proof.Machine
end

section
/-!
ALARMS, TAKEOVER, LEAVE and JOIN (R203, R501, R502, R523, R527): what each does to the layers that a module owns and to its peers.
-/

namespace Sys2Proof.Machine

/-! ### Alarms (R203) -/

theorem exec_alarms {s : State} {src layer step v : Nat} (hq : s.quiet) (hl : s.isLost src = false) (hb : s.job.batch.stage ≠ .reload)
    (hrole : s.roleOf layer = 1 ∨ s.roleOf layer = 3) (htag : (s.stepTag layer).getD 0 < step)
    (hrun : ∀ x ∈ s.plotter.running, ¬ (x.2.layer = layer ∧ x.2.step = step)) :
    exec (.alarms src layer step v) s
      = .next { s with plotter := { s.plotter with alarms := s.plotter.alarms ++ [(layer, step, v % 65536)] } } := by
  have howned : (s.roleOf layer != 1 && s.roleOf layer != 3) = false := by
    rcases hrole with h | h <;> simp [h]
  have hstarted : (s.plotter.running.any (fun x => x.2.layer = layer && x.2.step = step)
      || decide ((s.stepTag layer).getD 0 ≥ step)) = false := by
    simpa [htag] using hrun
  have e : execAlarms src layer step v s
      = done { s with plotter := { s.plotter with alarms := s.plotter.alarms ++ [(layer, step, v % 65536)] } } := by
    simp only [execAlarms, hl, hb, decide_false, Bool.or_self, Bool.false_eq_true, if_false, State.alarmFrom, howned, hstarted]
  exact e.trans (done_of_job_eq hq rfl)

/-! ### TAKEOVER (R502) -/

theorem exec_takeover {s : State} {src layer tag : Nat} (hl : s.isLost src = false) (hb : s.job.batch.stage ≠ .reload) :
    exec (.takeover src layer tag) s = done (s.takeoverFor layer) := by
  show execTakeover src layer tag s = _
  simp only [execTakeover, hl, hb, decide_false, Bool.or_self, Bool.false_eq_true, if_false]

theorem State.mem_takenOver_noteTakeover (s : State) (layer : Nat) : layer ∈ (s.noteTakeover layer).halyard.takenOver := by
  unfold State.noteTakeover
  dsimp only
  split
  · next h => exact List.contains_iff_mem.1 h
  · exact List.mem_append_right _ (List.mem_singleton_self layer)

theorem State.noteTakeover_new {s : State} {layer : Nat} (h : layer ∉ s.halyard.takenOver) :
    s.noteTakeover layer = { s with halyard := { s.halyard with takenOver := s.halyard.takenOver ++ [layer] } } := by
  have hc : s.halyard.takenOver.contains layer = false := by simpa using h
  simp only [State.noteTakeover, hc, Bool.false_eq_true, if_false]

/-- A layer that the module does not own is noted alone. -/
theorem State.takeoverFor_of_not_owner {s : State} {layer : Nat} (hrole : s.roleOf layer ≠ 1) : s.takeoverFor layer = s.noteTakeover layer :=
  if_neg hrole

theorem State.dropLayer_gone (s : State) (layer : Nat) :
    (∀ x ∈ (s.dropLayer layer).plotter.hand, x.layer ≠ layer) ∧ (∀ x ∈ (s.dropLayer layer).plotter.ready, x.layer ≠ layer)
      ∧ ∀ o ∈ (s.dropLayer layer).halyard.sums, o.layer ≠ layer := by
  simp [State.dropLayer]

/-- The owner of a layer is demoted: its role is 4, and updates and sums of the layer are given up. -/
def State.demoted (s : State) (layer : Nat) : State := ((s.noteTakeover layer).setRole layer 4).dropLayer layer

/-- The same with its event. -/
def State.lostOwnership (s : State) (layer : Nat) (r : SchedLayer) : State := (s.demoted layer).plotEvent "OWNERSHIP_LOST" r []

theorem State.takeoverFor_of_owner {s : State} {layer : Nat} {r : SchedLayer} (hrole : s.roleOf layer = 1) (hr : s.schedLayer layer = some r) :
    s.takeoverFor layer = s.lostOwnership layer r := by
  simp only [State.takeoverFor, hrole, if_true, hr, State.lostOwnership, State.demoted]

theorem State.lostOwnership_frame (s : State) (layer : Nat) (r : SchedLayer) :
    (s.lostOwnership layer r).job = s.job ∧ (s.lostOwnership layer r).plotter = (s.demoted layer).plotter
      ∧ (s.lostOwnership layer r).halyard = (s.demoted layer).halyard ∧ (s.lostOwnership layer r).log.seq = (s.log.seq + 1) % 2 ^ 32
      ∧ (s.lostOwnership layer r).cores = s.cores ∧ (s.lostOwnership layer r).hbm = s.hbm := by
  unfold State.lostOwnership State.plotEvent
  exact ⟨State.event_job .., State.event_plotter .., State.event_halyard .., State.event_log .., State.event_cores .., State.event_hbm ..⟩

/-! ### LEAVE (R501, R523, R575) -/

theorem State.promoteMirror_of_no_mirror {s : State} {m : Nat} (h : ∀ l ∈ s.planLayers, l.owner = m → s.roleOf l.layer ≠ 2) :
    s.promoteMirror m = s := by
  have hnone : s.planLayers.filter (fun l => l.owner = m && s.roleOf l.layer = 2) = [] := by
    simpa [List.filter_eq_nil_iff] using h
  unfold State.promoteMirror
  split
  · rfl
  · rw [hnone, List.foldl_nil]

theorem State.failOver_of_no_gathers {s : State} (h : s.net.gathers = []) (m : Nat) : s.failOver m = s := by
  rw [State.failOver, h, List.filter_nil, List.foldl_nil]

theorem State.drainBacklog_of_nil {s : State} (h : s.net.backlog = []) : s.drainBacklog = s := by
  have hs : ({ s with net := { s.net with backlog := [] } } : State) = s := by rw [← h]
  unfold State.drainBacklog
  dsimp only
  rw [hs, h, List.foldl_nil, ite_self]

/-- An entry of the peer table that is written anew: every entry of its module becomes it. -/
theorem State.peer_setPeer (s : State) (q : PeerSt) (m : Nat) :
    (s.setPeer q).peer m = (s.peer m).map (fun x => if x.module = q.module then q else x) := by
  have hkey : ∀ x : PeerSt, (if x.module = q.module then q else x).module = x.module := fun x => by
    split
    · next h => exact h.symm
    · rfl
  simp only [State.peer, State.setPeer, List.find?_map, Function.comp_def, hkey]

theorem State.peer_setPeer_self {s : State} {p q : PeerSt} {m : Nat} (hp : s.peer m = some p) (hq : q.module = m) :
    (s.setPeer q).peer m = some q := by
  rw [State.peer_setPeer, hp, Option.map_some, if_pos ((State.module_of_peer hp).trans hq.symm)]

theorem State.peer_setPeer_other {s : State} {q : PeerSt} {m : Nat} (hm : m ≠ q.module) : (s.setPeer q).peer m = s.peer m := by
  rw [State.peer_setPeer]
  cases hx : s.peer m with
  | none => rfl
  | some x => rw [Option.map_some, if_neg (by rwa [State.module_of_peer hx])]

/-- The entry of a peer as it is declared lost (R575). -/
def PeerSt.gone (p : PeerSt) (cause : LossCause) : PeerSt := { p with lost := true, cause := some cause, tx := [], joined := none }

/-- The messages under way to a peer are counted as lost at their interfaces. -/
def State.countLost (s : State) (p : PeerSt) : State :=
  p.lostOn.foldl (fun t i => t.netCount i (fun c => { c with messagesToLost := satAdd32 c.messagesToLost 1 })) s

theorem State.countLost_frame (s : State) (p : PeerSt) :
    s.countLost p = { s with net := { s.net with counts := (s.countLost p).net.counts } } := by
  unfold State.countLost
  generalize p.lostOn = is
  induction is generalizing s with
  | nil => rfl
  | cons i is ih =>
    rw [List.foldl_cons, ih]
    unfold State.netCount
    split <;> rfl

/-- A peer has left, and its loss is logged. -/
def State.peerLeft (s : State) (p : PeerSt) : State :=
  ((s.countLost p).setPeer (p.gone .leave)).event "PEER_LOST" clsINFO srcModule 0 [p.module, 1]

theorem State.net_peerLeft (s : State) (p : PeerSt) :
    (s.peerLeft p).net = { (s.setPeer (p.gone .leave)).net with counts := (s.countLost p).net.counts } := by
  rw [State.peerLeft, State.event_net, State.countLost_frame]
  rfl

theorem State.peer_peerLeft (s : State) (p : PeerSt) (m : Nat) : (s.peerLeft p).peer m = (s.setPeer (p.gone .leave)).peer m := by
  rw [State.peer, State.net_peerLeft, State.peer]

theorem State.peerLeft_frame (s : State) (p : PeerSt) :
    (s.peerLeft p).log.seq = (s.log.seq + 1) % 2 ^ 32 ∧ (s.peerLeft p).job = s.job ∧ (s.peerLeft p).plotter = s.plotter
      ∧ (s.peerLeft p).cores = s.cores ∧ (s.peerLeft p).hbm = s.hbm := by
  have h := s.countLost_frame p
  unfold State.peerLeft
  simp only [State.event_log, State.event_job, State.event_plotter, State.event_cores, State.event_hbm, State.setPeer]
  rw [h]
  exact ⟨rfl, rfl, rfl, rfl, rfl⟩

/-- With nothing to promote, to ask again or to send, the loss of a peer is noted alone. -/
theorem State.losePeer_leave {s : State} {m : Nat} {p : PeerSt} (hp : s.peer m = some p) (hl : p.lost = false) (hg : s.net.gathers = [])
    (hback : s.net.backlog = []) (hmirror : ∀ l ∈ s.planLayers, l.owner = m → s.roleOf l.layer ≠ 2) :
    s.losePeer m .leave = s.peerLeft p := by
  obtain ⟨-, hjob, hplot, -, -⟩ := s.peerLeft_frame p
  have hnet := s.net_peerLeft p
  have hmod := State.module_of_peer hp
  subst hmod
  have e : s.losePeer p.module .leave = (((s.peerLeft p).promoteMirror p.module).failOver p.module).drainBacklog := by
    simp only [State.losePeer, hp, hl, Bool.false_eq_true, if_false]
    rfl
  rw [e, State.promoteMirror_of_no_mirror, State.failOver_of_no_gathers, State.drainBacklog_of_nil]
  · rw [hnet]
    exact hback
  · rw [hnet]
    exact hg
  · rw [State.planLayers, hjob]
    intro l hmem
    rw [State.roleOf, hplot]
    exact hmirror l hmem

theorem exec_leave {s : State} {src : Nat} (hp : s.job.plan ≠ none) (hb : s.job.batch.stage ≠ .reload) :
    exec (.leave src) s = done (s.losePeer src .leave) := by
  have hplan : s.job.plan.isNone = false := Option.isNone_eq_false_iff.2 (Option.isSome_iff_ne_none.2 hp)
  show execLeave src s = _
  simp only [execLeave, hplan, hb, decide_false, Bool.or_self, Bool.false_eq_true, if_false]

/-! ### JOIN (R527, R564) -/

/-- The entry of a peer whose sequences begin anew on both sides (R564). -/
def PeerSt.begun (p : PeerSt) (gbps now : Nat) : PeerSt := { p.restart gbps now with joined := some 0 }

/-- The entry of a peer that is back. -/
def PeerSt.back (p : PeerSt) (gbps now : Nat) : PeerSt := { p.begun gbps now with lost := false, cause := none, contact := true, lastBeat := now }

theorem State.updPeer_of_peer {s : State} {m : Nat} {p : PeerSt} (hp : s.peer m = some p) (f : PeerSt → PeerSt) :
    s.updPeer m f = s.setPeer (f p) := by
  simp only [State.updPeer, hp]

/-- Of two entries written for one module, the later stands. -/
theorem State.setPeer_setPeer (s : State) {q q' : PeerSt} (h : q.module = q'.module) : (s.setPeer q).setPeer q' = s.setPeer q' := by
  have hmap : ∀ x : PeerSt, (if (if x.module = q.module then q else x).module = q'.module then q'
      else if x.module = q.module then q else x) = if x.module = q'.module then q' else x := fun x => by
    rw [← h]
    split <;> simp_all
  simp only [State.setPeer, List.map_map, Function.comp_def, hmap]

theorem exec_join {s : State} {src : Nat} {p : PeerSt} (hq : s.quiet) (hp : s.job.plan ≠ none) (hb : s.job.batch.stage ≠ .reload)
    (hback : s.net.backlog = []) (hpeer : s.peer src = some p) :
    exec (.join src) s = .next (s.setPeer (p.back (s.ifaceRate p.localGroup) s.micros)) := by
  have hplan : s.job.plan.isNone = false := Option.isNone_eq_false_iff.2 (Option.isSome_iff_ne_none.2 hp)
  have hmod : (p.begun (s.ifaceRate p.localGroup) s.micros).module = src := (State.module_of_peer hpeer : p.module = src)
  have hbegun : s.beginPeer src 0 = s.setPeer (p.begun (s.ifaceRate p.localGroup) s.micros) :=
    State.updPeer_of_peer hpeer _
  have hjoin : (s.beginPeer src 0).joinFrom src = s.setPeer (p.back (s.ifaceRate p.localGroup) s.micros) := by
    have htwice := s.setPeer_setPeer (q := p.begun (s.ifaceRate p.localGroup) s.micros) (q' := p.back (s.ifaceRate p.localGroup) s.micros) rfl
    rw [hbegun, State.joinFrom, State.updPeer_of_peer (State.peer_setPeer_self hpeer hmod)]
    exact (congrArg State.drainBacklog htwice).trans (State.drainBacklog_of_nil hback)
  show execJoin src s = _
  simp only [execJoin, hplan, hb, decide_false, Bool.or_self, Bool.false_eq_true, if_false, hjoin]
  exact done_of_job_eq hq rfl

/-- Settles O34: the equation of each command, and what it writes. -/
theorem ownersAndPeersChange : Obligations.OwnersAndPeersChange := by
  unfold Obligations.OwnersAndPeersChange
  intro s src hq hb hback
  refine ⟨fun layer step v hl hrole htag hrun => exec_alarms hq hl hb hrole htag hrun, fun layer tag hl hnew hrole => ?_,
    fun layer tag hl hrole hsched => ?_, fun p hplan hp hlost hg hmirror => ?_, fun p hplan hp => ?_⟩
  · rw [exec_takeover hl hb, State.takeoverFor_of_not_owner hrole, State.noteTakeover_new hnew]
    exact done_of_job_eq hq rfl
  · obtain ⟨r, hr⟩ := Option.ne_none_iff_exists'.1 hsched
    obtain ⟨hjob, hplot, hhal, hseq, hcores, hhbm⟩ := s.lostOwnership_frame layer r
    obtain ⟨hhand, hready, hsums⟩ := ((s.noteTakeover layer).setRole layer 4).dropLayer_gone layer
    refine ⟨s.lostOwnership layer r, ?_, ?_, ?_, by rwa [hplot], by rwa [hplot], by rwa [hhal], hseq, hcores, hhbm, hjob⟩
    · rw [exec_takeover hl hb, State.takeoverFor_of_owner hrole hr]
      exact done_of_job_eq hq hjob
    · rw [State.roleOf, hplot]
      exact Tab.get_set_self ..
    · rw [hhal]
      exact s.mem_takenOver_noteTakeover layer
  · have hmod : (p.gone .leave).module = src := (State.module_of_peer hp : p.module = src)
    obtain ⟨hseq, hjob, hplot, hcores, hhbm⟩ := s.peerLeft_frame p
    refine ⟨s.peerLeft p, ?_, ?_, fun m hm => ?_, hseq, hjob, hplot, hcores, hhbm⟩
    · rw [exec_leave hplan hb, State.losePeer_leave hp hlost hg hback hmirror, done_of_job_eq hq hjob]
    · rw [State.peer_peerLeft, State.peer_setPeer_self hp hmod]
      rfl
    · rw [State.peer_peerLeft, State.peer_setPeer_other (by rwa [hmod])]
  · have hmod : (p.back (s.ifaceRate p.localGroup) s.micros).module = src := (State.module_of_peer hp : p.module = src)
    exact ⟨_, _, exec_join hq hplan hb hback hp, State.peer_setPeer_self hp hmod, rfl, rfl, rfl, rfl, rfl, rfl, rfl, rfl, rfl,
      fun m hm => State.peer_setPeer_other (by rwa [hmod]), rfl⟩

end Sys2Proof.Machine
end

section
/-!
Byte memories in canonical form (`CoreSt.memOk`, `State.memOk`) and what an answer owes to O59 (`Sound`): the rules by which the later
lemmas go through the model's functions. A record update that leaves the memories alone keeps the predicate (`congr`, and `congr'`, which
compares the fields without unfolding), and so do a choice, a fold, and a write of one core, one stack or the host interface.
The lemmas are many and short, so they are elaborated one after another, as the tests are.
-/

namespace Sys2Proof.Machine

set_option Elab.async false

/-- A fold whose steps keep a memory in canonical form keeps it so. -/
theorem Memory.wf_foldl {α : Type} {f : Memory → α → Memory} {l : List α} {m : Memory} (h : Memory.wf m = true)
    (hf : ∀ m, Memory.wf m = true → ∀ x, Memory.wf (f m x) = true) : Memory.wf (l.foldl f m) = true :=
  List.foldlRecOn l f h fun m hm x _ => hf m hm x

/-- A stack's data space is in canonical form. -/
abbrev StackSt.memOk (x : StackSt) : Prop := Memory.wf x.mem = true

/-- Window C is in canonical form. -/
abbrev HostSt.memOk (x : HostSt) : Prop := Memory.wf x.windowC = true

theorem CoreSt.memOk.congr {c d : CoreSt} (h : c.memOk) (ha : d.act = c.act := by rfl) (hs : d.sbuf = c.sbuf := by rfl)
    (hi : d.istore = c.istore := by rfl) : d.memOk := by
  rwa [CoreSt.memOk, ha, hs, hi]

theorem CoreSt.memOk.congr' {c d : CoreSt} (h : c.memOk) (ha : d.act = c.act := by with_reducible rfl)
    (hs : d.sbuf = c.sbuf := by with_reducible rfl) (hi : d.istore = c.istore := by with_reducible rfl) : d.memOk := by
  rwa [CoreSt.memOk, ha, hs, hi]

theorem StackSt.memOk.congr {x y : StackSt} (h : x.memOk) (hm : y.mem = x.mem := by rfl) : y.memOk := by
  rwa [StackSt.memOk, hm]

theorem StackSt.memOk.congr' {x y : StackSt} (h : x.memOk) (hm : y.mem = x.mem := by with_reducible rfl) : y.memOk := by
  rwa [StackSt.memOk, hm]

theorem HostSt.memOk.congr {x y : HostSt} (h : x.memOk) (hw : y.windowC = x.windowC := by rfl) : y.memOk := by
  rwa [HostSt.memOk, hw]

theorem HostSt.memOk.congr' {x y : HostSt} (h : x.memOk) (hw : y.windowC = x.windowC := by with_reducible rfl) : y.memOk := by
  rwa [HostSt.memOk, hw]

theorem State.memOk.congr {s t : State} (h : s.memOk) (hc : t.cores = s.cores := by rfl) (hh : t.hbm = s.hbm := by rfl)
    (hw : t.host.windowC = s.host.windowC := by rfl) : t.memOk := by
  rwa [State.memOk, hc, hh, hw]

theorem State.memOk.congr' {s t : State} (h : s.memOk) (hc : t.cores = s.cores := by with_reducible rfl)
    (hh : t.hbm = s.hbm := by with_reducible rfl) (hw : t.host.windowC = s.host.windowC := by with_reducible rfl) : t.memOk := by
  rwa [State.memOk, hc, hh, hw]

variable {s : State}

theorem State.memOk.ite {p : Prop} [Decidable p] {t : State} (h : s.memOk) (ht : t.memOk) : (if p then s else t).memOk := by
  split
  · exact h
  · exact ht

theorem CoreSt.memOk.ite {p : Prop} [Decidable p] {c d : CoreSt} (h : c.memOk) (hd : d.memOk) : (if p then c else d).memOk := by
  split
  · exact h
  · exact hd

theorem StackSt.memOk.ite {p : Prop} [Decidable p] {c d : StackSt} (h : c.memOk) (hd : d.memOk) : (if p then c else d).memOk := by
  split
  · exact h
  · exact hd

theorem HostSt.memOk.ite {p : Prop} [Decidable p] {x y : HostSt} (h : x.memOk) (hy : y.memOk) : (if p then x else y).memOk := by
  split
  · exact h
  · exact hy

theorem State.memOk.foldl {α : Type} {f : State → α → State} {l : List α} (h : s.memOk)
    (hf : ∀ t, t.memOk → ∀ x, (f t x).memOk) : (l.foldl f s).memOk :=
  List.foldlRecOn l f h fun t ht x _ => hf t ht x

theorem CoreSt.memOk.foldl {α : Type} {f : CoreSt → α → CoreSt} {l : List α} {c : CoreSt} (h : c.memOk)
    (hf : ∀ t, t.memOk → ∀ x, (f t x).memOk) : (l.foldl f c).memOk :=
  List.foldlRecOn l f h fun t ht x _ => hf t ht x

theorem StackSt.memOk.foldl {α : Type} {f : StackSt → α → StackSt} {l : List α} {c : StackSt} (h : c.memOk)
    (hf : ∀ t, t.memOk → ∀ x, (f t x).memOk) : (l.foldl f c).memOk :=
  List.foldlRecOn l f h fun t ht x _ => hf t ht x

theorem State.memOk.host (h : s.memOk) : s.host.memOk := h.2.2
theorem State.memOk.core {n} (h : s.memOk) : (s.core n).memOk := State.wf_core h n
theorem State.memOk.stack {k} (h : s.memOk) : (s.stack k).memOk := State.wf_stack h k

theorem State.memOk.setCore {n c} (h : s.memOk) (hc : c.memOk) : (s.setCore n c).memOk := ⟨Tab.forall_set h.1 hc, h.2⟩
theorem State.memOk.setStack {k x} (h : s.memOk) (hx : x.memOk) : (s.setStack k x).memOk :=
  ⟨h.1, Tab.forall_set (P := fun y => StackSt.memOk y) h.2.1 hx, h.2.2⟩

theorem State.memOk.updCore {n f} (h : s.memOk) (hf : ∀ c, c.memOk → (f c).memOk) : (s.updCore n f).memOk := h.setCore (hf _ h.core)
theorem State.memOk.updStack {k f} (h : s.memOk) (hf : ∀ x, x.memOk → (f x).memOk) : (s.updStack k f).memOk := h.setStack (hf _ h.stack)
theorem State.memOk.updCores {l f} (h : s.memOk) (hf : ∀ n c, c.memOk → (f n c).memOk) : (s.updCores l f).memOk :=
  h.foldl fun _ ht n => ht.updCore (hf n)
theorem State.memOk.setHost {f} (h : s.memOk) (hf : ∀ x, x.memOk → (f x).memOk) : (s.setHost f).memOk := ⟨h.1, h.2.1, hf _ h.host⟩
theorem State.memOk.mapCores {f : Nat × CoreSt → Nat × CoreSt} {t : State} (h : s.memOk) (hf : ∀ x, x.2.memOk → (f x).2.memOk)
    (hc : t.cores = s.cores.map f := by rfl) (hh : t.hbm = s.hbm := by rfl) (hw : t.host.windowC = s.host.windowC := by rfl) : t.memOk := by
  refine ⟨?_, hh ▸ h.2.1, hw ▸ h.2.2⟩
  rw [hc]
  exact List.forall_mem_map.2 fun x hx => hf x (h.1 x hx)

theorem State.memOk.mapCores' {f : Nat × CoreSt → Nat × CoreSt} {t : State} (h : s.memOk) (hf : ∀ x, x.2.memOk → (f x).2.memOk)
    (hc : t.cores = s.cores.map f := by with_reducible rfl) (hh : t.hbm = s.hbm := by with_reducible rfl)
    (hw : t.host.windowC = s.host.windowC := by with_reducible rfl) : t.memOk := by
  refine ⟨?_, hh ▸ h.2.1, hw ▸ h.2.2⟩
  rw [hc]
  exact List.forall_mem_map.2 fun x hx => hf x (h.1 x hx)

/-- Whatever state a meaning answers, memories are canonical in it and nothing is left for job control. -/
def Sound (r : Res) : Prop := ∀ t, r = .next t → t.memOk ∧ t.quiet

theorem Sound.fault {f} : Sound (.fault f) := fun _ h => nomatch h
theorem Sound.next (h : s.memOk) (hq : s.quiet) : Sound (.next s) := by
  rintro _ ⟨⟩
  exact ⟨h, hq⟩
theorem Sound.ite {p : Prop} [Decidable p] {r q : Res} (h : Sound r) (ht : Sound q) : Sound (if p then r else q) := by
  split
  · exact h
  · exact ht

theorem Sound.withCore {n r} (h : Sound r) : Sound (withCore n r) := h.ite .fault
theorem Sound.withStack {n r} (h : Sound r) : Sound (withStack n r) := h.ite .fault
theorem Sound.withUnit {k u r} (h : Sound r) : Sound (withUnit k u r) := h.ite .fault
theorem Sound.withSheet {n r} (h : Sound r) : Sound (withSheet n r) := h.ite .fault
theorem Sound.withGroup {n r} (h : Sound r) : Sound (withGroup n r) := h.ite .fault
theorem Sound.withIface {n r} (h : Sound r) : Sound (withIface n r) := h.ite .fault
theorem Sound.withPort {n r} (h : Sound r) : Sound (withPort n r) := h.ite .fault
theorem Sound.withLink {n r} (h : Sound r) : Sound (withLink n r) := h.ite .fault
theorem Sound.withReg {n r} (h : Sound r) : Sound (withReg n r) := h.ite .fault

theorem CoreSt.memOk.reset : CoreSt.reset.memOk := ⟨rfl, rfl, rfl⟩
theorem StackSt.memOk.reset : StackSt.reset.memOk := rfl

end Sys2Proof.Machine
end

section
/-!
Memories stay canonical: the operations that the rows share. For each function of the model that returns a state, a core, a stack or a host
interface one lemma, named after the function, says that it keeps byte memories canonical; a proof reads as the function does.
-/

namespace Sys2Proof.Machine

set_option Elab.async false

variable {s : State} {c : CoreSt}

/-! ### Flags and counts of a core (R184, R222) -/

theorem CoreSt.memOk.addFlush {m} (h : c.memOk) : (c.addFlush m).memOk :=
  h.congr

theorem CoreSt.memOk.addConv {k} (h : c.memOk) : (c.addConv k).memOk :=
  h.congr

theorem CoreSt.memOk.addEnc {n} (h : c.memOk) : (c.addEnc n).memOk :=
  h.congr

theorem CoreSt.memOk.renewSram {mem a n} (h : c.memOk) : (c.renewSram mem a n).memOk :=
  h.congr

theorem CoreSt.memOk.addAccSat {b} (h : c.memOk) : (c.addAccSat b).memOk :=
  h.congr

theorem CoreSt.memOk.addCorrected {n} (h : c.memOk) : (c.addCorrected n).memOk :=
  h.congr

theorem CoreSt.memOk.addDexit {sat nonfin} (h : c.memOk) : (c.addDexit sat nonfin).memOk :=
  h.congr

theorem CoreSt.memOk.enter {wasted n} (h : c.memOk) : (c.enter wasted n).memOk :=
  h.congr

/-! ### The matrix array (R123 to R136) -/

theorem CoreSt.memOk.accWriteRow {r l} (h : c.memOk) : (c.accWriteRow r l).memOk :=
  h.congr

/-- The core as the rows entered so far have left it. -/
def RowRes.core : RowRes → CoreSt
  | .ok c => c
  | .bad c _ _ => c

theorem CoreSt.memOk.mmulRow {modes f vs av m} (h : c.memOk) : (mmulRow modes f vs av m c).core.memOk := by
  unfold Machine.mmulRow
  dsimp only
  split
  · exact h.addCorrected
  · split
    · exact h.addCorrected.accWriteRow.addAccSat
    · split
      · exact h.addCorrected.accWriteRow.accWriteRow.addFlush
      · exact h.addCorrected.accWriteRow.addFlush

theorem CoreSt.memOk.mmulRowZero {f m} (h : c.memOk) : (mmulRowZero f m c).core.memOk := by
  unfold Machine.mmulRowZero
  dsimp only
  split
  · exact h.addCorrected
  · exact CoreSt.memOk.ite h.addCorrected.accWriteRow.accWriteRow h.addCorrected.accWriteRow

theorem CoreSt.memOk.enterRow {f m wasted} (h : c.memOk) : (c.enterRow f m wasted).memOk :=
  h.enter

theorem CoreSt.memOk.mmulZeroRows {f l r} (h : c.memOk) (hr : mmulZeroRows f l c = r) : r.core.memOk := by
  induction l generalizing c with
  | nil => exact hr ▸ h
  | cons m l ih =>
    have hm := h.mmulRowZero (f := f) (m := m)
    unfold Machine.mmulZeroRows at hr
    split at hr
    · next hx =>
      rw [hx] at hm
      exact ih hm.enterRow hr
    · next hx =>
      rw [hx] at hm
      exact hr ▸ hm

theorem CoreSt.memOk.mmulSlotRows {modes f vs rows m k} (h : c.memOk) : (mmulSlotRows modes f vs rows m k c).1.core.memOk := by
  induction rows generalizing m k c with
  | nil => exact h
  | cons x rows ih =>
    have hr := h.mmulRow (modes := modes) (f := f) (vs := vs) (av := x.1) (m := m)
    unfold Machine.mmulSlotRows
    split
    · next hx =>
      rw [hx] at hr
      exact ih hr.enterRow
    · next hx =>
      rw [hx] at hr
      exact hr

/-! ### The state after reset -/

theorem HostSt.reset_memOk : HostSt.reset.memOk := by decide

/-! ### Data lines of a stack (R304 to R311) -/

theorem StackSt.memOk.noteInner {x : StackSt} {l} (h : x.memOk) : (x.noteInner l).memOk :=
  .ite h h.congr

theorem StackSt.memOk.innerAgain {x : StackSt} {line} (h : x.memOk) : (x.innerAgain line).memOk :=
  .ite h h.noteInner

theorem StackSt.memOk.scanLine {r : Scan} {l} (h : r.after.memOk) : (r.line l).after.memOk := by
  unfold Scan.line
  dsimp only
  split <;> exact StackSt.memOk.ite h h.innerAgain

theorem StackSt.memOk.innerReports {x : StackSt} {sel} (h : x.memOk) : (x.innerReports sel).memOk :=
  h.noteInner

theorem StackSt.memOk.scan {x : StackSt} {sel} (h : x.memOk) : (x.scan sel).after.memOk :=
  List.foldlRecOn (motive := fun r : Scan => r.after.memOk) _ _ h.innerReports fun _ hr _ _ => hr.scanLine

theorem StackSt.memOk.readRange {x : StackSt} {a n} (h : x.memOk) : (x.readRange a n).after.memOk := h.scan

theorem StackSt.memOk.wrote {x : StackSt} {line} (h : x.memOk) : (x.wrote line).memOk :=
  h.congr

theorem StackSt.memOk.write {x : StackSt} {a l who} (h : x.memOk) : (x.write a l who).memOk := by
  unfold StackSt.write
  exact StackSt.memOk.foldl (Memory.wf_writeN (Memory.wf_foldl h fun _ hm _ => Memory.wf_writeN hm _ _) _ _) fun _ hy _ =>
    .ite (Memory.wf_writeN hy _ _) hy.congr

/-! ### Cores, stacks, events and what leaves the module -/

theorem CoreSt.memOk.setQueue {q x} (h : c.memOk) : (c.setQueue q x).memOk := by
  unfold CoreSt.setQueue
  split <;> exact h.congr'

theorem State.memOk.setCoreState {n x} (h : s.memOk) : (s.setCoreState n x).memOk :=
  h.congr

theorem State.memOk.writeStack {k a l who} (h : s.memOk) : (s.writeStack k a l who).memOk :=
  h.updStack fun _ hy => hy.write

theorem State.memOk.tableRead {e} (h : s.memOk) : (s.tableRead e).memOk := by
  unfold State.tableRead
  refine .ite h ?_
  dsimp only
  split <;> exact h.congr'

theorem State.memOk.setRec {slot r} (h : s.memOk) : (s.setRec slot r).memOk :=
  .ite h.congr h.congr

theorem State.memOk.fresh (h : s.memOk) : s.fresh.2.memOk :=
  h.congr

theorem State.memOk.flushOn {cores fl} (h : s.memOk) : (s.flushOn cores fl).memOk := by
  unfold State.flushOn
  refine .ite h ((h.foldl (fun _ ht _ => ht.fresh.updCore (fun _ hc => hc.addFlush))).foldl (fun _ ht _ => ?_))
  dsimp only
  split
  · exact ht.fresh.updCore fun _ hc => hc.addFlush
  · exact ht

theorem State.memOk.send {o} (h : s.memOk) : (s.send o).memOk :=
  h.congr

theorem State.memOk.until {t} (h : s.memOk) : (s.until t).memOk :=
  h.congr

theorem State.memOk.elapse {t} (h : s.memOk) : (s.elapse t).memOk :=
  h.congr

theorem State.memOk.vector {v} (h : s.memOk) : (s.vector v).memOk :=
  .ite h (.ite h.congr h.send)

theorem State.memOk.unmask (h : s.memOk) : s.unmask.memOk :=
  h.foldl fun _ ht _ => .ite ht.congr.send ht

theorem State.memOk.nvBegin {old} (h : s.memOk) : (s.nvBegin old).memOk :=
  h.congr

theorem State.memOk.nvRestore {i} (h : s.memOk) : (s.nvRestore i).memOk :=
  h.congr

theorem State.memOk.copyEvents {n} (h : s.memOk) : (s.copyEvents n).memOk := by
  induction n generalizing s with
  | zero => exact h
  | succ n ih =>
    unfold State.copyEvents
    refine .ite ?_ h
    split
    · exact h
    · exact ih (State.memOk.vector ⟨h.1, h.2.1, Memory.wf_writeN h.host _ _⟩)

theorem State.memOk.logged {e} (h : s.memOk) : (s.logged e).memOk :=
  h.congr

theorem State.memOk.notifyEvent {e} (h : s.memOk) : (s.notifyEvent e).memOk := by
  unfold State.notifyEvent
  exact h.send.congr'

theorem State.memOk.event {name cls kind source info} (h : s.memOk) : (s.event name cls kind source info).memOk :=
  .copyEvents (.ite h.logged.notifyEvent h.logged)

theorem State.memOk.info {name info} (h : s.memOk) : (s.info name info).memOk :=
  h.event

theorem State.memOk.halEvent {name cls g info} (h : s.memOk) : (s.halEvent name cls g info).memOk :=
  h.congr.event

theorem State.memOk.actionStart {index sub} (h : s.memOk) : (s.actionStart index sub).memOk :=
  h.congr

theorem State.memOk.actionEnd {index sub status} (h : s.memOk) : (s.actionEnd index sub status).memOk :=
  h.congr

theorem State.memOk.actionDone {index sub status} (h : s.memOk) : (s.actionDone index sub status).memOk :=
  h.actionStart.actionEnd

/-! ### Requests for a reset and NV pulses (R635, R691) -/

theorem State.memOk.askReset {code scope} (h : s.memOk) : (s.askReset code scope).memOk := by
  unfold State.askReset
  refine .ite h ?_
  split
  · exact h.congr'
  · exact .ite h.congr' h

theorem State.memOk.nvEnd (h : s.memOk) : s.nvEnd.memOk := by
  unfold State.nvEnd
  split
  · exact h
  · exact .ite h.nvRestore h.congr'

/-! ### Counters and captures (R747 to R763) -/

theorem State.memOk.count {b ev q v clocks} (h : s.memOk) : (s.count b ev q v clocks).memOk :=
  .ite (h.updCore (fun _ hc => hc.congr)) h.congr

theorem CoreSt.memOk.wasteStep {ctl} (h : c.memOk) : (c.wasteStep ctl).memOk :=
  h.congr

theorem State.memOk.captureBlock {b interval seq} (h : s.memOk) : (s.captureBlock b interval seq).memOk :=
  .ite h (.ite h.congr h.congr)

theorem State.memOk.sendCapture {kind step attempt boundary} (h : s.memOk) : (s.sendCapture kind step attempt boundary).memOk :=
  h.congr

theorem State.memOk.hadMessage {p l} (h : s.memOk) : (s.hadMessage p l).memOk :=
  h.congr

theorem State.memOk.captureAtRelease {l} (h : s.memOk) : (s.captureAtRelease l).memOk := by
  unfold State.captureAtRelease
  split
  · exact h
  · exact (h.foldl (fun _ ht _ => ht.captureBlock)).hadMessage

/-! ### Packets and their routes (R377 to R388) -/

theorem State.memOk.setLink {l x} (h : s.memOk) : (s.setLink l x).memOk :=
  h.congr

theorem State.memOk.linkDown {l} (h : s.memOk) : (s.linkDown l).memOk :=
  h.setLink

theorem State.memOk.routerCount {n f} (h : s.memOk) : (s.routerCount n f).memOk :=
  h.congr

theorem State.memOk.markRouters {l} (h : s.memOk) : (s.markRouters l).memOk :=
  h.congr

theorem State.memOk.numbered {src vc n} (h : s.memOk) : (s.numbered src vc n).memOk :=
  h.congr

theorem State.memOk.discarded {x n} (h : s.memOk) : (s.discarded x n).memOk :=
  h.routerCount

theorem State.memOk.flitsOut {p l} (h : s.memOk) : (s.flitsOut p l).memOk :=
  h.foldl fun _ ht _ => ht.count

theorem State.memOk.landed {l} (h : s.memOk) : (s.landed l).memOk :=
  h.foldl fun _ ht _ => ht.flitsOut

theorem State.memOk.carried {src vc here dst l} (h : s.memOk) : (s.carried src vc here dst l).memOk :=
  h.numbered.landed

theorem State.memOk.passes {n d} (h : s.memOk) : (s.passes n d).memOk :=
  .ite h (h.foldl (fun _ ht _ => ht.tableRead))

theorem State.memOk.routed {n d count go} (h : s.memOk) (hgo : ∀ t, t.memOk → (go t).memOk) : (s.routed n d count go).memOk := by
  unfold State.routed
  dsimp only
  split
  · exact hgo _ h.passes
  · exact h.passes.discarded

theorem State.memOk.toStation {n count} (h : s.memOk) : (s.toStation n count).memOk :=
  .ite h.congr h

theorem State.memOk.toTarget {n t vc count go} (h : s.memOk) (hgo : ∀ x x1 t1, t1.memOk → (go x x1 t1).memOk) :
    (s.toTarget n t vc count go).memOk := by
  unfold State.toTarget
  refine .ite h.tableRead.discarded ?_
  split
  · exact h.tableRead.discarded
  · exact .ite h.tableRead.discarded (h.tableRead.routed (fun _ ht1 => hgo _ _ _ ht1.toStation))

theorem State.memOk.fromStation {k n count go} (h : s.memOk) (hgo : ∀ x x1 t, t.memOk → (go x x1 t).memOk) :
    (s.fromStation k n count go).memOk := by
  unfold State.fromStation
  dsimp only
  split
  · exact h.tableRead
  · exact h.tableRead.routed fun _ ht => hgo _ _ _ ht

theorem State.memOk.ferry {a b vc bytes} (h : s.memOk) : (s.ferry a b vc bytes).memOk :=
  .ite h h.numbered

theorem State.memOk.ferryIn {g k bytes} (h : s.memOk) : (s.ferryIn g k bytes).memOk :=
  h.ferry

theorem State.memOk.ferryOut {g k bytes} (h : s.memOk) : (s.ferryOut g k bytes).memOk :=
  h.ferry

theorem State.memOk.reorderWait {n waits} (h : s.memOk) : (s.reorderWait n waits).memOk :=
  .ite h.routerCount h

theorem State.memOk.measure (h : s.memOk) : s.measure.memOk :=
  h.congr

theorem State.memOk.estimate (h : s.memOk) : s.estimate.memOk :=
  h.congr

theorem State.memOk.nextEpoch (h : s.memOk) : s.nextEpoch.memOk :=
  h.congr

theorem State.memOk.routersFail {l} (h : s.memOk) : (s.routersFail l).memOk :=
  .ite h h.markRouters.nextEpoch

theorem State.memOk.darken {sheet} (h : s.memOk) : (s.darken sheet).memOk := by
  unfold State.darken
  exact .ite h h.markRouters.congr'.nextEpoch

/-! ### The Fetch engine and the array input (R263 to R273) -/

theorem CoreSt.memOk.loadShadow {w} (h : c.memOk) : (c.loadShadow w).memOk :=
  h.congr.addEnc

theorem CoreSt.memOk.loadPlot {w} (h : c.memOk) : (c.loadPlot w).memOk :=
  h.congr.addEnc

theorem CoreSt.memOk.swapSets (h : c.memOk) : c.swapSets.memOk :=
  h.congr

theorem CoreSt.memOk.fillSlot {r} (h : c.memOk) : (c.fillSlot r).1.memOk :=
  h.congr.addEnc

theorem CoreSt.memOk.pumpFload {n} (h : c.memOk) : (c.pumpFload n).memOk := by
  induction n generalizing c with
  | zero => exact h
  | succ n ih =>
    unfold CoreSt.pumpFload
    split
    · exact h
    · refine .ite h ?_
      dsimp only
      split <;> exact ih h.fillSlot.congr'

theorem CoreSt.memOk.pumpFwgt (h : c.memOk) : c.pumpFwgt.memOk := by
  unfold CoreSt.pumpFwgt
  split
  · exact h
  · exact .ite h h.congr

theorem CoreSt.memOk.enterSlot {modes} (h : c.memOk) : (c.enterSlot modes).core.memOk := by
  unfold CoreSt.enterSlot
  split
  · dsimp only
    split
    · exact h
    · split
      · next hr => exact CoreSt.memOk.congr (congrArg (fun r : RowRes × Nat × Nat => r.1.core) hr ▸ h.mmulSlotRows :)
      · next hr =>
        have hc := (congrArg (fun r : RowRes × Nat × Nat => r.1.core) hr ▸ h.mmulSlotRows :)
        split <;> exact CoreSt.memOk.congr hc
  · exact h

theorem CoreSt.memOk.pump {modes n k} (h : c.memOk) : (c.pump modes n k).1.memOk := by
  induction n generalizing c k with
  | zero => exact h
  | succ n ih =>
    have hc : (((c.pumpFload 8).pumpFwgt).enterSlot modes).core.memOk := h.pumpFload.pumpFwgt.enterSlot
    unfold CoreSt.pump
    dsimp only
    split
    · exact ih hc
    · exact hc

theorem CoreSt.memOk.fillPlot (h : c.memOk) : c.fillPlot.memOk := by
  unfold CoreSt.fillPlot
  split
  · exact h.congr'
  · exact h

theorem CoreSt.memOk.enterPlot {modes} (h : c.memOk) : (c.enterPlot modes).core.memOk := by
  unfold CoreSt.enterPlot
  split
  · dsimp only
    split
    · next hr => exact CoreSt.memOk.congr (congrArg (fun r : RowRes × Nat × Nat => r.1.core) hr ▸ h.mmulSlotRows :)
    · next hr =>
      have hc := (congrArg (fun r : RowRes × Nat × Nat => r.1.core) hr ▸ h.mmulSlotRows :)
      split <;> exact CoreSt.memOk.congr hc
  · exact h

theorem CoreSt.memOk.pumpPlotFwgt (h : c.memOk) : c.pumpPlotFwgt.memOk := by
  unfold CoreSt.pumpPlotFwgt
  split
  · exact h.congr
  · exact h

theorem CoreSt.memOk.pumpPlot {modes n k} (h : c.memOk) : (c.pumpPlot modes n k).1.memOk := by
  induction n generalizing c k with
  | zero => exact h
  | succ n ih =>
    have hc := h.fillPlot.pumpPlotFwgt.enterPlot (modes := modes)
    unfold CoreSt.pumpPlot
    dsimp only
    split
    · exact ih hc
    · exact hc

/-! ### Sending of messages (R459, R556) -/

theorem State.memOk.setPeer {p} (h : s.memOk) : (s.setPeer p).memOk :=
  h.congr

theorem State.memOk.updPeer {m f} (h : s.memOk) : (s.updPeer m f).memOk := by
  unfold State.updPeer
  split
  · exact h.setPeer
  · exact h

theorem State.memOk.netCount {i f} (h : s.memOk) : (s.netCount i f).memOk :=
  .ite h h.congr

theorem State.memOk.frameBytes {i direction payload} (h : s.memOk) : (s.frameBytes i direction payload).memOk :=
  .ite h h.count

theorem State.memOk.resolve {i} (h : s.memOk) : (s.resolve i).memOk :=
  .ite h h.congr.send

theorem State.memOk.messageOn {p i m} (h : s.memOk) : (s.messageOn p i m).memOk :=
  (h.resolve.setPeer.netCount.foldl (fun _ ht _ => ht.frameBytes)).send

theorem State.memOk.waitSend {w} (h : s.memOk) : (s.waitSend w).memOk :=
  h.congr

theorem State.memOk.message {dst group port m} (h : s.memOk) : (s.message dst group port m).memOk := by
  unfold State.message
  split
  · exact h.info
  · exact .ite h.info (.ite h (.ite h.waitSend h.messageOn))

theorem State.memOk.beat {p m} (h : s.memOk) : (s.beat p m).memOk :=
  .ite h.waitSend h.messageOn

theorem State.memOk.drainBacklog (h : s.memOk) : s.drainBacklog.memOk :=
  .ite h.congr (h.congr.foldl (fun _ ht _ => ht.message))

theorem State.memOk.broadcast {m} (h : s.memOk) : (s.broadcast m).memOk :=
  h.foldl fun _ ht _ => ht.message

/-! ### Stream copies and code records (R331, R340) -/

theorem State.memOk.askStop {status} (h : s.memOk) : (s.askStop status).memOk :=
  h.congr

theorem State.memOk.askB {f} (h : s.memOk) : (s.askB f).memOk :=
  h.congr

theorem State.memOk.askC {f} (h : s.memOk) : (s.askC f).memOk :=
  h.congr

theorem State.memOk.counterRaise {k i inc} (h : s.memOk) : (s.counterRaise k i inc).memOk :=
  .ite (h.updStack (fun _ hy => hy.congr)) (((h.updStack (fun _ hy => hy.congr)).event).askStop)

theorem State.memOk.counterTake {k i thr} (h : s.memOk) : (s.counterTake k i thr).memOk :=
  h.updStack fun _ hy => hy.congr

theorem State.memOk.writeItem {l k step part n data} (h : s.memOk) : (s.writeItem l k step part n data).memOk := by
  unfold State.writeItem
  split
  · exact h
  · exact .ite h.writeStack.congr' h

theorem State.memOk.codesDone {l k step} (h : s.memOk) : (s.codesDone l k step).memOk :=
  .ite h.congr h

theorem State.memOk.copyDone {l k step} (h : s.memOk) : (s.copyDone l k step).memOk := by
  unfold State.copyDone
  refine .ite ?_ h
  dsimp only
  split
  · exact .ite ((h.congr'.updStack (fun _ hy => hy.congr')).counterRaise) (h.congr'.updStack (fun _ hy => hy.congr'))
  · exact h.congr'.updStack fun _ hy => hy.congr'

theorem State.memOk.writeItems {l k step part n ds} (h : s.memOk) : (s.writeItems l k step part ds n).memOk := by
  induction ds generalizing s n with
  | nil => exact h
  | cons d ds ih => exact ih h.writeItem

theorem State.memOk.applyCopy {k hdr} (h : s.memOk) : (s.applyCopy k hdr).memOk := by
  unfold State.applyCopy
  split
  · exact h
  · refine .ite h (.copyDone (.ite (.codesDone (.writeItems ?_)) (.writeItems ?_)))
    all_goals
      split
      · exact .ite h h.congr'
      · exact h

theorem State.memOk.copyWrite {k hdr} (h : s.memOk) : (s.copyWrite k hdr).memOk := by
  unfold State.copyWrite
  refine .ite h ?_
  split
  · exact h.applyCopy
  · exact .ite h.applyCopy (h.updStack (fun _ hy => hy.congr'))

theorem State.memOk.copyWriteAll {hdr} (h : s.memOk) : (s.copyWriteAll hdr).memOk := by
  unfold State.copyWriteAll
  split
  · exact h
  · exact h.foldl fun _ ht _ => ht.copyWrite

theorem State.memOk.releaseCopies {k layer} (h : s.memOk) : (s.releaseCopies k layer).memOk := by
  unfold State.releaseCopies
  split
  · exact (h.counterTake.updStack (fun _ hy => hy.congr')).foldl fun _ ht _ => ht.applyCopy
  · exact h

theorem State.memOk.flushOf {sel} (h : s.memOk) : (s.flushOf sel).memOk := by
  unfold State.flushOf
  exact h.foldl fun _ ht _ => .ite ht ((ht.updStack (fun _ hy => hy.congr')).foldl (fun _ ht1 _ => ht1.applyCopy))

theorem State.memOk.flushHeld (h : s.memOk) : s.flushHeld.memOk := by
  unfold State.flushHeld
  exact h.flushOf

theorem State.memOk.flushCodes (h : s.memOk) : s.flushCodes.memOk := by
  unfold State.flushCodes
  exact h.flushOf

theorem State.memOk.sendDown {d} (h : s.memOk) : (s.sendDown d).memOk :=
  h.foldl fun _ ht _ => ht.message

theorem State.memOk.noteDown {d} (h : s.memOk) : (s.noteDown d).memOk :=
  h.congr

theorem State.memOk.originDown {d} (h : s.memOk) : (s.originDown d).memOk :=
  h.noteDown.copyWriteAll.sendDown

/-! ### Halyard sums (R448 to R458) -/

theorem State.memOk.halCount {g f} (h : s.memOk) : (s.halCount g f).memOk :=
  h.congr

theorem State.memOk.noteForward {layer tile stamp own} (h : s.memOk) : (s.noteForward layer tile stamp own).memOk :=
  h.congr

theorem State.memOk.dropSum {o} (h : s.memOk) : (s.dropSum o).memOk :=
  h.congr

theorem State.memOk.putSum {o} (h : s.memOk) : (s.putSum o).memOk := by
  unfold State.putSum
  exact h.dropSum.congr'.halCount

theorem State.memOk.updateReady {layer step} (h : s.memOk) : (s.updateReady layer step).memOk :=
  .ite h h.congr

theorem State.memOk.handOver {o v} (h : s.memOk) : (s.handOver o v).memOk :=
  .ite h.originDown (.ite (.updateReady (.congr (.ite h.halCount.halEvent h))) (.congr (.ite h.halCount.halEvent h)))

theorem State.memOk.overflowSum {o} (h : s.memOk) : (s.overflowSum o).memOk :=
  h.dropSum.halEvent.askStop

theorem State.memOk.forwardSum {c o own gaps} (h : s.memOk) : (s.forwardSum c o own gaps).memOk := by
  unfold State.forwardSum
  dsimp only
  split
  · exact h.dropSum
  · refine .ite h.dropSum.noteForward.overflowSum (.ite (.ite h.dropSum.noteForward.halCount h.dropSum.noteForward.halCount.handOver) ?_)
    split
    · exact h.dropSum.noteForward.halCount.halCount.message
    · exact h.dropSum.noteForward.halCount.halCount.halEvent

theorem State.memOk.tryForward {c o} (h : s.memOk) : (s.tryForward c o).memOk :=
  .ite h.overflowSum (.ite (.ite h.forwardSum h.putSum) (.ite h.forwardSum (.ite h.forwardSum h.putSum)))

theorem State.memOk.ownJoin {c layer tile step round chain m n v dup} (h : s.memOk) (hdup : ∀ t, t.memOk → (dup t).memOk) :
    (s.ownJoin c layer tile step round chain m n v dup).memOk :=
  .ite (hdup _ h) h.tryForward

theorem State.memOk.ownComplete {layer tile step round chain m n v} (h : s.memOk) :
    (s.ownComplete layer tile step round chain m n v).memOk := by
  unfold State.ownComplete
  split
  · exact h
  · exact .ite h.tableRead.halCount (.ite h.tableRead.halCount (h.tableRead.ownJoin (fun _ ht => ht.halCount)))

theorem State.memOk.sumArrives {g b} (h : s.memOk) : (s.sumArrives g b).memOk := by
  unfold State.sumArrives
  dsimp only
  split
  · exact h.halCount.halEvent
  · refine .ite h.tableRead.halCount.halEvent (.ite h.tableRead (.ite h.tableRead.halCount ?_))
    split <;> exact h.tableRead.tryForward

theorem State.memOk.forwardOnLeave (h : s.memOk) : s.forwardOnLeave.memOk := by
  unfold State.forwardOnLeave
  refine (h.foldl (fun _ ht _ => ?_)).congr'
  split
  · exact .ite ht.forwardSum ht
  · exact ht

theorem State.memOk.abandonSums {first target} (h : s.memOk) : (s.abandonSums first target).memOk := by
  unfold State.abandonSums
  refine h.congr'.foldl (fun _ ht _ => ?_)
  split
  · exact ht.forwardSum
  · exact ht.dropSum

end Sys2Proof.Machine
end

section
/-!
Memories stay canonical: stream units, job control, and what the engine queues share.
-/

namespace Sys2Proof.Machine

set_option Elab.async false

variable {s : State} {c : CoreSt}

/-! ### Stream units (R327 to R336) -/

theorem State.memOk.setUnit {k u x} (h : s.memOk) : (s.setUnit k u x).memOk :=
  h.updStack fun _ hy => hy.congr

theorem State.memOk.askCredit {k u l} (h : s.memOk) : (s.askCredit k u l).memOk :=
  h.fromStation fun _ _ _ ht => ht.numbered.setUnit

theorem State.memOk.beginRepeat {k u d x} (h : s.memOk) : (s.beginRepeat k u d x).memOk :=
  .ite (h.setUnit.foldl (fun _ ht _ => ht.askCredit)) h.setUnit

theorem State.memOk.enterDesc {k u pos} (h : s.memOk) : (s.enterDesc k u pos).memOk :=
  .ite h.setUnit (.ite h.setUnit h.beginRepeat)

theorem State.memOk.startUnits (h : s.memOk) : s.startUnits.memOk :=
  h.foldl fun _ ht _ => ht.enterDesc

theorem State.memOk.askGather {m g rest use} (h : s.memOk) : (s.askGather m g rest use).memOk :=
  h.congr.message

theorem State.memOk.noHolder {k i} (h : s.memOk) : (s.noHolder k i).memOk :=
  .ite h.info.event h.info.event.askB

theorem State.memOk.askHolders {k i e g again} (h : s.memOk) : (s.askHolders k i e g again).memOk := by
  unfold State.askHolders
  split
  · exact h.foldl fun _ ht _ => ht.askGather
  · exact h.noHolder

theorem State.memOk.startGathers {step} (h : s.memOk) : (s.startGathers step).memOk := by
  unfold State.startGathers
  exact h.foldl fun _ ht _ => ht.foldl (fun _ ht1 _ => .ite ht1.askHolders.askHolders ht1.askHolders)

theorem State.memOk.stopUnits (h : s.memOk) : s.stopUnits.memOk :=
  ⟨h.1, List.forall_mem_map.2 h.2.1, h.2.2⟩

/-! ### Job control (R78, R115, R607, R631) -/

theorem CoreSt.memOk.clearPlot (h : c.memOk) : c.clearPlot.memOk :=
  h.congr

theorem CoreSt.memOk.blankPlot (h : c.memOk) : c.blankPlot.memOk :=
  h.congr

theorem CoreSt.memOk.stopPlot (h : c.memOk) : c.stopPlot.memOk :=
  h.congr

theorem State.memOk.stopCores (h : s.memOk) : s.stopCores.memOk :=
  h.updCores fun _ _ hc => hc.congr

theorem State.memOk.haltCores (h : s.memOk) : s.haltCores.memOk :=
  h.updCores fun _ _ hc => hc.congr

theorem State.memOk.stopAll (h : s.memOk) : s.stopAll.memOk :=
  h.stopCores.stopUnits.congr

theorem State.memOk.noteAborted {k} (h : s.memOk) : (s.noteAborted k).memOk :=
  .ite h h.info

theorem State.memOk.endCheckpoint (h : s.memOk) : s.endCheckpoint.memOk :=
  .ite h h.congr.noteAborted

theorem State.memOk.endBatch (h : s.memOk) : s.endBatch.memOk :=
  h.congr

theorem State.memOk.freeRecords (h : s.memOk) : s.freeRecords.memOk :=
  h.congr

theorem State.memOk.controlAll {sub layer step value} (h : s.memOk) : (s.controlAll sub layer step value).memOk :=
  h.broadcast

theorem State.memOk.leaveSteps (h : s.memOk) : s.leaveSteps.memOk :=
  h.stopAll.endCheckpoint.forwardOnLeave.controlAll.congr

theorem State.memOk.noteStep {before} (h : s.memOk) : (s.noteStep before).memOk :=
  .ite h h.vector

theorem State.memOk.stopJob {status name cls} (h : s.memOk) : (s.stopJob status name cls).memOk := by
  unfold State.stopJob
  exact h.leaveSteps.freeRecords.congr'.congr'.event.sendCapture.noteStep

theorem State.memOk.unloadPlan {role} (h : s.memOk) : (s.unloadPlan role).memOk :=
  h.stopAll.endCheckpoint.freeRecords.noteStep.congr

theorem State.memOk.leaveJob (h : s.memOk) : s.leaveJob.memOk :=
  .ite h h.leaveSteps.unloadPlan.event

theorem CoreSt.memOk.clearRun (h : c.memOk) : c.clearRun.memOk :=
  h.congr

theorem CoreSt.memOk.release {regions free} (h : c.memOk) : (c.release regions free).memOk :=
  h.congr

theorem CoreSt.memOk.loadPennants {l} (h : c.memOk) : (c.loadPennants l).memOk :=
  h.congr

theorem State.memOk.loadPennants (h : s.memOk) : s.loadPennants.memOk := by
  unfold State.loadPennants
  split
  · exact h
  · exact h.foldl fun _ ht _ => ht.updCore (fun _ hc => hc.loadPennants)

theorem State.memOk.loadCounters (h : s.memOk) : s.loadCounters.memOk := by
  unfold State.loadCounters
  split
  · exact h
  · exact h.foldl fun _ ht _ => ht.updStack (fun _ hy => hy.congr')

theorem State.memOk.releaseQueues (h : s.memOk) : s.releaseQueues.memOk := by
  unfold State.releaseQueues
  split
  · exact h
  · dsimp only
    refine .startGathers ?_
    refine .startUnits ?_
    exact h.captureAtRelease.foldl fun _ ht _ => ht.fresh.updCore fun _ hc => hc.release

theorem State.memOk.dropGathers (h : s.memOk) : s.dropGathers.memOk :=
  h.congr

theorem State.memOk.restoreFrom {a} (h : s.memOk) : (s.restoreFrom a).memOk := by
  unfold State.restoreFrom
  split
  · exact h
  · exact h.foldl fun _ ht _ => ht.updCore (fun _ hc => hc.congr')

theorem State.memOk.restoreScales {r} (h : s.memOk) : (s.restoreScales r).memOk :=
  h.restoreFrom

theorem State.memOk.rewind {r} (h : s.memOk) : (s.rewind r).memOk := by
  unfold State.rewind
  exact (((((h.updCores (fun _ _ hc => hc.clearRun)).loadPennants).loadCounters).restoreScales).setRec).congr'

theorem State.memOk.beginReplay (h : s.memOk) : s.beginReplay.memOk := by
  unfold State.beginReplay
  split
  · exact h
  · refine .congr' (.rewind ?_)
    refine .dropGathers (.congr' (h.haltCores.stopUnits.updCores ?_))
    exact fun _ _ hc => hc.wasteStep

theorem State.memOk.setArrivals {target} (h : s.memOk) : (s.setArrivals target).memOk := by
  unfold State.setArrivals
  split
  · exact h
  · exact h.foldl fun _ ht _ => ht.updStack (fun _ hy => hy.congr')

theorem State.memOk.realign {scales first target} (h : s.memOk) : (s.realign scales first target).memOk := by
  unfold State.realign
  dsimp only
  refine .restoreFrom ?_
  refine .noteStep ?_
  refine .loadPennants ?_
  refine .dropGathers ?_
  refine .updCores (.congr' (.setArrivals ?_)) fun _ _ hc => hc.clearRun
  refine .loadCounters ?_
  refine .flushHeld ?_
  refine .abandonSums ?_
  refine .info ?_
  exact h.stopAll.congr'

theorem State.memOk.replayOrRealign (h : s.memOk) : s.replayOrRealign.memOk := by
  unfold State.replayOrRealign
  split
  · exact .ite h h.realign
  · exact .ite h.beginReplay h.realign

theorem State.memOk.startBatch {fs} (h : s.memOk) : (s.startBatch fs).memOk :=
  h.stopAll.congr

theorem State.memOk.classB {fs} (h : s.memOk) : (s.classB fs).memOk :=
  .ite (((h.foldl (fun _ ht _ => ht.event)).congr).startBatch)
    (.ite (((h.foldl (fun _ ht _ => ht.event)).congr).congr) (((h.foldl (fun _ ht _ => ht.event)).congr).congr))

theorem State.memOk.loseC {a} (h : s.memOk) : (s.loseC a).memOk := by
  unfold State.loseC
  split
  · exact h.darken
  · exact h.darken
  · exact h.routersFail
  · exact h

theorem State.memOk.classC {fs} (h : s.memOk) : (s.classC fs).memOk :=
  (((h.foldl (fun _ ht _ => ht.loseC)).foldl (fun _ ht _ => ht.event)).congr).leaveJob

theorem State.memOk.clearWants (h : s.memOk) : s.clearWants.memOk :=
  h.congr

theorem State.memOk.settle (h : s.memOk) : s.settle.memOk := by
  unfold State.settle
  refine .clearWants (.ite ?_ (.classC ?_))
  all_goals
    split
    · exact .ite (.stopJob (.ite h.clearWants h.clearWants.classB)) (.ite h.clearWants h.clearWants.classB)
    · exact .ite h.clearWants h.clearWants.classB

theorem Sound.done (h : s.memOk) : Sound (done s) :=
  .next h.settle s.quiet_settle

/-! ### What stands in front of a queue (R79, R86) -/

theorem CoreSt.memOk.setPennant {i v} (h : c.memOk) : (c.setPennant i v).memOk :=
  h.congr

theorem CoreSt.memOk.setPennantOf {q i v} (h : c.memOk) : (c.setPennantOf q i v).memOk :=
  .ite h.congr h.setPennant

theorem CoreSt.memOk.plotView (h : c.memOk) : c.plotView.memOk :=
  h.congr

theorem CoreSt.memOk.viewOf {q} (h : c.memOk) : (c.viewOf q).memOk :=
  .ite h.plotView h

/-! ### Reads of a core under its code (R511) -/

theorem State.memOk.sramRead {n q w} (h : s.memOk) : (s.sramRead n q w).1.memOk := by
  unfold State.sramRead
  dsimp only
  split
  · exact h
  · split
    · exact h.congr'.count
    · exact h.congr'.count.askB

/-! ### The vector unit (R278 to R287) -/

theorem CoreSt.memOk.writeAct {a l} (h : c.memOk) : (c.writeAct a l).memOk :=
  CoreSt.memOk.renewSram ⟨Memory.wf_writeN h.1 a l, h.2⟩

theorem CoreSt.memOk.vopRows {modes r f l} (h : c.memOk) : (vopRows modes r f l c).memOk := by
  induction l generalizing c with
  | nil => exact h
  | cons m l ih => exact ih h.writeAct.addFlush.addConv

theorem CoreSt.memOk.noteAmax {form tent l} (h : c.memOk) : (c.noteAmax form tent l).memOk :=
  h.congr

theorem CoreSt.memOk.vquantRows {modes r f l} (h : c.memOk) : (vquantRows modes r f l c).memOk := by
  induction l generalizing c with
  | nil => exact h
  | cons m l ih => exact ih (.ite h.writeAct.addFlush.addConv.noteAmax h.writeAct.addFlush.addConv)

theorem CoreSt.memOk.vquantImage {modes r f} (h : c.memOk) : (vquantImage modes r c f).memOk :=
  .ite h.writeAct.addFlush.addConv.noteAmax h.writeAct.addFlush.addConv

theorem CoreSt.memOk.writeRuns {a l} (h : c.memOk) : (writeRuns a l c).memOk := by
  induction l generalizing c with
  | nil => exact h
  | cons x l ih => exact ih h.writeAct

theorem CoreSt.memOk.vtstoreRows {modes r f rows l} (h : c.memOk) : (vtstoreRows modes r f rows l c).memOk := by
  induction l generalizing c with
  | nil => exact h
  | cons i l ih => exact ih h.writeRuns.addConv

theorem CoreSt.memOk.vrandRows {r f l} (h : c.memOk) : (vrandRows r f l c).memOk := by
  induction l generalizing c with
  | nil => exact h
  | cons m l ih => exact ih h.writeAct

/-! ### Issue of an instruction (R74, R86) -/

theorem State.memOk.trapEvent {n q cause pc} (h : s.memOk) : (s.trapEvent n q cause pc).memOk :=
  h.event

theorem State.memOk.trapQueue {n x} (h : s.memOk) : (s.trapQueue n x).memOk :=
  (h.setCore h.core.setQueue).trapEvent

theorem State.memOk.trapAll {n l} (h : s.memOk) : (s.trapAll n l).memOk :=
  ((h.foldl (fun _ ht _ => ht.trapQueue)).updCore (fun _ hc => hc.congr)).askStop

theorem State.memOk.trap {n q cause} (h : s.memOk) : (s.trap n q cause).memOk :=
  h.trapAll

theorem State.memOk.trapExternal {n cause} (h : s.memOk) : (s.trapExternal n cause).memOk :=
  h.trapEvent.trapAll

theorem State.memOk.raise {n i inc q} (h : s.memOk) : (s.raise n i inc q).memOk := by
  unfold State.raise
  refine .ite (h.updCore (fun _ hc => hc.setPennantOf)) ?_
  split
  · exact (h.updCore (fun _ hc => hc.setPennantOf)).trap
  · exact (h.updCore (fun _ hc => hc.setPennantOf)).trapExternal

theorem State.memOk.sendRaise {n target i inc} (h : s.memOk) : (s.sendRaise n target i inc).memOk :=
  h.count.tableRead.numbered.routed fun _ ht => ht.congr

theorem State.memOk.retireRaise {n q o} (h : s.memOk) : (s.retireRaise n q o).memOk := by
  unfold State.retireRaise
  split
  · exact h.sendRaise
  · exact .ite h h.raise

theorem State.memOk.drainControl {n q f} (h : s.memOk) : (s.drainControl n q f).memOk := by
  induction f generalizing s with
  | zero => exact h
  | succ f ih =>
    unfold State.drainControl
    split
    · exact .ite (ih (h.updCore fun _ hc => hc.setQueue).retireRaise) h
    · exact h

theorem State.memOk.retireOp {n q} (h : s.memOk) : (s.retireOp n q).memOk := by
  unfold State.retireOp
  split
  · exact .ite (((h.updCore (fun _ hc => hc.setQueue)).retireRaise).drainControl) h
  · exact h

theorem State.memOk.finishOp {n q key} (h : s.memOk) : (s.finishOp n q key).memOk :=
  h.updCore fun _ hc => hc.setQueue

theorem State.memOk.setQState {n q st i} (h : s.memOk) : (s.setQState n q st i).memOk :=
  h.updCore fun _ hc => hc.setQueue

theorem State.memOk.issued {n q w draws} (h : s.memOk) : (s.issued n q w draws).memOk :=
  (h.updCore (fun _ hc => .congr (.setQueue (.ite hc.setPennantOf hc)))).count

theorem State.memOk.enqueueOp {n q w key isDone} (h : s.memOk) : (s.enqueueOp n q w key isDone).memOk :=
  h.updCore fun _ hc => hc.setQueue

theorem State.memOk.front {n q op t} (h : s.memOk) (ht : s.front n q op = .other t) : t.memOk := by
  unfold State.front at ht
  split at ht
  · cases ht
  · split at ht
    · cases ht
    · cases ht
      exact h.setQState
    · cases ht
      exact h.trap
    · cases ht

theorem Sound.issue {n q op draws eff} (h : s.memOk) (hq : s.quiet) (heff : ∀ t, t.memOk → ∀ w k, (eff t w k).memOk) :
    Sound (issue s n q op draws eff) := by
  refine .withCore ?_
  split
  · exact .next h hq
  · next t ht => exact .done (h.front ht)
  · exact .ite (.done (heff _ h.sramRead.issued _ _)) (.done h.sramRead)

theorem State.memOk.accBad {n row pair} (h : s.memOk) : (s.accBad n row pair).memOk :=
  h.event.askB

theorem State.memOk.drew {n r lanes roundings rows} (h : s.memOk) : (s.drew n r lanes roundings rows).memOk :=
  .ite h h.count

end Sys2Proof.Machine
end

section
/-!
Memories stay canonical: stacks, owner state, dispatch transfers, messages and the checkpoint drain.
-/

namespace Sys2Proof.Machine

set_option Elab.async false

variable {s : State} {c : CoreSt}

/-! ### Reads of the stacks and repairs (R311 to R317) -/

theorem State.memOk.setFetch {k f} (h : s.memOk) : (s.setFetch k f).memOk :=
  h.updStack fun _ hy => hy.congr

theorem State.memOk.dropFetch {k line} (h : s.memOk) : (s.dropFetch k line).memOk :=
  h.updStack fun _ hy => hy.congr

theorem State.memOk.afterRead {x : StackSt} {k} (h : s.memOk) (hx : x.memOk) : (s.afterRead k x).memOk :=
  .ite (h.setStack hx) ((h.setStack hx).count)

theorem State.memOk.answerRead {w} (h : s.memOk) : (s.answerRead w).memOk :=
  h.send

theorem CoreSt.memOk.writeMem {sb a l} (h : c.memOk) : (c.writeMem sb a l).memOk :=
  .ite (CoreSt.memOk.renewSram ⟨h.1, Memory.wf_writeN h.2.1 a l, h.2.2⟩) h.writeAct

theorem State.memOk.loaded {n w} (h : s.memOk) : (s.loaded n w).memOk :=
  h.fromStation fun _ _ _ ht => (ht.carried.updCore (fun _ hc => hc.writeMem)).finishOp

theorem State.memOk.gotLoads {k line b} (h : s.memOk) : (s.gotLoads k line b).memOk :=
  h.foldl fun _ ht _ => ht.foldl (fun _ ht1 _ => .ite ((ht1.updCore (fun _ hc => hc.congr)).loaded) (ht1.updCore (fun _ hc => hc.congr)))

theorem State.memOk.gotHost {k line b} (h : s.memOk) : (s.gotHost k line b).memOk :=
  (h.congr.foldl (fun _ ht _ => ht.send)).foldl fun _ ht _ => ht.answerRead

theorem State.memOk.gotReads {k line b} (h : s.memOk) : (s.gotReads k line b).memOk :=
  h.updStack fun _ hy => hy.congr

theorem State.memOk.giveLine {k line b} (h : s.memOk) : (s.giveLine k line b).memOk :=
  h.gotReads.gotLoads.gotHost

theorem State.memOk.resumeLine {k line} (h : s.memOk) : (s.resumeLine k line).memOk :=
  .ite ((h.afterRead h.stack.readRange).giveLine) h

theorem State.memOk.failHost {k line} (h : s.memOk) : (s.failHost k line).memOk :=
  h.congr.gotHost

theorem State.memOk.noData {k line cs} (h : s.memOk) : (s.noData k line cs).memOk := by
  unfold State.noData
  refine .foldl (.ite (h.updStack (fun _ hy => hy.congr')) ((h.updStack (fun _ hy => hy.congr')).event)) (fun _ ht _ => ?_)
  split
  · exact .ite ht.askB ht
  · exact ht.endCheckpoint
  · exact ht.failHost
  · exact ht.event
  · exact ht
  · exact .ite ht ht.askB

theorem State.memOk.overtaken {k f t} (h : s.memOk) (ht : s.overtaken k f = some t) : t.memOk := by
  unfold State.overtaken at ht
  split at ht
  · cases ht
    exact h.dropFetch.giveLine
  · cases ht

theorem State.memOk.askSource {k f} (h : s.memOk) : (s.askSource k f).memOk := by
  unfold State.askSource
  split
  · next t ht => exact h.overtaken ht
  · split
    · exact h.setFetch.congr'.message
    · exact h.dropFetch.noData

theorem State.memOk.askPart {k line g a} (h : s.memOk) : (s.askPart k line g a).memOk := by
  unfold State.askPart
  split
  · exact h
  · exact h.congr'.message

theorem State.memOk.askParts {k line} (h : s.memOk) : (s.askParts k line).memOk := by
  unfold State.askParts
  refine h.foldl (fun _ ht _ => ?_)
  split
  · exact ht.setFetch.askPart
  · exact ht

theorem State.memOk.wantLine {k line c} (h : s.memOk) : (s.wantLine k line c).memOk := by
  unfold State.wantLine
  split
  · exact .ite h h.setFetch
  · exact h.askSource.askParts

theorem State.memOk.wantLines {k l c} (h : s.memOk) : (s.wantLines k l c).memOk :=
  h.foldl fun _ ht _ => ht.wantLine

theorem State.memOk.linesAt {k a n who} (h : s.memOk) : (s.linesAt k a n who).memOk :=
  .ite h h.count

theorem State.memOk.readStart {k a n} (h : s.memOk) : (s.readStart k a n).1.memOk :=
  h.afterRead h.stack.readRange

theorem State.memOk.readHbm {k a n c} (h : s.memOk) : (s.readHbm k a n c).1.memOk := by
  unfold State.readHbm
  dsimp only
  split
  · split
    · exact h.updStack fun _ hy => hy.congr'
    · exact h
  · split
    · exact h.linesAt.readStart
    · exact .wantLines (.ite (h.linesAt.readStart.updStack (fun _ hy => hy.congr')) h.linesAt.readStart)

theorem State.memOk.askMerges {k} (h : s.memOk) : (s.askMerges k).memOk :=
  h.foldl fun _ ht _ => ht.wantLine

theorem State.memOk.askAllMerges (h : s.memOk) : s.askAllMerges.memOk :=
  h.foldl fun _ ht _ => ht.askMerges

theorem State.memOk.writeHbm {k a l who} (h : s.memOk) : (s.writeHbm k a l who).memOk :=
  h.linesAt.writeStack.askMerges

theorem State.memOk.endFetch {k line} (h : s.memOk) : (s.endFetch k line).memOk := by
  unfold State.endFetch
  split
  · exact h
  · exact .ite h (h.updStack fun _ hy => Memory.wf_writeN hy _ _).setFetch.resumeLine

theorem State.memOk.keepItems {k line f g data own} (h : s.memOk) : (s.keepItems k line f g data own).memOk :=
  (h.updStack (fun _ hy => hy.congr)).setFetch

theorem State.memOk.giveCame {k line} (h : s.memOk) : (s.giveCame k line).memOk := by
  unfold State.giveCame
  split
  · exact h
  · exact h.setFetch.giveLine

theorem State.memOk.nextPart {k line g rest} (h : s.memOk) : (s.nextPart k line g rest).memOk := by
  unfold State.nextPart
  split
  · exact h.askPart
  · exact h.setFetch.endFetch
  · exact h

theorem State.memOk.mirrorData {k line g data rest} (h : s.memOk) : (s.mirrorData k line g data rest).memOk := by
  unfold State.mirrorData
  split
  · exact h
  · refine .ite h ?_
    split
    · next t ht => exact h.overtaken ht
    · exact .ite (.ite h.askSource h.keepItems.giveCame.endFetch) (.ite h.nextPart h.keepItems.nextPart)

theorem State.memOk.verifyLine {k line ok} (h : s.memOk) : (s.verifyLine k line ok).memOk := by
  have hput : ∀ (y : StackSt) (lines : List Nat) (good : List Byte), y.memOk → (lines.foldl (fun y l =>
      { y.wrote l with mem := Memory.writeN y.mem (64 * l) (slice good (64 * (l % 8)) 64) }) y).memOk :=
    fun y lines good hy => hy.foldl fun _ hz _ => Memory.wf_writeN hz _ _
  unfold State.verifyLine
  split
  · exact h
  · split
    · exact h
    · have hs := fun f hf => (h.dropFetch (k := k) (line := line)).updStack (k := k) (f := f) hf
      exact .ite ((hs _ fun _ hy => hy.congr).updStack fun _ hy => hput _ _ _ hy)
        (.ite ((hs _ fun _ hy => hy.congr).updStack fun _ hy => hput _ _ _ hy)
          (.ite (((hs _ fun _ hy => hy.congr).updStack fun _ hy => hy.congr).event.askC)
            ((hs _ fun _ hy => hy.congr).updStack fun _ hy => (hput _ _ _ hy).congr)))

theorem execMirrorTimeout_sound {stack line} (h : s.memOk) (hq : s.quiet) : Sound (execMirrorTimeout stack line s) := by
  refine .withStack ?_
  split
  · exact .next h hq
  · refine .ite (.next h hq) ?_
    dsimp only
    split
    · next t ht => exact .done (State.memOk.overtaken h.congr ht)
    · exact .ite (.done (State.memOk.setFetch h.congr).endFetch) (.done (State.memOk.until h.congr).dropFetch.noData)

theorem execHbmWritebackVerify_sound {stack line ok} (h : s.memOk) (_hq : s.quiet) : Sound (execHbmWritebackVerify stack line ok s) :=
  .withStack (.done h.verifyLine)

theorem execPatrolScrub_sound {stack} (h : s.memOk) (hq : s.quiet) : Sound (execPatrolScrub stack s) :=
  .withStack (.ite (.next h hq) (.done (State.memOk.foldl
    (h.afterRead (h.stack.scan.foldl fun _ hy _ => Memory.wf_writeN hy _ _)) fun _ ht _ => .ite ht.event ht.wantLine)))

/-! ### Owner state (R473 to R476, R532) -/

theorem State.memOk.putHdr {p hdr} (h : s.memOk) : (s.putHdr p hdr).memOk :=
  h.writeStack

theorem State.memOk.copyJournal {p} (h : s.memOk) : (s.copyJournal p).memOk :=
  h.writeStack

theorem State.memOk.closeJournal {p} (h : s.memOk) : (s.closeJournal p).memOk :=
  h.copyJournal.putHdr

theorem State.memOk.layCount {layer f} (h : s.memOk) : (s.layCount layer f).memOk :=
  h.congr

theorem State.memOk.plotEvent {name r info} (h : s.memOk) : (s.plotEvent name r info).memOk :=
  h.event

theorem State.memOk.raiseRung {layer f} (h : s.memOk) : (s.raiseRung layer f).memOk := by
  unfold State.raiseRung
  split
  · exact .ite h (.ite h.congr' h.congr'.layCount)
  · exact h

theorem State.memOk.promote {l r step} (h : s.memOk) : (s.promote l r step).memOk := by
  unfold State.promote
  refine .ite h.congr' ?_
  split
  · exact h.congr'.plotEvent
  · exact .ite h.congr' h.congr'.congr'.layCount.plotEvent

theorem State.memOk.readEach {l who} (h : s.memOk) : (s.readEach l who).1.memOk :=
  List.foldlRecOn (motive := fun a : State × List (Option (List Byte)) => a.1.memOk) l _ h fun _ ha _ _ => ha.readHbm

theorem State.memOk.readAll {l who} (h : s.memOk) : (s.readAll l who).1.memOk :=
  h.readEach

theorem State.memOk.copyFound {p} (h : s.memOk) : (s.copyFound p).1.memOk := by
  unfold State.copyFound
  dsimp only
  split
  · exact h
  · split
    · exact h.readAll.closeJournal
    · exact h.readAll

theorem State.memOk.recoverJournals {l} (h : s.memOk) : (s.recoverJournals l).memOk :=
  (h.foldl (fun _ ht _ => ht.copyFound)).askAllMerges

theorem State.memOk.checkpointCopy {layer} (h : s.memOk) : (s.checkpointCopy layer).1.memOk := by
  unfold State.checkpointCopy
  split
  · split
    · dsimp only
      split
      · exact h.readAll
      · refine .congr' (.writeStack (.linesAt (.foldl h.readAll ?_)))
        exact fun _ ht _ => ht.linesAt
    · exact h
  · exact h

theorem State.memOk.copyAllDue (h : s.memOk) : s.copyAllDue.memOk :=
  h.foldl fun _ ht _ => ht.checkpointCopy

theorem State.memOk.sendItems {layer part step ds n} (h : s.memOk) : (s.sendItems layer part step ds n).memOk := by
  induction ds generalizing s n with
  | nil => exact h
  | cons d ds ih => exact ih h.originDown

theorem State.memOk.convertTile {l f conv} (h : s.memOk) : (s.convertTile l f conv).1.memOk := by
  unfold State.convertTile
  dsimp only
  split
  · exact h.fresh
  · exact h.fresh.updCore fun _ hc => .ite hc.addConv.noteAmax hc.addConv

theorem State.memOk.convertTiles {l f ts} (h : s.memOk) : (s.convertTiles l f ts).1.memOk := by
  induction ts generalizing s with
  | nil => exact h
  | cons t ts ih => exact ih h.convertTile

theorem State.memOk.regenerate {l p step} (h : s.memOk) : (s.regenerate l p step).memOk :=
  h.convertTiles.convertTiles.sendItems.sendItems.sendItems

theorem State.memOk.sendState {dst layer step a p n} (h : s.memOk) : (s.sendState dst layer step a p n).memOk := by
  unfold State.sendState
  refine .foldl ?_ fun _ ht _ => ht.message
  split
  · exact h.ferryOut
  · exact h

theorem State.memOk.countUpdate {l p} (h : s.memOk) : (s.countUpdate l p).memOk := by
  unfold State.countUpdate
  dsimp only
  refine .ite ?_ h.congr
  refine .sendState ?_
  refine .sendState ?_
  exact .sendState h.congr

theorem State.memOk.mirrorState {d} (h : s.memOk) : (s.mirrorState d).memOk := by
  unfold State.mirrorState
  dsimp only
  split
  · exact h
  · refine .ite h ?_
    split
    · exact h.congr'
    · split
      · exact .ite h.congr'.congr' h.congr'.congr'.writeStack.writeStack.putHdr.raiseRung.closeJournal
      · exact h.congr'

theorem State.memOk.noteTakeover {layer} (h : s.memOk) : (s.noteTakeover layer).memOk :=
  h.congr

theorem State.memOk.setRole {layer role} (h : s.memOk) : (s.setRole layer role).memOk :=
  h.congr

theorem State.memOk.dropLayer {layer} (h : s.memOk) : (s.dropLayer layer).memOk :=
  h.congr

theorem State.memOk.promoteMirror {lost} (h : s.memOk) : (s.promoteMirror lost).memOk := by
  unfold State.promoteMirror
  refine .ite h (h.foldl (fun _ ht _ => ?_))
  dsimp only
  split
  · exact ht.setRole.noteTakeover.controlAll.plotEvent
  · exact ht.setRole.noteTakeover.controlAll

theorem State.memOk.takeoverFor {layer} (h : s.memOk) : (s.takeoverFor layer).memOk := by
  unfold State.takeoverFor
  refine .ite ?_ h.noteTakeover
  dsimp only
  split
  · exact h.noteTakeover.setRole.dropLayer.plotEvent
  · exact h.noteTakeover.setRole.dropLayer

/-! ### Dispatch transfers (R288 to R296) -/

theorem State.memOk.sendPackets {n d f key l} (h : s.memOk) : (s.sendPackets n d f key l).memOk :=
  h.numbered.foldl fun _ ht _ => ht.routed (fun _ ht1 => ht1.congr)

theorem State.memOk.sendData {n w key} (h : s.memOk) : (s.sendData n w key).memOk :=
  h.foldl fun _ ht _ => ht.tableRead.sendPackets

theorem State.memOk.writeSend {m} (h : s.memOk) : (s.writeSend m).memOk := by
  unfold State.writeSend
  dsimp only
  split
  · exact (h.updCore (fun _ hc => hc.writeMem)).raise
  · exact h.updCore fun _ hc => hc.writeMem

theorem execDsendArrival_sound {src msg vc} (h : s.memOk) (_hq : s.quiet) : Sound (execDsendArrival src msg vc s) :=
  .withCore (.withCore (.ite (.done h.congr.reorderWait.landed) (.done (h.congr.reorderWait.landed.foldl (fun _ ht _ => ht.writeSend)))))

theorem execDstore_sound {core q} (h : s.memOk) (hq : s.quiet) : Sound (execDstore core q s) := by
  unfold execDstore
  refine .issue h hq (fun _ ht _ _ => ?_)
  dsimp only
  split
  · exact ht.enqueueOp.toTarget fun _ _ _ ht1 => ht1.carried.linesAt.writeHbm.finishOp
  · exact ht.enqueueOp

theorem execDload_sound {core q} (h : s.memOk) (hq : s.quiet) : Sound (execDload core q s) := by
  unfold execDload
  refine .issue h hq (fun _ ht _ _ => ?_)
  dsimp only
  split
  · exact ht.enqueueOp
  · exact ht.enqueueOp.toTarget fun _ _ _ ht1 => .ite ht1.carried.linesAt.readStart.loaded
      ((ht1.carried.linesAt.readStart.updCore (fun _ hc => hc.congr')).wantLines)

theorem State.memOk.askTagged {n w} (h : s.memOk) : (s.askTagged n w).memOk := by
  unfold State.askTagged
  split
  · exact h
  · refine .message (.congr' (h.updCore ?_))
    exact fun _ hc => hc.congr

theorem State.memOk.takeTagged {n r data} (h : s.memOk) : (s.takeTagged n r data).memOk :=
  .ite ((h.updCore (fun _ hc => hc.writeMem.congr)).finishOp) ((h.updCore (fun _ hc => hc.writeMem.congr)).trap)

theorem State.memOk.deliverTagged {n tag data} (h : s.memOk) : (s.deliverTagged n tag data).memOk := by
  unfold State.deliverTagged
  split
  · exact h.updCore fun _ hc => hc.congr'
  · exact h.takeTagged

theorem State.memOk.tagArrives {g n tag data} (h : s.memOk) : (s.tagArrives g n tag data).memOk :=
  h.fromStation fun _ _ _ ht => ht.carried.deliverTagged

theorem State.memOk.startDrecv {n q w key} (h : s.memOk) : (s.startDrecv n q w key).memOk := by
  unfold State.startDrecv
  dsimp only
  split
  · exact h.enqueueOp.updCore fun _ hc => hc.congr'
  · exact ((h.enqueueOp.updCore (fun _ hc => hc.congr')).updCore (fun _ hc => hc.congr')).takeTagged

theorem State.quiet.askTagged {n w} (h : s.quiet) : (s.askTagged n w).quiet := by
  unfold State.askTagged
  split
  · exact h
  · dsimp only
    rw [(State.messaged_message _ _ _ _ _).only]
    exact h

theorem execDrecv_sound {core q} (h : s.memOk) (hq : s.quiet) : Sound (execDrecv core q s) := by
  unfold execDrecv
  dsimp only
  split
  · exact .issue h.askTagged hq.askTagged fun _ ht _ _ => ht.startDrecv
  · exact .issue h hq fun _ ht _ _ => ht.startDrecv

/-! ### What a message does at this module (R463 to R466, R557 to R563) -/

theorem State.memOk.noteForm {l d} (h : s.memOk) : (s.noteForm l d).memOk := by
  unfold State.noteForm
  split
  · exact h.raiseRung
  · exact h

theorem State.memOk.ferryCopy {g l part first count bytes} (h : s.memOk) : (s.ferryCopy g l part first count bytes).memOk :=
  h.foldl fun _ ht _ => ht.ferryIn

theorem State.memOk.ferryTo {dst l} (h : s.memOk) : (s.ferryTo dst l).memOk := by
  unfold State.ferryTo
  split
  · exact h.foldl fun _ ht _ => ht.ferryOut
  · exact h

theorem State.memOk.downDiscard {iface} (h : s.memOk) : (s.downDiscard iface).memOk :=
  h.halCount

theorem State.memOk.stateArrives {iface d} (h : s.memOk) : (s.stateArrives iface d).memOk :=
  .ite h.mirrorState (.ite h.downDiscard h.downDiscard.mirrorState)

theorem State.memOk.downArrives {src iface d} (h : s.memOk) : (s.downArrives src iface d).memOk := by
  unfold State.downArrives
  split
  · exact h
  · exact .ite (.ite h.stateArrives h.netCount) (.ite h (.foldl (.ite h h.downDiscard) (fun _ ht _ => ht.ferryCopy.noteForm.originDown)))

theorem State.memOk.readRanges {l} (h : s.memOk) : (s.readRanges l).1.memOk :=
  List.foldlRecOn (motive := fun a : State × Option (List Byte) => a.1.memOk) l _ h fun _ ha _ _ => ha.readHbm

theorem State.memOk.reply {dst g step data} (h : s.memOk) : (s.reply dst g step data).memOk :=
  .ite h.message (h.foldl (fun _ ht _ => ht.message))

theorem State.memOk.holdGather {hdr} (h : s.memOk) : (s.holdGather hdr).memOk :=
  .ite h h.congr

theorem State.memOk.unholdGather {hdr} (h : s.memOk) : (s.unholdGather hdr).memOk :=
  h.congr

theorem State.memOk.gatherAsked {src g} (h : s.memOk) : (s.gatherAsked src g).memOk := by
  unfold State.gatherAsked
  dsimp only
  refine .ite (.ite h.reply ?_) (.ite h ?_)
  · split
    · exact h.holdGather
    · exact h.reply
  · split
    · exact h.unholdGather.reply
    · exact h.unholdGather.reply
    · split
      · exact h.readRanges.unholdGather.ferryTo.reply
      · exact h.readRanges.holdGather
    · split
      · exact h.readRanges.unholdGather.ferryTo.reply
      · exact h.readRanges.holdGather

theorem State.memOk.resumeGathers (h : s.memOk) : s.resumeGathers.memOk :=
  h.foldl fun _ ht _ => ht.gatherAsked

theorem State.memOk.tagReady {hdr} (h : s.memOk) : (s.tagReady hdr).memOk := by
  unfold State.tagReady
  split
  · exact h.unholdGather.reply
  · dsimp only
    split
    · exact h.readHbm
    · exact h.readHbm.counterTake.unholdGather.ferryTo.reply

theorem State.memOk.gatherTile {k e g x} (h : s.memOk) : (s.gatherTile k e g x).memOk := by
  unfold State.gatherTile
  dsimp only
  split
  · exact h
  · exact (h.writeHbm.updStack (fun _ hy => hy.congr')).counterRaise

theorem State.memOk.keepTile {k again g x} (h : s.memOk) : (s.keepTile k again g x).memOk := by
  unfold State.keepTile
  split
  · exact h
  · exact .ite h (h.writeHbm.updStack (fun _ hy => hy.congr'))

theorem State.memOk.nextHolder {o} (h : s.memOk) : (s.nextHolder o).memOk := by
  unfold State.nextHolder
  split
  · exact h.askGather
  · split
    · exact h.noHolder
    · exact h

theorem State.memOk.entryData {k i again o g data} (h : s.memOk) : (s.entryData k i again o g data).memOk := by
  unfold State.entryData
  split
  · exact .ite h.nextHolder (h.foldl (fun _ ht _ => .ite ht.gatherTile ht.keepTile))
  · exact h

theorem State.memOk.copyData {group lay g data} (h : s.memOk) : (s.copyData group lay g data).memOk := by
  unfold State.copyData
  split
  · exact h
  · exact h.ferryCopy.noteForm.copyWriteAll

theorem State.memOk.dropOut {o} (h : s.memOk) : (s.dropOut o).memOk :=
  h.congr

theorem State.memOk.gatherAnswered {src group g data} (h : s.memOk) : (s.gatherAnswered src group g data).memOk := by
  unfold State.gatherAnswered
  split
  · exact h
  · dsimp only
    split
    · exact h.dropOut.ferryIn.mirrorData.resumeGathers
    · exact h.dropOut.tagArrives
    · exact .ite h.dropOut.nextHolder h.dropOut.copyData
    · exact .ite h.dropOut.nextHolder h.dropOut.ferryIn.entryData

theorem State.memOk.failOver {m} (h : s.memOk) : (s.failOver m).memOk := by
  unfold State.failOver
  refine h.foldl (fun _ ht _ => ?_)
  split
  · split
    · exact .ite (.ite ht.dropOut ht.dropOut.askSource) ht.dropOut.nextPart
    · exact ht.dropOut
  · exact ht
  · exact ht.dropOut.nextHolder

theorem State.memOk.losePeer {m cause} (h : s.memOk) : (s.losePeer m cause).memOk := by
  unfold State.losePeer
  split
  · exact h
  · exact .ite h ((((((h.foldl (fun _ ht _ => ht.netCount)).setPeer).event).promoteMirror).failOver).drainBacklog)

theorem State.memOk.testPorts (h : s.memOk) : s.testPorts.memOk :=
  .ite (h.foldl (fun _ ht _ => ht.losePeer)) h

theorem State.memOk.beginPeer {m msgId} (h : s.memOk) : (s.beginPeer m msgId).memOk :=
  h.updPeer

theorem State.memOk.joinFrom {m} (h : s.memOk) : (s.joinFrom m).memOk :=
  h.updPeer.drainBacklog

theorem State.memOk.beatFrom {m b} (h : s.memOk) : (s.beatFrom m b).memOk :=
  h.updPeer

theorem State.memOk.alarmFrom {layer step value} (h : s.memOk) : (s.alarmFrom layer step value).memOk :=
  .ite h h.congr

theorem State.memOk.controlFrom {src sub layer step value} (h : s.memOk) : (s.controlFrom src sub layer step value).memOk :=
  .ite h.alarmFrom (.ite h.takeoverFor (.ite h.losePeer (.ite h.joinFrom h)))

theorem State.memOk.deliver {src iface a} (h : s.memOk) : (s.deliver src iface a).memOk := by
  unfold State.deliver
  split
  · exact h.sumArrives
  · exact h.downArrives.askAllMerges
  · exact h.gatherAsked
  · exact h.gatherAnswered.askAllMerges
  · exact h
  · exact h.beatFrom
  · exact h.controlFrom

/-! ### The checkpoint drain unit (R534 to R537) -/

theorem State.memOk.setSlot {slot v} (h : s.memOk) : (s.setSlot slot v).memOk :=
  h.congr

theorem State.memOk.ckptSend {r l o} (h : s.memOk) : (s.ckptSend r l o).memOk := by
  induction l generalizing s o with
  | nil => exact h
  | cons d l ih => exact ih h.message

theorem State.memOk.drainSend {n} (h : s.memOk) : (s.drainSend n).memOk :=
  .ite (.ite h.readAll.congr.ferryTo.ckptSend h.readAll) h.congr.ckptSend

theorem State.memOk.startDrain (h : s.memOk) : s.startDrain.memOk :=
  .ite h (.ite h.copyAllDue h.copyAllDue.congr.setSlot.drainSend)

theorem State.memOk.advanceDrain (h : s.memOk) : s.advanceDrain.memOk := by
  unfold State.advanceDrain
  exact .ite h (.ite h.startDrain (.ite h.drainSend (.ite h.congr'.drainSend h.setSlot.congr'.info)))

theorem State.memOk.setDest {dest} (h : s.memOk) : (s.setDest dest).memOk :=
  h.congr

end Sys2Proof.Machine
end

section
/-!
Memories stay canonical: ports, power, steps, faults, plan load and resets.
-/

namespace Sys2Proof.Machine

set_option Elab.async false

variable {s : State} {c : CoreSt}

/-! ### Ports and transport (chapter 13) -/

theorem State.memOk.sendAck {p} (h : s.memOk) : (s.sendAck p).memOk :=
  h.resolve.setPeer.netCount.frameBytes.send

theorem State.memOk.owesAck {p} (h : s.memOk) : (s.owesAck p).memOk :=
  .ite h.sendAck h.setPeer

theorem State.memOk.resend {m f rto} (h : s.memOk) : (s.resend m f rto).memOk := by
  unfold State.resend
  split
  · exact h
  · exact .ite h.setPeer h.resolve.setPeer.netCount.frameBytes.count.send

theorem State.memOk.takeAck {m ack sack ce} (h : s.memOk) : (s.takeAck m ack sack ce).memOk := by
  unfold State.takeAck
  split
  · exact h
  · exact (h.setPeer.foldl (fun _ ht _ => ht.resend)).drainBacklog

theorem State.memOk.deliverHeld (h : s.memOk) : s.deliverHeld.memOk := by
  unfold State.deliverHeld
  refine h.foldl fun _ ht _ => ht.foldl (fun _ ht1 _ => ?_)
  split
  · exact .ite ht1 ht1.updPeer.deliver
  · exact ht1

theorem State.memOk.takeFragment {i f p} (h : s.memOk) : (s.takeFragment i f p).memOk := by
  unfold State.takeFragment
  refine .ite h.owesAck (.ite h.owesAck (.ite h.netCount.count (.ite h ?_)))
  dsimp only
  split
  · exact h.owesAck
  · exact .ite h.owesAck h.owesAck.deliver

theorem State.memOk.frame {i f} (h : s.memOk) : (s.frame i f).memOk := by
  unfold State.frame
  split
  · exact h.netCount
  · exact h.netCount
  · exact h
  · refine .ite (.netCount (.frameBytes (.ite h.netCount.count h.netCount))) ?_
    split
    · exact .netCount (.frameBytes (.ite h.netCount.count h.netCount))
    · refine .ite (.ite (.frameBytes (.ite h.netCount.count h.netCount)) (.netCount (.frameBytes (.ite h.netCount.count h.netCount))))
        (.ite ?_ (.ite (.ite (.takeAck (.frameBytes (.ite h.netCount.count h.netCount))) (.frameBytes (.ite h.netCount.count h.netCount)))
          ?_))
      · dsimp only
        split
        · exact .takeFragment (.beginPeer (.frameBytes (.ite h.netCount.count h.netCount)))
        · exact .beginPeer (.frameBytes (.ite h.netCount.count h.netCount))
      · split
        · exact .takeFragment (.ite (.takeAck (.frameBytes (.ite h.netCount.count h.netCount)))
            (.frameBytes (.ite h.netCount.count h.netCount)))
        · exact .ite (.takeAck (.frameBytes (.ite h.netCount.count h.netCount))) (.frameBytes (.ite h.netCount.count h.netCount))

theorem execPeoloFrame_sound {iface f} (h : s.memOk) (hq : s.quiet) : Sound (execPeoloFrame iface f s) :=
  .withIface (.ite (.next h hq) (.done h.frame.advanceDrain))

theorem execAck_sound {iface f} (h : s.memOk) (hq : s.quiet) : Sound (execAck iface f s) :=
  .withIface (.ite (.next h hq) (.done h.frame.advanceDrain))

theorem execAckDelayExpiry_sound {peer} (h : s.memOk) (hq : s.quiet) : Sound (execAckDelayExpiry peer s) := by
  unfold execAckDelayExpiry
  split
  · exact .next h hq
  · exact .ite (.next h hq) (.done h.until.sendAck)

theorem execRtoExpiry_sound {peer seq} (h : s.memOk) (hq : s.quiet) : Sound (execRtoExpiry peer seq s) := by
  unfold execRtoExpiry
  split
  · exact .next h hq
  · split
    · exact .next h hq
    · exact .done h.until.updPeer.netCount.resend

theorem execPacingWindow_sound {peer} (h : s.memOk) (hq : s.quiet) : Sound (execPacingWindow peer s) := by
  unfold execPacingWindow
  split
  · exact .next h hq
  · exact .ite (.next h hq) (.done h.until.updPeer)

theorem execHeartbeatSend_sound (h : s.memOk) (hq : s.quiet) : Sound (execHeartbeatSend s) := by
  unfold execHeartbeatSend
  refine .ite (.next h hq) (.done (h.until.congr'.foldl (fun _ ht _ => ?_)))
  split
  · exact ht.beat
  · exact ht

theorem execHeartbeat_sound {src b} (h : s.memOk) (hq : s.quiet) : Sound (execHeartbeat src b s) :=
  .ite (.next h hq) (.done h.beatFrom)

theorem execPeerLost_sound {peer} (h : s.memOk) (hq : s.quiet) : Sound (execPeerLost peer s) := by
  unfold execPeerLost
  split
  · exact .next h hq
  · exact .ite (.next h hq) (.done h.until.losePeer)

theorem execLeave_sound {src} (h : s.memOk) (hq : s.quiet) : Sound (execLeave src s) :=
  .ite (.next h hq) (.done h.losePeer)

theorem execJoin_sound {src} (h : s.memOk) (hq : s.quiet) : Sound (execJoin src s) :=
  .ite (.next h hq) (.done h.beginPeer.joinFrom)

theorem execHalyardSum_sound {src group m} (h : s.memOk) (hq : s.quiet) : Sound (execHalyardSum src group m s) :=
  .withGroup (.ite (.next h hq) (.done h.sumArrives))

theorem execHalyardDeadline_sound {group layer tile step} (h : s.memOk) (hq : s.quiet) : Sound
    (execHalyardDeadline group layer tile step s) := by
  unfold execHalyardDeadline
  refine .withGroup ?_
  split
  · exact .next h hq
  · exact .done h.until.forwardSum

theorem execHalyardHopHold_sound {group layer tile step} (h : s.memOk) (hq : s.quiet) : Sound (execHalyardHopHold group layer tile step s)
    := by
  unfold execHalyardHopHold
  refine .withGroup ?_
  split
  · exact .next h hq
  · exact .done h.until.forwardSum

theorem execDownhaul_sound {src iface m} (h : s.memOk) (hq : s.quiet) : Sound (execDownhaul src iface m s) :=
  .withIface (.ite (.next h hq) (.done h.downArrives.askAllMerges))

theorem execGatherReq_sound {src g} (h : s.memOk) (hq : s.quiet) : Sound (execGatherReq src g s) :=
  .ite (.next h hq) (.done h.gatherAsked)

theorem execGatherReqReady_sound {stack tag} (h : s.memOk) (hq : s.quiet) : Sound (execGatherReqReady stack tag s) := by
  unfold execGatherReqReady
  refine .withStack ?_
  split
  · exact .next h hq
  · exact .ite (.done h.tagReady) (.next h hq)

theorem execGatherData_sound {src g data} (h : s.memOk) (hq : s.quiet) : Sound (execGatherData src g data s) :=
  .ite (.next h hq) (.done h.gatherAnswered.askAllMerges)

theorem State.memOk.setIface {i x} (h : s.memOk) : (s.setIface i x).memOk :=
  h.congr

theorem State.memOk.trainPort {p} (h : s.memOk) : (s.trainPort p).memOk :=
  .ite (h.foldl (fun _ ht _ => .ite ht ht.setIface)) h

theorem State.memOk.idlePorts (h : s.memOk) : s.idlePorts.memOk :=
  h.congr.testPorts

theorem execPortLinkUp_sound {iface} (h : s.memOk) (hq : s.quiet) : Sound (execPortLinkUp iface s) :=
  .withIface (.ite (.done h.setIface.event.drainBacklog) (.next h hq))

theorem State.memOk.ifaceDown {i} (h : s.memOk) : (s.ifaceDown i).memOk :=
  .testPorts (.drainBacklog (.ite h.setIface.event.askC h.setIface.event))

theorem execPortLinkDown_sound {iface} (h : s.memOk) (hq : s.quiet) : Sound (execPortLinkDown iface s) :=
  .withIface (.ite (.done h.ifaceDown) (.next h hq))

theorem execNeighborSolicitation_sound {iface target} (h : s.memOk) (hq : s.quiet) : Sound (execNeighborSolicitation iface target s) :=
  .withIface (.ite (.done h.send) (.next h hq))

theorem execCblPresN_sound {port level} (h : s.memOk) (_hq : s.quiet) : Sound (execCblPresN port level s) :=
  .withPort (.ite (.done (h.congr.foldl (fun _ ht _ => .ite ht.ifaceDown ht.setIface))) (.done h.congr.trainPort))

/-! ### Power and what a part without power loses (R639 to R662) -/

theorem State.memOk.updReg {r f} (h : s.memOk) : (s.updReg r f).memOk :=
  h.congr

theorem State.memOk.regsTurnOff {l} (h : s.memOk) : (s.regsTurnOff l).memOk :=
  h.congr

theorem State.memOk.regEvent {name r info} (h : s.memOk) : (s.regEvent name r info).memOk :=
  h.event

theorem State.memOk.coreLost {n} (h : s.memOk) : (s.coreLost n).memOk :=
  h.setCore (.congr .reset)

theorem StackSt.lost_memOk (x : StackSt) : x.lost.memOk := Memory.wf_nil

theorem State.memOk.hbmLost (h : s.memOk) : s.hbmLost.memOk :=
  ⟨h.1, List.forall_mem_map.2 fun _ _ => StackSt.lost_memOk _, h.2.2⟩

theorem State.memOk.memoriesLost (h : s.memOk) : s.memoriesLost.memOk :=
  ⟨fun _ hp => absurd hp List.not_mem_nil, h.2⟩

theorem State.memOk.waferOff (h : s.memOk) : s.waferOff.memOk :=
  h.memoriesLost.hbmLost.idlePorts.congr

theorem State.memOk.portLost {p} (h : s.memOk) : (s.portLost p).memOk :=
  h.congr.foldl fun _ ht _ => ht.ifaceDown

theorem State.memOk.sheetOff {k} (h : s.memOk) : (s.sheetOff k).memOk := by
  unfold State.sheetOff
  dsimp only
  refine .ite h (.regsTurnOff (.congr' (.foldl (.foldl (.foldl h ?_) ?_) ?_)))
  · exact fun _ ht _ => ht.coreLost
  · refine fun _ ht _ => ht.updStack fun y _ => ?_
    exact (StackSt.lost_memOk y).congr'
  · exact fun _ ht _ => ht.portLost

theorem State.memOk.dropTie {n} (h : s.memOk) : (s.dropTie n).memOk :=
  h.congr.coreLost.event.regsTurnOff

theorem State.memOk.arrayFailed {n railVoltageOk} (h : s.memOk) : (s.arrayFailed n railVoltageOk).memOk :=
  .askB (.ite ((h.foldl (fun _ ht _ => ht.dropTie)).congr) (((((h.foldl
    (fun _ ht _ => ht.dropTie)).congr).regEvent).coreLost).regsTurnOff))

theorem State.memOk.logicFailed {n} (h : s.memOk) : (s.logicFailed n).memOk := by
  unfold State.logicFailed
  dsimp only
  have hf : ∀ c : CoreSt, c.memOk → ({ c with stopped := true } : CoreSt).memOk := fun _ hc => hc.congr
  exact .askB (.ite (h.regsTurnOff.updCore hf) (.congr' (h.regsTurnOff.updCore hf)))

theorem State.memOk.regFails {r railVoltageOk} (h : s.memOk) : (s.regFails r railVoltageOk).memOk := by
  unfold State.regFails
  extract_lets i s₁
  have h₁ : s₁.memOk := h.updReg.regEvent
  refine .ite h₁.logicFailed (.ite h₁.arrayFailed (.ite h₁.regsTurnOff.askC (.ite (.askC ?_) h₁.regsTurnOff.portLost)))
  refine h₁.regsTurnOff.updStack fun y _ => ?_
  exact (StackSt.lost_memOk y).congr'

theorem CoreSt.drainOut_memOk (c : CoreSt) : c.drainOut.memOk := ⟨Memory.wf_nil, Memory.wf_nil, Memory.wf_nil⟩

theorem State.memOk.feedTo {f x} (h : s.memOk) : (s.feedTo f x).memOk :=
  .ite (.ite h.congr.congr.info h.congr.congr) (.ite h.congr.info h.congr)

theorem State.memOk.setGovernor {k g} (h : s.memOk) : (s.setGovernor k g).memOk :=
  h.congr

theorem State.memOk.requestTurnOn {reg} (h : s.memOk) : (s.requestTurnOn reg).memOk :=
  .ite h h.setGovernor

theorem State.memOk.ascend (h : s.memOk) : s.ascend.memOk := by
  unfold State.ascend
  split
  · exact .ite (h.foldl (fun _ ht _ => ht.requestTurnOn)) h
  · exact h

theorem State.memOk.failSensors {readings} (h : s.memOk) : (s.failSensors readings).memOk :=
  h.congr.foldl fun _ ht _ => .ite ht ht.congr.event

theorem State.memOk.coreHeat {n t} (h : s.memOk) : (s.coreHeat n t).memOk := by
  unfold State.coreHeat
  dsimp only
  refine .ite ?_ (.askB (.congr' ?_))
  all_goals exact .ite (.event h.congr') (.ite h.congr' h)

theorem State.memOk.sheetHeat {hot k} (h : s.memOk) : (s.sheetHeat hot k).memOk :=
  .ite h h.sheetOff.askC

theorem State.memOk.coolant {inlet outlet} (h : s.memOk) : (s.coolant inlet outlet).memOk :=
  .ite h.congr.info h.congr

/-! ### Steps and their boundaries (R193, R202) -/

theorem State.memOk.combineScales (h : s.memOk) : s.combineScales.memOk := by
  unfold State.combineScales
  split
  · exact h
  · exact h.foldl fun _ ht _ => ht.updCore (fun _ hc => hc.congr')

theorem State.memOk.initScales (h : s.memOk) : s.initScales.memOk := by
  unfold State.initScales
  split
  · exact h
  · exact h.foldl fun _ ht _ => ht.updCore (fun _ hc => hc.congr')

theorem CoreSt.memOk.dropSamples (h : c.memOk) : c.dropSamples.memOk :=
  h.congr

theorem State.memOk.sendAlarms {step} (h : s.memOk) : (s.sendAlarms step).memOk :=
  h.foldl fun _ ht _ => .ite ht.alarmFrom ht.congr.message

theorem State.memOk.switchVariants (h : s.memOk) : s.switchVariants.memOk :=
  h.foldl fun _ ht _ => .ite ht ht.congr

theorem CoreSt.memOk.imageCore {p : Plan} {l} (h : c.memOk) : (p.imageCore l c).memOk :=
  CoreSt.memOk.loadPennants ⟨h.1, h.2.1, Memory.wf_writeN Memory.wf_nil _ _⟩

theorem State.memOk.beginStep {step} (h : s.memOk) : (s.beginStep step).memOk :=
  h.setRec.congr

theorem State.memOk.startStep {step} (h : s.memOk) : (s.startStep step).memOk :=
  .releaseQueues (.ite h.beginStep.startDrain.noteStep.sendCapture h.beginStep.startDrain.noteStep)

theorem State.memOk.endCalibration {r} (h : s.memOk) : (s.endCalibration r).memOk := by
  unfold State.endCalibration
  exact h.congr'.rewind.flushCodes

theorem State.memOk.completeRecord {r} (h : s.memOk) : (s.completeRecord r).memOk :=
  .ite h.setRec.setRec h.setRec

theorem State.memOk.endStep {r} (h : s.memOk) : (s.endStep r).memOk := by
  unfold State.endStep
  dsimp only
  refine .ite (.realign ?_) ?_
  all_goals
    refine .congr' (.noteStep (.sendCapture (.switchVariants ?_)))
    refine .completeRecord (.sendAlarms (.updCores (.congr' h.combineScales) ?_))
    exact fun _ _ hc => hc.dropSamples

/-! ### Links, faults and their batches (R374 to R379, R509) -/

theorem State.memOk.countRetry {l} (h : s.memOk) : (s.countRetry l).memOk := by
  unfold State.countRetry
  dsimp only
  split
  · exact h.setLink
  · exact h.setLink.routerCount.count

theorem State.memOk.loseLink {l} (h : s.memOk) : (s.loseLink l).memOk :=
  .ite h.linkDown.askB (.ite h.linkDown.askB h.linkDown)

theorem execLinkCrcMismatch_sound {link again} (h : s.memOk) (hq : s.quiet) : Sound (execLinkCrcMismatch link again s) :=
  .withLink (.ite (.next h hq) (.ite (.done h.loseLink) (.done h.setLink.countRetry)))

theorem execSelftestTrigger_sound {link} (h : s.memOk) (hq : s.quiet) : Sound (execSelftestTrigger link s) := by
  unfold execSelftestTrigger
  refine .withLink (.ite (.next h hq) ?_)
  dsimp only
  split
  · exact .done h.setLink
  · exact .done h.setLink.routerCount

theorem execLinkSelftestComplete_sound {link failedWires sidebandFailed} (h : s.memOk) (hq : s.quiet) : Sound
    (execLinkSelftestComplete link failedWires sidebandFailed s) := by
  unfold execLinkSelftestComplete
  refine .withLink (.ite (.next h hq) ?_)
  split
  · exact .done h.loseLink
  · exact .done h.setLink

theorem State.memOk.cameTo {router dest chan} (h : s.memOk) : (s.cameTo router dest chan).memOk := by
  unfold State.cameTo
  split
  · exact h.flitsOut
  · exact h

theorem execEscapeWaitExpiry_sound {router dest head} (h : s.memOk) (hq : s.quiet) : Sound (execEscapeWaitExpiry router dest head s) := by
  unfold execEscapeWaitExpiry
  refine .withCore (.withCore (.ite .fault (.ite (.next h hq) ?_)))
  dsimp only
  split
  · exact .done h.cameTo.congr'.count
  · exact .done h.cameTo.congr'.count.discarded

theorem execCriticalState_sound {x} (h : s.memOk) (_hq : s.quiet) : Sound (execCriticalState x s) :=
  .done h.askReset

theorem State.memOk.loseB {a} (h : s.memOk) : (s.loseB a).memOk := by
  unfold State.loseB
  split
  · exact h.linkDown
  · split
    · exact h.linkDown
    · exact h
  · exact h.foldl fun _ ht _ => ht.linkDown
  · exact h

theorem execClassBFault_sound {f} (h : s.memOk) (_hq : s.quiet) : Sound (execClassBFault f s) := by
  unfold execClassBFault
  refine .ite .fault ?_
  dsimp only
  split
  · exact .done (.ite h.loseB.askB h.loseB)
  · exact .done h.loseB.askB

theorem execClassCFault_sound {f} (h : s.memOk) (_hq : s.quiet) : Sound (execClassCFault f s) := by
  unfold execClassCFault
  refine .ite .fault (.done (.askC ?_))
  split
  · exact h.updStack fun _ hy => hy.congr'
  · exact h.sheetOff
  · exact h.sheetOff
  · exact h

theorem execRoutingDrainComplete_sound (h : s.memOk) (hq : s.quiet) : Sound (execRoutingDrainComplete s) :=
  .ite (.next h hq) (.done h.congr)

theorem State.memOk.writeBuilt {b} (h : s.memOk) : (s.writeBuilt b).memOk := by
  unfold State.writeBuilt
  dsimp only
  refine .congr' (.updCores ?_ ?_)
  · split
    · refine .foldl ?_ fun _ ht _ => ht.updCore fun _ hc => hc.imageCore.congr
      exact .ite h.congr.nextEpoch h.congr
    · exact .ite h.congr.nextEpoch h.congr
  · exact fun _ _ hc => hc.congr

theorem execRoutingTablesBuilt_sound (h : s.memOk) (hq : s.quiet) : Sound (execRoutingTablesBuilt s) :=
  .ite (.next h hq) (.done (.ite (((h.foldl (fun _ ht _ => ht.event)).writeBuilt).askC) ((h.foldl (fun _ ht _ => ht.event)).writeBuilt)))

theorem execRoutingWriteComplete_sound (h : s.memOk) (hq : s.quiet) : Sound (execRoutingWriteComplete s) :=
  .ite (.next h hq) (.done h.congr)

theorem State.memOk.reloaded (h : s.memOk) : s.reloaded.memOk :=
  .ite h.congr.estimate.congr.deliverHeld h.congr.estimate.startBatch

theorem execRoutingReadbackComplete_sound {ok} (h : s.memOk) (hq : s.quiet) : Sound (execRoutingReadbackComplete ok s) :=
  .ite (.next h hq) (.ite (.done h.reloaded.advanceDrain) (.ite (.done h.congr) (.done h.askReset)))

theorem execOwedUpdatesDone_sound (h : s.memOk) (hq : s.quiet) : Sound (execOwedUpdatesDone s) :=
  .ite (.next h hq) (.ite (.done h.endBatch) (.done h.congr.replayOrRealign))

theorem State.memOk.releaseAgain (h : s.memOk) : s.releaseAgain.memOk :=
  h.congr.releaseQueues.endBatch

theorem execReplayRelease_sound (h : s.memOk) (hq : s.quiet) : Sound (execReplayRelease s) := by
  unfold execReplayRelease
  split
  · exact .ite (.next h hq) (.done h.sendCapture.releaseAgain)
  · exact .next h hq

theorem execRealignRelease_sound (h : s.memOk) (hq : s.quiet) : Sound (execRealignRelease s) := by
  unfold execRealignRelease
  split
  · exact .ite (.next h hq) (.done h.startStep.endBatch)
  · exact .next h hq

theorem State.memOk.permanent {n} (h : s.memOk) : (s.permanent n).memOk :=
  .ite h (.ite h.congr h.congr.event)

theorem execCoreSelfTestComplete_sound {core ok} (h : s.memOk) (hq : s.quiet) : Sound (execCoreSelfTestComplete core ok s) :=
  .withCore (.ite (.next h hq) (.done (.ite h.congr h.congr.permanent)))

/-! ### Image slots (R721) -/

theorem State.memOk.setFw {f} (h : s.memOk) : (s.setFw f).memOk :=
  .ite h.congr h.congr.nvBegin

/-! ### Plan load and unload (R401 to R404, R424) -/

theorem State.memOk.opened {f} (h : s.memOk) (hf : ∀ t, t.memOk → (f t).1.memOk) : (s.opened f).1.memOk := by
  unfold State.opened
  split
  · exact h
  · exact hf s h

theorem State.memOk.acted {index sub} (h : s.memOk) : (s.acted index sub).1.memOk :=
  h.actionDone

theorem State.memOk.endLoad {status detail} (h : s.memOk) : (s.endLoad status detail).memOk :=
  .ite (.actionEnd (.ite h.congr.actionEnd h.congr)) (.ite h.congr.actionEnd h.congr)

theorem State.memOk.checkLoad {l} (h : s.memOk) : (s.checkLoad l).memOk := by
  unfold State.checkLoad
  dsimp only
  split
  · exact h.readHbm.endLoad
  · split
    · exact h.readHbm.endLoad
    · exact h.readHbm.congr'

theorem State.memOk.beginLoad {l} (h : s.memOk) : (s.beginLoad l).memOk :=
  .ite h.checkLoad h.congr.ascend

theorem State.memOk.opPlanLoad {stack address length} (h : s.memOk) : (s.opPlanLoad stack address length).1.memOk := by
  unfold State.opPlanLoad
  refine h.opened (fun _ ht => ?_)
  split
  · exact ht
  · split
    · exact ht
    · split
      · exact ht
      · exact ht.actionStart.beginLoad

theorem State.memOk.writeLegend {p} (h : s.memOk) : (s.writeLegend p).memOk :=
  h.congr

theorem State.memOk.freeImage {l rs} (h : s.memOk) : (s.freeImage l rs).memOk :=
  h.foldl fun _ ht _ => .ite ht ht.fresh.writeStack

theorem State.memOk.writeSchedule {p} (h : s.memOk) : (s.writeSchedule p).memOk :=
  h.foldl fun _ ht _ => ht.writeStack

theorem CoreSt.memOk.atLoad (h : c.memOk) : c.atLoad.memOk := ⟨h.1, h.2.1, Memory.wf_nil⟩

theorem StackSt.memOk.atLoad {x : StackSt} (h : x.memOk) : x.atLoad.memOk :=
  h.congr

theorem State.memOk.clearPlanScope (h : s.memOk) : s.clearPlanScope.memOk :=
  ⟨List.forall_mem_map.2 fun x hx => (h.1 x hx).atLoad, List.forall_mem_map.2 fun x hx => StackSt.memOk.atLoad (h.2.1 x hx), h.2.2⟩

theorem State.memOk.restartPeers (h : s.memOk) : s.restartPeers.memOk :=
  h.congr

theorem State.memOk.freshCopies {p} (h : s.memOk) : (s.freshCopies p).memOk :=
  h.foldl fun _ ht _ => ht.foldl (fun _ ht1 _ => ht1.congr)

theorem State.memOk.applyPlan {l p} (h : s.memOk) : (s.applyPlan l p).memOk := by
  unfold State.applyPlan
  extract_lets _ s₁ s₂ s₃ _ s₄ _ _ _ s₅ s₆ _ s₇ s₈ _ s₉
  have h₂ : s₂.memOk := h.clearPlanScope.freeImage.writeSchedule.writeLegend
  clear_value s₂
  have h₃ : s₃.memOk := h₂.foldl fun _ ht _ => ht.updCore fun _ hc => hc.imageCore
  clear_value s₃
  have h₄ : s₄.memOk := State.memOk.nextEpoch (.measure h₃.congr)
  clear_value s₄
  have h₅ : s₅.memOk := h₄.congr
  clear_value s₅
  have h₆ : s₆.memOk := h₅.loadCounters.initScales.restartPeers
  clear_value s₆
  have h₇ : s₇.memOk := State.memOk.recoverJournals h₆.congr
  clear_value s₇
  have h₈ : s₈.memOk := h₇.testPorts
  clear_value s₈
  have h₉ : s₉.memOk := .ite h₈.controlAll (.freshCopies h₈.congr)
  exact h₉.endLoad.info

theorem State.memOk.opPlanUnload (h : s.memOk) : s.opPlanUnload.1.memOk := by
  unfold State.opPlanUnload
  refine h.opened (fun _ ht => ?_)
  split
  · exact ht
  · split
    · exact ht
    · exact ht.unloadPlan.acted

theorem State.memOk.opStepInput {step tokens bytes} (h : s.memOk) : (s.opStepInput step tokens bytes).1.memOk := by
  unfold State.opStepInput
  dsimp only
  refine h.opened (fun _ ht => ?_)
  split
  · exact ht
  · split
    · exact ht
    · split
      · exact ht
      · split
        · exact ht
        · exact ht.setRec.acted

theorem State.memOk.opJobStart (h : s.memOk) : s.opJobStart.1.memOk := by
  unfold State.opJobStart
  refine h.opened (fun _ ht => ?_)
  split
  · exact ht
  · split
    · exact ht
    · exact .acted (.ite (((ht.updCores (fun _ _ hc => hc.blankPlot)).congr').realign)
        (((ht.updCores (fun _ _ hc => hc.blankPlot)).congr').loadCounters))

theorem State.memOk.opJobAbort (h : s.memOk) : s.opJobAbort.1.memOk := by
  unfold State.opJobAbort
  refine h.opened (fun _ ht => ?_)
  split
  · exact ht.stopJob.acted
  · split
    · exact ht.endLoad.acted
    · split <;> exact ht.actionEnd

theorem State.memOk.opCheckpointArm {step dest port} (h : s.memOk) : (s.opCheckpointArm step dest port).1.memOk := by
  unfold State.opCheckpointArm
  refine h.opened (fun _ ht => ?_)
  split
  · exact ht
  · split
    · exact ht
    · split
      · exact ht
      · split
        · exact ht
        · split
          · exact ht
          · exact ht.congr'.setDest.acted

theorem State.memOk.opCheckpointSeal (h : s.memOk) : s.opCheckpointSeal.1.memOk := by
  unfold State.opCheckpointSeal
  refine h.opened (fun _ ht => ?_)
  split
  · exact ht
  · split
    · exact ht
    · split
      · exact ht
      · exact ht.copyAllDue.congr'.startDrain.acted

theorem State.memOk.opSpareAdopt {module stack address length} (h : s.memOk) : (s.opSpareAdopt module stack address length).1.memOk := by
  unfold State.opSpareAdopt
  refine h.opened (fun _ ht => ?_)
  split
  · exact ht
  · split
    · exact ht
    · split
      · exact ht
      · split
        · exact ht
        · split
          · exact ht
          · exact ht.unloadPlan.actionStart.congr'.beginLoad

/-! ### Commands of the power system (chapter 16) -/

theorem execFeedStateChange_sound {feed mv} (h : s.memOk) (_hq : s.quiet) : Sound (execFeedStateChange feed mv s) :=
  .done h.feedTo

theorem execFeedReconnect_sound {feed} (h : s.memOk) (hq : s.quiet) : Sound (execFeedReconnect feed s) :=
  .ite (.next h hq) (.done h.until.feedTo)

theorem execFeedPresNRise_sound {feed} (h : s.memOk) (hq : s.quiet) : Sound (execFeedPresNRise feed s) :=
  .ite (.next h hq) (.done h.feedTo)

theorem execFeedPresNFall_sound {feed} (h : s.memOk) (hq : s.quiet) : Sound (execFeedPresNFall feed s) :=
  .ite (.next h hq) (.done h.feedTo)

theorem execPowerFail_sound (h : s.memOk) (hq : s.quiet) : Sound (execPowerFail s) :=
  .ite (.next h hq) (.done h.info.waferOff.congr)

theorem execCartoucheHoldupEnd_sound (h : s.memOk) (hq : s.quiet) : Sound (execCartoucheHoldupEnd s) :=
  .ite (.next h hq) (.done h.congr)

theorem State.memOk.convFails {c} (h : s.memOk) : (s.convFails c).memOk :=
  .ite h.congr.regEvent.sheetOff.askC h.congr.regEvent

theorem execConverterFailed_sound {conv} (h : s.memOk) (hq : s.quiet) : Sound (execConverterFailed conv s) :=
  .ite .fault (.ite (.next h hq) (.done h.convFails))

theorem execRailDeviation_sound {rail} (h : s.memOk) (hq : s.quiet) : Sound (execRailDeviation rail s) := by
  unfold execRailDeviation
  refine .withReg (.ite .fault (.ite (.next h hq) ?_))
  split
  · exact .done h.regEvent
  · exact .ite (.next h hq) (.done (.ite h.regEvent.regFails h.regEvent))

theorem execRegPhaseFailed_sound {phase} (h : s.memOk) (hq : s.quiet) : Sound (execRegPhaseFailed phase s) :=
  .withReg (.ite .fault (.ite (.next h hq) (.done (.ite h.updReg.regEvent.regFails h.updReg.regEvent))))

theorem execRegFailed_sound {reg railVoltageOk} (h : s.memOk) (hq : s.quiet) : Sound (execRegFailed reg railVoltageOk s) :=
  .withReg (.ite .fault (.ite (.next h hq) (.done h.regFails)))

theorem execRegShort_sound {reg railVoltageOk} (h : s.memOk) (hq : s.quiet) : Sound (execRegShort reg railVoltageOk s) :=
  .withReg (.ite .fault (.ite (.next h hq) (.done (.ite (.ite (h.updReg.regEvent.foldl (fun _ ht _ => ht.dropTie)) h.updReg.regEvent)
    (.regFails (.ite (h.updReg.regEvent.foldl (fun _ ht _ => ht.dropTie)) h.updReg.regEvent))))))

theorem execFencedCoreDrain_sound {core} (h : s.memOk) (hq : s.quiet) : Sound (execFencedCoreDrain core s) := by
  unfold execFencedCoreDrain
  dsimp only
  refine .withCore (.ite (.next h hq) (.done (.ite ?_ (.nextEpoch (.setCoreState ?_)))))
  all_goals
    refine .regsTurnOff (.updCore h.congr' ?_)
    exact fun _ _ => CoreSt.drainOut_memOk _

theorem execTurnOnRequest_sound {reg} (h : s.memOk) (_hq : s.quiet) : Sound (execTurnOnRequest reg s) :=
  .withReg (.ite .fault (.done h.requestTurnOn))

theorem execTurnOnAdmitted_sound {sheet present} (h : s.memOk) (_hq : s.quiet) : Sound (execTurnOnAdmitted sheet present s) := by
  unfold execTurnOnAdmitted
  refine .withSheet ?_
  dsimp only
  split <;> exact .done h.setGovernor

theorem execTurnOnWait_sound {sheet} (h : s.memOk) (hq : s.quiet) : Sound (execTurnOnWait sheet s) := by
  unfold execTurnOnWait
  refine .withSheet ?_
  dsimp only
  split
  · exact .next h hq
  · exact .done h.until.setGovernor.count

theorem execTurnOnRampComplete_sound {reg} (h : s.memOk) (hq : s.quiet) : Sound (execTurnOnRampComplete reg s) := by
  unfold execTurnOnRampComplete
  refine .withReg ?_
  dsimp only
  split
  · exact .next h hq
  · exact .done h.until.setGovernor.congr'

theorem State.memOk.trip (h : s.memOk) : s.trip.memOk :=
  h.congr.askReset

theorem execSensorSample_sound {r} (h : s.memOk) (_hq : s.quiet) : Sound (execSensorSample r s) := by
  unfold execSensorSample
  dsimp only
  refine .ite (.done (.trip (.waferOff ?_))) (.done (.foldl (.foldl ?_ fun _ ht _ => ht.coreHeat) fun _ ht _ => ht.sheetHeat))
  all_goals
    refine .coolant (.congr' (.failSensors ?_))
    exact .congr' h.until

theorem execDroopExcursion_sound {core} (h : s.memOk) (hq : s.quiet) : Sound (execDroopExcursion core s) :=
  .withCore (.ite (.next h hq) (.done h.congr.count))

theorem State.memOk.opPowerRequest {target} (h : s.memOk) : (s.opPowerRequest target).1.memOk := by
  unfold State.opPowerRequest
  refine h.opened (fun _ ht => ?_)
  split
  · exact ht
  · split
    · exact ht
    · split
      · exact ht
      · split
        · exact ht
        · split
          · exact ht.acted
          · exact ht.actionStart.congr'.ascend

theorem execPowerRequest_sound {target} (h : s.memOk) (_hq : s.quiet) : Sound (execPowerRequest target s) :=
  .done h.opPowerRequest

theorem State.memOk.enterLower {n} (h : s.memOk) : (s.enterLower n).memOk :=
  .ite h.congr.idlePorts (.ite h.congr.memoriesLost (.ite h.congr.hbmLost h.congr))

theorem State.memOk.enterHigher {n} (h : s.memOk) : (s.enterHigher n).memOk :=
  .ite h.congr (.foldl (.ite h.congr.congr h.congr) (fun _ ht _ => ht.trainPort))

theorem State.memOk.reached (h : s.memOk) : s.reached.memOk := by
  unfold State.reached
  dsimp only
  split
  · refine .ite (.ite (.checkLoad ?_) ?_) (.ascend (.congr' ?_))
    all_goals exact .ite h.congr.actionEnd h.congr
  · exact .ite h.congr.actionEnd h.congr

theorem execPowerTransitionComplete_sound (h : s.memOk) (hq : s.quiet) : Sound (execPowerTransitionComplete s) := by
  unfold execPowerTransitionComplete
  split
  · exact .next h hq
  · exact .ite (.next h hq) (.done (.ite (.reached (.ite h.enterLower (.ite h.enterHigher h)))
      (.ascend (.ite h.enterLower (.ite h.enterHigher h)))))

/-! ### Resets and release steps (R682 to R711) -/

theorem StackSt.memOk.warm {x : StackSt} (h : x.memOk) : x.warm.memOk :=
  h.congr

theorem State.memOk.restart {code warm} (h : s.memOk) : (s.restart code warm).memOk := by
  refine ⟨fun _ hp => absurd hp List.not_mem_nil, ?_, HostSt.reset_memOk⟩
  exact List.forall_mem_map.2 fun x hx => StackSt.memOk.ite (StackSt.memOk.warm (h.2.1 x hx)) (StackSt.lost_memOk _)

theorem State.memOk.assertReset (h : s.memOk) : s.assertReset.memOk := by
  unfold State.assertReset
  split
  · exact h
  · exact h.restart.noteAborted.event

theorem State.memOk.failStart (h : s.memOk) : s.failStart.memOk :=
  h.congr

theorem State.memOk.reverify (h : s.memOk) : s.reverify.memOk :=
  .ite h.congr h.congr.info

theorem State.memOk.enterDatum (h : s.memOk) : s.enterDatum.memOk :=
  h.waferOff.reverify.congr

theorem State.memOk.beginBoot (h : s.memOk) : s.beginBoot.memOk :=
  .ite h.enterDatum (.ite h.enterDatum (.ite h.congr.nvBegin.setFw.info h.congr.nvBegin))

theorem State.memOk.runSlot {i} (h : s.memOk) : (s.runSlot i).memOk :=
  h.congr

theorem State.memOk.imageInvalid {i} (h : s.memOk) : (s.imageInvalid i).memOk :=
  .info (.ite h h.info)

theorem State.memOk.bootFlash {bad} (h : s.memOk) : (s.bootFlash bad).memOk := by
  unfold State.bootFlash
  dsimp only
  split
  · exact h.failStart
  · refine .ite h.runSlot ?_
    split
    · exact h.imageInvalid.failStart
    · exact .ite h.imageInvalid.imageInvalid.failStart (.ite h.imageInvalid.setFw.runSlot h.imageInvalid.runSlot)

theorem State.memOk.bootStep {r} (h : s.memOk) : (s.bootStep r).memOk := by
  unfold State.bootStep
  dsimp only
  refine .ite h.failStart (.ite ?_ (.ite ?_ (.congr' ?_)))
  · split
    · exact h
    · exact .reverify (.congr' h)
  all_goals exact .bootFlash (.reverify (.ite h.setFw h))

theorem State.memOk.trimStep {r} (h : s.memOk) : (s.trimStep r).memOk := by
  unfold State.trimStep
  dsimp only
  refine .ite (.failStart ?_) (.ite (.failStart (.waferOff (.info ?_)))
    (.ite (.failStart (.waferOff (.info ?_))) (.ite ?_ (.ite (.failStart (.congr' (.info ?_))) ?_))))
  all_goals exact h.congr'

theorem State.memOk.converterStep {r} (h : s.memOk) : (s.converterStep r).memOk := by
  unfold State.converterStep
  extract_lets s₁ _ s₂ _ s₃
  have h₁ : s₁.memOk := h.congr
  have h₂ : s₂.memOk := h₁.foldl fun _ ht _ => ht.congr.regEvent
  have h₃ : s₃.memOk := h₂.foldl fun _ ht _ => ht.sheetOff.darken
  exact h₃.congr

theorem State.memOk.testLinks {wires bad} (h : s.memOk) : (s.testLinks wires bad).memOk :=
  h.congr.foldl fun _ ht _ => ht.linkDown

theorem State.memOk.linkStep {r} (h : s.memOk) : (s.linkStep r).memOk := by
  unfold State.linkStep
  dsimp only
  refine .congr' (.markRouters ?_)
  exact .testLinks h.congr'

theorem State.memOk.stackStep {r} (h : s.memOk) : (s.stackStep r).memOk := by
  unfold State.stackStep
  dsimp only
  refine .congr' (.recoverJournals ?_)
  refine .foldl h.congr' fun _ ht _ => ht.updStack ?_
  exact fun _ hy => hy.congr

theorem State.memOk.coreStep {r} (h : s.memOk) : (s.coreStep r).memOk := by
  unfold State.coreStep
  refine .measure ⟨fun _ hp => absurd hp List.not_mem_nil, ?_⟩
  exact (h.foldl fun _ ht _ => ht.permanent).2

theorem State.memOk.portStep {r} (h : s.memOk) : (s.portStep r).memOk :=
  h.congr.foldl fun _ ht _ => ht.trainPort

theorem State.memOk.readyStep (h : s.memOk) : s.readyStep.memOk :=
  h.congr.nvBegin

theorem State.memOk.strapStep {r} (h : s.memOk) : (s.strapStep r).memOk :=
  .ite h.congr.congr h.congr.beginBoot

theorem State.memOk.releaseStep {r} (h : s.memOk) : (s.releaseStep r).memOk := by
  unfold State.releaseStep
  split
  · exact h.strapStep
  · exact .ite h h.bootStep
  · exact h.trimStep
  · exact h.converterStep
  · exact h.linkStep
  · exact h.stackStep
  · exact h.coreStep
  · exact h.portStep
  · exact h.readyStep
  · exact h

theorem CoreSt.memOk.fabricReset (h : c.memOk) : c.fabricReset.memOk :=
  h.congr

theorem CoreSt.coreReset_memOk (c : CoreSt) : c.coreReset.memOk := ⟨Memory.wf_nil, Memory.wf_nil, Memory.wf_nil⟩

theorem State.memOk.overtakeCore (h : s.memOk) : s.overtakeCore.memOk :=
  .ite h h.congr.actionEnd

theorem State.memOk.opResetFabric (h : s.memOk) : s.opResetFabric.1.memOk := by
  unfold State.opResetFabric
  split
  · exact h
  · dsimp only
    refine .actionStart (.mapCores' h.overtakeCore.event ?_)
    exact fun _ hx => hx.fabricReset

theorem State.memOk.opResetCore {core} (h : s.memOk) : (s.opResetCore core).1.memOk := by
  unfold State.opResetCore
  split
  · exact h
  · split
    · exact h
    · split
      · exact h.acted
      · refine .actionStart (.congr' (h.event.updCore ?_))
        exact fun _ _ => CoreSt.coreReset_memOk _

theorem State.memOk.opReset {path scope} (h : s.memOk) : (s.opReset path scope).1.memOk :=
  h.askReset.acted

theorem State.memOk.opDatumExit {path} (h : s.memOk) : (s.opDatumExit path).1.memOk := by
  unfold State.opDatumExit
  split
  · exact h
  · exact h.congr'.nvBegin.askReset.acted

theorem HostSt.perst_memOk (x : HostSt) (up : Bool) : (x.perst up).memOk := HostSt.reset_memOk

end Sys2Proof.Machine
end

section
/-!
Memories stay canonical: firmware, captures, the layer update, the object dictionary and the Chart protocol.
-/

namespace Sys2Proof.Machine

set_option Elab.async false

variable {s : State} {c : CoreSt}

/-! ### Delivery of firmware bundles (R722 to R739) -/

theorem State.memOk.allow {path n t} (h : s.memOk) (ht : s.allow path n = some t) : t.memOk := by
  unfold State.allow at ht
  dsimp only at ht
  split at ht
  · cases ht
    exact h
  · split at ht
    · cases ht
    · cases ht
      exact h.congr

theorem State.memOk.setDelivery {d} (h : s.memOk) : (s.setDelivery d).memOk :=
  .ite h.congr h.congr

theorem State.memOk.rejectChunks {name info d} (h : s.memOk) : (s.rejectChunks name info d).memOk :=
  h.setDelivery.info

theorem State.memOk.headerChunk {c data} (h : s.memOk) : (s.headerChunk c data).1.memOk := by
  unfold State.headerChunk
  dsimp only
  split
  · exact h.setDelivery
  · split
    · exact h.rejectChunks
    · exact .ite h.setDelivery h.setDelivery.congr'

theorem State.memOk.manifestChunk {c data} (h : s.memOk) : (s.manifestChunk c data).1.memOk := by
  unfold State.manifestChunk
  dsimp only
  split
  · exact h.setDelivery
  · split
    · exact h.rejectChunks
    · exact h.setDelivery

theorem State.memOk.bodyChunk {c data} (h : s.memOk) : (s.bodyChunk c data).1.memOk := by
  unfold State.bodyChunk
  dsimp only
  split
  · exact h.rejectChunks
  · exact .ite h.congr' h.setDelivery

theorem State.memOk.chunk {path c data} (h : s.memOk) : (s.chunk path c data).1.memOk := by
  unfold State.chunk
  dsimp only
  split
  · exact h
  · split
    · exact h
    · split
      · exact h.headerChunk
      · split
        · exact h
        · split
          · exact h
          · split
            · exact h.manifestChunk
            · split
              · exact h
              · exact h.bodyChunk

theorem execBundle_sound {path offset data} (h : s.memOk) (hq : s.quiet) : Sound (execBundle path offset data s) := by
  refine .ite (.next h hq) ?_
  split
  · exact .next h hq
  · next t ht => exact .done (h.allow ht).chunk

theorem State.memOk.opBundleAbandon (h : s.memOk) : s.opBundleAbandon.1.memOk :=
  h.congr.acted

theorem execBundleAbandon_sound (h : s.memOk) (_hq : s.quiet) : Sound (execBundleAbandon s) :=
  .done h.opBundleAbandon

theorem State.memOk.opFwSwap {path} (h : s.memOk) : (s.opFwSwap path).1.memOk := by
  unfold State.opFwSwap
  split
  · exact h
  · split
    · exact h
    · exact h.setFw.askReset.acted

theorem execFwSwap_sound {path} (h : s.memOk) (_hq : s.quiet) : Sound (execFwSwap path s) :=
  .done h.opFwSwap

theorem State.memOk.opFwConfirm (h : s.memOk) : s.opFwConfirm.1.memOk := by
  unfold State.opFwConfirm
  dsimp only
  split
  · exact h
  · exact h.congr'.nvBegin.acted

theorem execFwConfirm_sound (h : s.memOk) (_hq : s.quiet) : Sound (execFwConfirm s) :=
  .done h.opFwConfirm

theorem execConfirmExpiry_sound (h : s.memOk) (hq : s.quiet) : Sound (execConfirmExpiry s) :=
  .ite (.next h hq) (.done (.ite h.until.setFw.info h.until.setFw.info.askReset))

theorem execConfirmStore_sound (h : s.memOk) (hq : s.quiet) : Sound (execConfirmStore s) := by
  unfold execConfirmStore
  exact .ite (.next h hq) (.done h.until.congr'.nvBegin)

/-! ### Captures and snapshots (R760 to R768) -/

theorem execCaptureMessage_sound {block} (h : s.memOk) (hq : s.quiet) : Sound (execCaptureMessage block s) := by
  unfold execCaptureMessage
  refine .ite .fault ?_
  split
  · exact .next h hq
  · exact .done h.captureBlock.hadMessage

theorem execGazInterval_sound (h : s.memOk) (hq : s.quiet) : Sound (execGazInterval s) := by
  unfold execGazInterval
  exact .ite (.next h hq) (.done h.until.congr')

theorem execGazetteerSweep_sound (h : s.memOk) (hq : s.quiet) : Sound (execGazetteerSweep s) := by
  unfold execGazetteerSweep
  split
  · exact .next h hq
  · split
    · exact .next h hq
    · dsimp only
      generalize gazRecord _ _ _ = r
      have hw : ∀ a, (s.writeHbm gazRingStack a r .scrub).memOk := fun _ => h.writeHbm
      split <;> refine .done ?_
      · exact (hw _).congr
      · exact h.congr

theorem State.memOk.clearCounts (h : s.memOk) : s.clearCounts.memOk := by
  unfold State.clearCounts
  dsimp only
  refine h.mapCores' ?_
  exact fun _ hx => hx.congr'

theorem State.memOk.setCounterSelect {blob} (h : s.memOk) : (s.setCounterSelect blob).1.memOk := by
  unfold State.setCounterSelect
  split
  · exact h
  · exact h.congr'.clearCounts

theorem execCounterSelect_sound {blob} (h : s.memOk) (hq : s.quiet) : Sound (execCounterSelect blob s) :=
  .ite (.next h hq) (.done h.setCounterSelect)

/-! ### The layer update (R472 to R498) -/

theorem execUpdateWaitExpiry_sound {layer step} (h : s.memOk) (hq : s.quiet) : Sound (execUpdateWaitExpiry layer step s) := by
  unfold execUpdateWaitExpiry
  split
  · exact .next h hq
  · exact .ite (.next h hq) (.done h.until.updateReady)

theorem State.memOk.endUpdate {layer step} (h : s.memOk) : (s.endUpdate layer step).memOk :=
  h.congr

theorem State.memOk.missTiles {r step} (h : s.memOk) : (s.missTiles r step).memOk := by
  unfold State.missTiles
  dsimp only
  split
  · exact h
  · exact h.foldl fun _ ht _ => ht.layCount.plotEvent.congr'.noteForward

theorem CoreSt.memOk.feedPlot {program rows} (h : c.memOk) : (c.feedPlot program rows).memOk :=
  h.congr

theorem State.memOk.feedSheet {sheet layer step} (h : s.memOk) : (s.feedSheet sheet layer step).memOk :=
  h.updCores fun _ _ hc => hc.feedPlot

theorem State.memOk.startUpdate {sheet u r p} (h : s.memOk) : (s.startUpdate sheet u r p).memOk := by
  unfold State.startUpdate
  refine .ite h.layCount.endUpdate (.congr' (.feedSheet (.ite h ?_)))
  dsimp only
  split
  · exact .promote (.ite h.missTiles.layCount.event h.missTiles)
  · exact .ite h.missTiles.layCount.event h.missTiles

theorem execPlotterUpdateStart_sound {sheet} (h : s.memOk) (hq : s.quiet) : Sound (execPlotterUpdateStart sheet s) := by
  unfold execPlotterUpdateStart
  refine .withSheet (.ite (.next h hq) ?_)
  split
  · exact .next h hq
  · split
    · exact .next h hq
    · split
      · exact .done h.layCount.plotEvent.endUpdate
      · dsimp only
        split
        · exact .done h.readHbm
        · exact .ite (.done h.readHbm.copyFound.startUpdate) (.done h.readHbm.copyFound)

theorem State.memOk.noteSkip {r step a} (h : s.memOk) : (s.noteSkip r step a).memOk := by
  unfold State.noteSkip
  split
  · exact h
  · exact h.layCount.plotEvent
  · exact h.plotEvent
  · exact h.layCount.plotEvent
  · exact h.layCount.plotEvent

theorem State.memOk.sendDownUpdate {r p step} (h : s.memOk) : (s.sendDownUpdate r p step).memOk := by
  unfold State.sendDownUpdate
  split
  · exact h.regenerate
  · exact h

theorem State.memOk.refreshMirror {r p} (h : s.memOk) : (s.refreshMirror r p).memOk := by
  unfold State.refreshMirror
  split
  · exact h.countUpdate
  · exact h

theorem State.memOk.idleSheet {sheet} (h : s.memOk) : (s.idleSheet sheet).memOk :=
  h.congr

theorem State.memOk.finishUpdate {sheet u r p} (h : s.memOk) : (s.finishUpdate sheet u r p).memOk := by
  unfold State.finishUpdate
  have hx : (if s.refreshDue u.layer then s.readAll (p.reads (s.stateHdr p).active) else (s, true)).1.memOk := by
    split
    · exact h.readAll
    · exact h
  dsimp only
  exact .ite (.idleSheet (.refreshMirror hx)) (.congr' hx)

theorem State.memOk.skipUpdate {sheet u r p k fl} (h : s.memOk) : (s.skipUpdate sheet u r p k fl).memOk :=
  h.flushOn.noteSkip.putHdr.sendDownUpdate.endUpdate.finishUpdate

theorem State.memOk.applyUpdate {sheet u r p c g fl} (h : s.memOk) : (s.applyUpdate sheet u r p c g fl).memOk :=
  .congr (.ite (.plotEvent (.ite h.writeStack.writeStack.flushOn.layCount.count.plotEvent h.writeStack.writeStack.flushOn.layCount.count))
    (.ite h.writeStack.writeStack.flushOn.layCount.count.plotEvent h.writeStack.writeStack.flushOn.layCount.count))

theorem State.memOk.endFeed {sheet} (h : s.memOk) : (s.endFeed sheet).memOk :=
  h.updCores fun _ _ hc => hc.clearPlot

theorem execUpdateComputed_sound {sheet} (h : s.memOk) (hq : s.quiet) : Sound (execUpdateComputed sheet s) := by
  unfold execUpdateComputed
  refine .withSheet ?_
  split
  · exact .next h hq
  · refine .ite (.next h hq) ?_
    split
    · refine .ite (.done h.checkpointCopy.readAll) ?_
      dsimp only
      split
      · exact .done h.checkpointCopy.readAll.endFeed.applyUpdate.askAllMerges
      · exact .done h.checkpointCopy.readAll.endFeed.skipUpdate.askAllMerges
    · exact .next h hq

theorem execUpdateReadbackComplete_sound {sheet} (h : s.memOk) (hq : s.quiet) : Sound (execUpdateReadbackComplete sheet s) := by
  unfold execUpdateReadbackComplete
  refine .withSheet ?_
  split
  · exact .next h hq
  · refine .ite (.next h hq) ?_
    split
    · exact .ite (.done h.readAll) (.done h.readAll.putHdr.sendDownUpdate.count.endUpdate.askAllMerges.congr')
    · exact .next h hq

theorem execJournalCopyComplete_sound {sheet} (h : s.memOk) (hq : s.quiet) : Sound (execJournalCopyComplete sheet s) := by
  unfold execJournalCopyComplete
  refine .withSheet ?_
  split
  · exact .next h hq
  · refine .ite (.next h hq) ?_
    split
    · exact .ite (.done h.copyFound.finishUpdate.askAllMerges) (.done h.copyFound)
    · exact .next h hq

theorem execTakeoverWaitExpiry_sound {layer tile step} (h : s.memOk) (hq : s.quiet) : Sound (execTakeoverWaitExpiry layer tile step s)
    := by
  unfold execTakeoverWaitExpiry
  refine .ite (.next h hq) ?_
  split
  · exact .next h hq
  · exact .done h.until.forwardSum

theorem execAlarms_sound {src layer step value} (h : s.memOk) (hq : s.quiet) : Sound (execAlarms src layer step value s) :=
  .ite (.next h hq) (.done h.alarmFrom)

theorem execTakeover_sound {src layer x} (h : s.memOk) (hq : s.quiet) : Sound (execTakeover src layer x s) :=
  .ite (.next h hq) (.done h.takeoverFor)

theorem State.memOk.clearPlotterFlags (h : s.memOk) : s.clearPlotterFlags.memOk := by
  unfold State.clearPlotterFlags
  refine ((h.foldl (fun _ ht _ => ?_)).askAllMerges).actionDone
  split
  · exact ht.writeStack
  · exact ht

/-! ### What a write of an entry does (R613 to R627) -/

theorem State.memOk.refuse {x x1} (h : s.memOk) : (refuse x s x1).1.memOk :=
  h

theorem State.memOk.drawn (h : s.memOk) : s.drawn.memOk :=
  h.congr

theorem State.memOk.opFlushFlagsClear (h : s.memOk) : s.opFlushFlagsClear.1.memOk := by
  refine h.opened fun t ht => State.memOk.acted (ht.mapCores ?_)
  exact fun _ hx => hx.congr

theorem execFlushFlagsClear_sound (h : s.memOk) (_hq : s.quiet) : Sound (execFlushFlagsClear s) :=
  .done h.opFlushFlagsClear

theorem State.memOk.opAccFlagsClear (h : s.memOk) : s.opAccFlagsClear.1.memOk := by
  refine h.opened fun t ht => State.memOk.acted (ht.mapCores ?_)
  exact fun _ hx => hx.congr

theorem execAccFlagsClear_sound (h : s.memOk) (_hq : s.quiet) : Sound (execAccFlagsClear s) :=
  .done h.opAccFlagsClear

theorem State.memOk.opFieldDefectsClear (h : s.memOk) : s.opFieldDefectsClear.1.memOk := by
  unfold State.opFieldDefectsClear
  refine h.opened (fun _ ht => ?_)
  split
  · exact ht
  · exact ht.congr'.acted

theorem execFieldDefectsClear_sound (h : s.memOk) (_hq : s.quiet) : Sound (execFieldDefectsClear s) :=
  .done h.opFieldDefectsClear

theorem State.memOk.opNvLogClear (h : s.memOk) : s.opNvLogClear.1.memOk := by
  unfold State.opNvLogClear
  refine h.opened (fun _ ht => ?_)
  split
  · exact ht
  · exact ht.congr'.nvBegin.acted

theorem execNvLogClear_sound (h : s.memOk) (_hq : s.quiet) : Sound (execNvLogClear s) :=
  .done h.opNvLogClear

theorem State.memOk.opPlotterFlagsClear (h : s.memOk) : s.opPlotterFlagsClear.1.memOk :=
  h.opened fun _ ht => ht.clearPlotterFlags

theorem execPlotterFlagsClear_sound (h : s.memOk) (_hq : s.quiet) : Sound (execPlotterFlagsClear s) :=
  .done h.opPlotterFlagsClear

/-! ### Writes of the single entries (R628 to R638) -/

theorem State.memOk.setPeerTable {b} (h : s.memOk) : (s.setPeerTable b).1.memOk := by
  unfold State.setPeerTable
  dsimp only
  split
  · exact h
  · exact h.congr'

theorem State.memOk.setAddresses {gateways b} (h : s.memOk) : (s.setAddresses gateways b).1.memOk := by
  unfold State.setAddresses
  split
  · exact h
  · exact h.congr'

theorem State.memOk.setPortModes {v} (h : s.memOk) : (s.setPortModes v).memOk :=
  h.congr.foldl fun _ ht _ => ht.trainPort

theorem State.memOk.setNotify {b} (h : s.memOk) : (s.setNotify b).1.memOk := by
  unfold State.setNotify
  split
  · exact h
  · exact h.congr'

theorem State.memOk.setRateCap {v} (h : s.memOk) : (s.setRateCap v).memOk :=
  h.congr

theorem State.memOk.setFmt {f} (h : s.memOk) : (s.setFmt f).memOk :=
  h.congr

theorem State.memOk.setHal {f} (h : s.memOk) : (s.setHal f).memOk :=
  h.congr

theorem State.memOk.setPlot {f} (h : s.memOk) : (s.setPlot f).memOk :=
  h.congr

theorem State.memOk.setPower {f} (h : s.memOk) : (s.setPower f).memOk :=
  h.congr

theorem State.memOk.setGazConsumer {v} (h : s.memOk) : (s.setGazConsumer v).1.memOk := by
  unfold State.setGazConsumer
  extract_lets
  split
  · exact h
  · exact h.congr'

theorem State.memOk.setAuthKeys {path b} (h : s.memOk) : (s.setAuthKeys path b).1.memOk := by
  unfold State.setAuthKeys
  dsimp only
  split
  · exact h
  · split
    · exact h
    · exact h.congr'

/-! ### The object dictionary (R613 to R615) -/

theorem State.memOk.opAttest {nonce} (h : s.memOk) : (s.opAttest nonce).1.memOk := by
  unfold State.opAttest
  split
  · exact h
  · exact h.congr'.actionStart

theorem execAttest_sound {nonce} (h : s.memOk) (hq : s.quiet) : Sound (execAttest nonce s) :=
  .ite (.next h hq) (.done h.opAttest)

theorem execAttestSigned_sound (h : s.memOk) (hq : s.quiet) : Sound (execAttestSigned s) := by
  unfold execAttestSigned
  split
  · exact .next h hq
  · exact .done h.congr'.actionEnd

/-- A write to an entry, whatever it holds, leaves memories canonical. -/
def OdEntry.Keeps (e : OdEntry) : Prop := ∀ path t b, t.memOk → (e.set path t b).1.memOk

theorem OdEntry.Keeps.ro {index sub type scope name fields get} : (ro index sub type scope name fields get).Keeps :=
  fun _ _ _ h => h

theorem OdEntry.Keeps.num {index sub access scope name type size get ok set} (hset : ∀ t v, t.memOk → (set t v).memOk) :
    (num index sub access scope name type size get ok set).Keeps := by
  intro path t b h
  dsimp only [Machine.num]
  split
  · exact hset t _ h
  · exact h

theorem OdEntry.Keeps.blobRw {index sub access scope name get set} (hset : ∀ t b, t.memOk → (set t b).1.memOk) :
    (blobRw index sub access scope name get set).Keeps :=
  fun _ t b h => hset t b h

theorem OdEntry.Keeps.cmdRec {index sub name fields act} (hact : ∀ path t b, t.memOk → (act path t b).1.memOk) :
    (cmdRec index sub name fields act).Keeps := hact

theorem OdEntry.Keeps.cmd {index sub name act} (hact : ∀ path t, t.memOk → (act path t).1.memOk) : (cmd index sub name act).Keeps :=
  fun path t _ h => hact path t h

theorem OdEntry.Keeps.cmdStatus {index sub name fields get act} (hact : ∀ path t b, t.memOk → (act path t b).1.memOk) :
    (cmdStatus index sub name fields get act).Keeps := hact

theorem odIdentity_keeps : ∀ e ∈ odIdentity, e.Keeps := by
  simp only [odIdentity, List.forall_mem_cons]
  exact ⟨.ro, .ro, .ro, .ro, .ro, .ro, .ro, nofun⟩

theorem odSurvey_keeps : ∀ e ∈ odSurvey, e.Keeps := by
  simp only [odSurvey, List.forall_mem_cons]
  exact ⟨.ro, .ro, .ro, nofun⟩

theorem odPorts_keeps : ∀ e ∈ odPorts, e.Keeps := by
  simp only [odPorts, List.forall_mem_cons]
  exact ⟨.num fun _ _ h => h.setPortModes, .ro, .blobRw fun _ _ h => h.setAddresses, .blobRw fun _ _ h => h.setAddresses,
    .num fun _ _ h => h.congr, .num fun _ _ h => h.congr, .blobRw fun _ _ h => h.setPeerTable, .ro, .ro, nofun⟩

theorem odField_keeps : ∀ e ∈ odField, e.Keeps := by
  simp only [odField, List.forall_mem_cons]
  exact ⟨.ro, .num fun _ _ h => h.congr, .blobRw fun _ _ h => h.setNotify, .num fun _ _ h => h.congr, .ro,
    .num fun _ _ h => h.congr, .num fun _ _ h => h.congr, .num fun _ _ h => h.congr, .ro, nofun⟩

theorem odFirmware_keeps : ∀ e ∈ odFirmware, e.Keeps := by
  simp only [odFirmware, List.forall_mem_cons]
  exact ⟨.ro, .ro, fun _ _ _ h => h, .ro, .num fun _ _ h => h.setRateCap, .cmd fun _ _ h => h.opBundleAbandon,
    .cmd fun _ _ h => h.opFwSwap, .cmd fun _ _ h => h.opFwConfirm, .ro, nofun⟩

theorem odJob_keeps : ∀ e ∈ odJob, e.Keeps := by
  simp only [odJob, List.forall_mem_cons]
  exact ⟨.ro, .cmd fun _ _ h => h.opJobStart, .ro, .ro, .cmdStatus fun _ _ _ h => h.opJobAbort, .ro, .ro,
    .cmdStatus fun _ _ _ h => h.opPlanLoad, .ro, .ro, .cmd fun _ _ h => h.opPlanUnload, .ro, .ro, .ro, .ro, .ro,
    .cmdRec fun _ _ _ h => h.opStepInput, .ro, .cmdRec fun _ _ _ h => h.opCheckpointArm, .cmd fun _ _ h => h.opCheckpointSeal,
    .ro, .cmdRec fun _ _ _ h => h.opSpareAdopt, .ro, nofun⟩

theorem odWafer_keeps : ∀ e ∈ odWafer, e.Keeps := by
  simp only [odWafer, List.forall_mem_cons]
  exact ⟨.ro, .num fun _ _ h => h.congr, .ro, .ro, .ro, .ro, .ro, .ro, .cmd fun _ _ h => h.opFieldDefectsClear, nofun⟩

theorem odStacks_keeps : ∀ e ∈ odStacks, e.Keeps := by
  simp only [odStacks, List.forall_mem_cons]
  exact ⟨.ro, .ro, .ro, .num fun _ _ h => h.congr, .num fun _ _ h => h.congr, nofun⟩

theorem odFabric_keeps : ∀ e ∈ odFabric, e.Keeps := by
  simp only [odFabric, List.forall_mem_cons]
  exact ⟨.num fun _ _ h => h.congr, .num fun _ _ h => h.congr, .num fun _ _ h => h.congr, .num fun _ _ h => h.congr, .ro, .ro,
    .ro, .ro, .ro, nofun⟩

theorem odFormats_keeps : ∀ e ∈ odFormats, e.Keeps := by
  simp only [odFormats, List.forall_mem_cons]
  exact ⟨.num fun _ _ h => h.setFmt, .num fun _ _ h => h.setFmt, .num fun _ _ h => h.setFmt, .num fun _ _ h => h.setFmt,
    .num fun _ _ h => h.setFmt, .num fun _ _ h => h.setFmt, .num fun _ _ h => h.setFmt, .num fun _ _ h => h.setFmt,
    .num fun _ _ h => h.setFmt, .num fun _ _ h => h.setFmt, .ro, .cmd fun _ _ h => h.opFlushFlagsClear, .ro, .ro, .ro,
    .cmd fun _ _ h => h.opAccFlagsClear, nofun⟩

theorem odHalyard_keeps : ∀ e ∈ odHalyard, e.Keeps := by
  simp only [odHalyard, List.forall_mem_cons]
  exact ⟨.ro, .ro, .num fun _ _ h => h.setHal, .num fun _ _ h => h.setHal, .num fun _ _ h => h.setHal,
    .num fun _ _ h => h.setHal, .num fun _ _ h => h.setHal, .ro, nofun⟩

theorem odPlotter_keeps : ∀ e ∈ odPlotter, e.Keeps := by
  simp only [odPlotter, List.forall_mem_cons]
  exact ⟨.ro, .ro, .num fun _ _ h => h.setPlot, .num fun _ _ h => h.setPlot, .num fun _ _ h => h.setPlot, .ro,
    .cmd fun _ _ h => h.opPlotterFlagsClear, nofun⟩

theorem odPower_keeps : ∀ e ∈ odPower, e.Keeps := by
  simp only [odPower, List.forall_mem_cons]
  exact ⟨.ro, .cmdRec fun _ _ _ h => h.opPowerRequest, .ro, .ro, .ro, .num fun _ _ h => h.setPower, .num fun _ _ h => h.setPower,
    .num fun _ _ h => h.setPower, .ro, .ro, .ro, .ro, .ro, .ro, .ro, .ro, .ro, .ro, .ro, nofun⟩

theorem odReset_keeps : ∀ e ∈ odReset, e.Keeps := by
  simp only [odReset, List.forall_mem_cons]
  exact ⟨.ro, .ro, .ro, .cmd fun _ _ h => h.opReset, .cmd fun _ _ h => h.opReset, .cmd fun _ _ h => h.opResetFabric,
    .cmdRec fun _ _ _ h => h.opResetCore, .ro, .cmd fun _ _ h => h.opDatumExit, .ro, nofun⟩

theorem odEvents_keeps : ∀ e ∈ odEvents, e.Keeps := by
  simp only [odEvents, List.forall_mem_cons]
  exact ⟨.ro, .ro, .ro, .cmd fun _ _ h => h.opNvLogClear, .ro, .ro, nofun⟩

theorem odGaz_keeps : ∀ e ∈ odGaz, e.Keeps := by
  simp only [odGaz, List.forall_mem_cons]
  exact ⟨.num fun _ _ h => h.congr, .num fun _ _ h => h.congr, .ro, fun _ _ _ h => h.setGazConsumer,
    .blobRw fun _ _ h => h.setCounterSelect, .ro, .ro, nofun⟩

theorem odKeys_keeps : ∀ e ∈ odKeys, e.Keeps := by
  simp only [odKeys, List.forall_mem_cons]
  exact ⟨.ro, .ro, .ro, .ro, nofun⟩

theorem odAuth_keeps : ∀ e ∈ odAuth, e.Keeps := by
  simp only [odAuth, List.forall_mem_cons]
  exact ⟨fun _ _ _ h => h.setAuthKeys, .ro, nofun⟩

theorem odAttest_keeps : ∀ e ∈ odAttest, e.Keeps := by
  simp only [odAttest, List.forall_mem_cons]
  exact ⟨.cmdRec fun _ _ _ h => h.opAttest, .ro, .ro, nofun⟩

theorem withHighest_keeps {all l : List OdEntry} {n : Nat} (h : ∀ e ∈ l, e.Keeps) : ∀ e ∈ withHighest all n l, e.Keeps := by
  induction l generalizing n with
  | nil => nofun
  | cons e l ih =>
    obtain ⟨he, hl⟩ := List.forall_mem_cons.1 h
    unfold withHighest
    split
    · exact List.forall_mem_cons.2 ⟨he, ih hl⟩
    · exact List.forall_mem_cons.2 ⟨.ro, List.forall_mem_cons.2 ⟨he, ih hl⟩⟩

theorem forall_mem_ite_singleton {α : Type} {P : α → Prop} {p : Prop} [Decidable p] {a : α} (ha : P a) :
    ∀ x ∈ (if p then [a] else []), P x := by
  split
  · exact List.forall_mem_singleton.2 ha
  · exact List.forall_mem_nil _

theorem odSheet_keeps (k : Nat) : ∀ e ∈ odSheet k, e.Keeps := by
  simp only [odSheet, List.forall_mem_append, List.forall_mem_cons]
  exact ⟨⟨⟨⟨.ro, .ro, .ro, .ro, .ro, .ro, .ro, .ro, .ro, .ro, List.forall_mem_nil _⟩, forall_mem_ite_singleton .ro⟩, .ro,
    List.forall_mem_nil _⟩,
    forall_mem_ite_singleton .ro⟩

theorem odFrom1010_keeps : ∀ e ∈ odFrom1010, e.Keeps := by
  simp only [odFrom1010, List.forall_mem_append, and_assoc]
  refine ⟨odSurvey_keeps, odPorts_keeps, odField_keeps, odFirmware_keeps, odJob_keeps, odWafer_keeps, odStacks_keeps, odFabric_keeps,
    odFormats_keeps, odHalyard_keeps, odPlotter_keeps, odPower_keeps, odReset_keeps, odEvents_keeps, odGaz_keeps, odKeys_keeps,
    odAttest_keeps, odAuth_keeps, fun e he => ?_⟩
  obtain ⟨k, -, hk⟩ := List.mem_flatMap.1 he
  exact odSheet_keeps k e hk

theorem odStubbed_keeps : ∀ e ∈ odStubbed, e.Keeps :=
  withHighest_keeps (List.forall_mem_append.2 ⟨odIdentity_keeps, List.forall_mem_cons.2 ⟨.ro, odFrom1010_keeps⟩⟩)

/-- Every entry of the dictionary keeps memories canonical. -/
theorem odFind_keeps {index sub : Nat} {e : OdEntry} (h : odFind index sub = some e) : e.Keeps := by
  unfold odFind at h
  split at h
  · cases h
    exact .ro
  · exact odStubbed_keeps e (List.mem_of_find?_eq_some h)

theorem State.memOk.access {index sub f} (h : s.memOk) (hf : ∀ e, odFind index sub = some e → (f e).1.memOk) :
    (s.access index sub f).1.memOk := by
  unfold State.access
  split
  · exact h
  · next e he =>
    split
    · exact h
    · exact hf e he

theorem State.memOk.odRead {path index sub} (h : s.memOk) : (s.odRead path index sub).1.memOk := by
  refine h.access fun e _ => ?_
  split
  · exact h
  · dsimp only
    split <;> exact h.drawn

theorem State.memOk.odPut {path e v} (h : s.memOk) (he : e.Keeps) : (s.odPut path e v).1.memOk := by
  unfold State.odPut
  dsimp only
  split
  · exact h
  · split
    · exact h
    · split
      · exact (he path s v h).nvBegin
      · exact he path s v h

theorem State.memOk.odWrite {path index sub body} (h : s.memOk) : (s.odWrite path index sub body).1.memOk := by
  refine h.access fun e he => ?_
  split
  · exact h
  · split
    · exact h
    · split
      · exact h
      · split
        · exact h
        · exact h.odPut (odFind_keeps he)

theorem State.memOk.dropSnapshot {client index sub} (h : s.memOk) : (s.dropSnapshot client index sub).memOk :=
  h.congr

theorem State.memOk.odReadBlock {path client index sub offset body} (h : s.memOk) :
    (s.odReadBlock path client index sub offset body).1.memOk := by
  refine h.access fun e _ => ?_
  split
  · exact h
  · split
    · exact h
    · dsimp only
      split
      · exact (State.memOk.congr' h.dropSnapshot).drawn
      · split
        · exact h.drawn
        · exact h.drawn.dropSnapshot.congr'

theorem State.memOk.dropSession {index sub chunk} (h : s.memOk) : (s.dropSession index sub chunk).memOk :=
  h.congr

theorem State.memOk.joinSession {client index sub chunk offset data last finish} (h : s.memOk)
    (hf : ∀ t v, t.memOk → (finish t v).1.memOk) : (s.joinSession client index sub chunk offset data last finish).1.memOk := by
  unfold State.joinSession
  dsimp only
  split
  · exact h
  · split
    · exact hf _ _ h.dropSession
    · exact h.dropSession.congr'

theorem State.memOk.bundlePiece {path client offset data last} (h : s.memOk) :
    (s.bundlePiece path client offset data last).1.memOk := by
  unfold State.bundlePiece
  dsimp only
  split
  · exact h
  · split
    · exact h
    · split
      · exact h
      · next t ht =>
        refine (h.allow ht).joinSession fun u v hu => ?_
        split
        · exact hu
        · exact hu.chunk

theorem State.memOk.odWriteBlock {path client index sub offset data last} (h : s.memOk) :
    (s.odWriteBlock path client index sub offset data last).1.memOk := by
  refine h.access fun e he => ?_
  split
  · exact h
  · split
    · exact h
    · split
      · exact h.bundlePiece
      · split
        · exact h
        · exact h.joinSession fun _ _ ht => ht.odPut (odFind_keeps he)

/-! ### The Chart protocol (R597 to R604) -/

theorem State.memOk.fieldCount {f} (h : s.memOk) : (s.fieldCount f).memOk :=
  h.congr

theorem State.memOk.respond {c op r} (h : s.memOk) : (s.respond c op r).memOk :=
  .ite h.send h.send.fieldCount

theorem State.memOk.refuseAuth {c op} (h : s.memOk) : (s.refuseAuth c op).memOk :=
  h.fieldCount.respond

theorem State.memOk.respondAgain {k} (h : s.memOk) : (s.respondAgain k).memOk :=
  h.send.fieldCount

theorem State.memOk.acceptCounter {c} (h : s.memOk) : (s.acceptCounter c).memOk :=
  h.congr.nvBegin

theorem State.memOk.serve {m op run} (h : s.memOk) (hrun : ∀ t, t.memOk → (run t).1.memOk) : (s.serve m op run).memOk := by
  have answer : ∀ t : State, t.memOk →
      (if !chartFormed m then t.respond m op (.of .malformed) else (run t).1.respond m op (run t).2).memOk :=
    fun t ht => .ite ht.respond (hrun t ht).respond
  unfold State.serve
  refine .ite (answer s h) (.ite h.fieldCount.refuseAuth ?_)
  split
  · exact h.fieldCount.respondAgain
  · exact .ite h.fieldCount.refuseAuth (answer _ (.ite h.fieldCount.acceptCounter h.fieldCount))

theorem Sound.chartRow {m op run} (h : s.memOk) (hq : s.quiet) (hrun : ∀ t, t.memOk → (run t).1.memOk) : Sound (chartRow s m op run) :=
  .ite (.next h hq) (.done (h.serve hrun))

theorem execRead_sound {c} (h : s.memOk) (hq : s.quiet) : Sound (execRead c s) :=
  .chartRow h hq fun _ ht => ht.odRead

theorem execWrite_sound {c} (h : s.memOk) (hq : s.quiet) : Sound (execWrite c s) :=
  .chartRow h hq fun _ ht => ht.odWrite

theorem execReadBlock_sound {c} (h : s.memOk) (hq : s.quiet) : Sound (execReadBlock c s) :=
  .chartRow h hq fun _ ht => ht.odReadBlock

theorem execWriteBlock_sound {c} (h : s.memOk) (hq : s.quiet) : Sound (execWriteBlock c s) :=
  .chartRow h hq fun _ ht => ht.odWriteBlock

theorem execDiscover_sound {client txn} (h : s.memOk) (hq : s.quiet) : Sound (execDiscover client txn s) :=
  .chartRow h hq fun _ ht => ht

theorem execSnapshotExpiry_sound {client index sub} (h : s.memOk) (hq : s.quiet) : Sound (execSnapshotExpiry client index sub s) := by
  unfold execSnapshotExpiry
  split
  · exact .next h hq
  · exact .done h.until.dropSnapshot

theorem execWriteSessionIdle_sound {index sub} (h : s.memOk) (hq : s.quiet) : Sound (execWriteSessionIdle index sub s) := by
  unfold execWriteSessionIdle
  split
  · exact .next h hq
  · exact .done h.until.dropSession

theorem execPresenceInterval_sound (h : s.memOk) (hq : s.quiet) : Sound (execPresenceInterval s) :=
  .ite (.next h hq) (.done h.until.fieldCount.send)

theorem execPlcaBeaconMissed_sound {present} (h : s.memOk) (hq : s.quiet) : Sound (execPlcaBeaconMissed present s) :=
  .ite (.next h hq) (.done h.fieldCount)

theorem execOdWrite_sound {path index sub body} (h : s.memOk) (hq : s.quiet) : Sound (execOdWrite path index sub body s) := by
  unfold execOdWrite
  refine .ite (.next h hq) (.done (h.access fun e he => ?_))
  split
  · exact h.odWrite
  · split
    · exact h
    · exact h.odPut (odFind_keeps he)

end Sys2Proof.Machine
end

section
/-!
Every command keeps memories canonical and leaves job control nothing: the instructions, the gradient exit, the host link and the rest,
and with them O59 (R248, R304, R582).
-/

namespace Sys2Proof.Machine

set_option Elab.async false

variable {s : State} {c : CoreSt}

/-! ### Control instructions (R297 to R300) -/

theorem State.memOk.controlIssued {n q w key} (h : s.memOk) : (s.controlIssued n q w key).memOk :=
  .ite h h.enqueueOp.drainControl

theorem State.memOk.updQueue {n q f} (h : s.memOk) : (s.updQueue n q f).memOk :=
  h.updCore fun _ hc => hc.setQueue

theorem execPwait_sound {core q} (h : s.memOk) (hq : s.quiet) : Sound (execPwait core q s) :=
  .issue h hq fun _ ht _ _ => ht

theorem execPraise_sound {core q} (h : s.memOk) (hq : s.quiet) : Sound (execPraise core q s) :=
  .issue h hq fun _ ht _ _ => ht.controlIssued

theorem execFence_sound {core q} (h : s.memOk) (hq : s.quiet) : Sound (execFence core q s) :=
  .issue h hq fun _ ht _ _ => ht.controlIssued

theorem execLoop_sound {core q} (h : s.memOk) (hq : s.quiet) : Sound (execLoop core q s) :=
  .issue h hq fun _ ht _ _ => ht.updQueue.controlIssued

theorem execEndloop_sound {core q} (h : s.memOk) (hq : s.quiet) : Sound (execEndloop core q s) :=
  .issue h hq fun _ ht _ _ => ht.updQueue.controlIssued

theorem CoreSt.memOk.reports (h : c.memOk) : c.reports.memOk :=
  h.congr

theorem execHalt_sound {core q} (h : s.memOk) (hq : s.quiet) : Sound (execHalt core q s) :=
  .issue h hq fun _ ht _ _ => ht.controlIssued.updQueue.updCore (fun _ hc => hc.reports)

theorem execRemoteRaise_sound {src msg} (h : s.memOk) (_hq : s.quiet) : Sound (execRemoteRaise src msg s) :=
  .withCore (.withCore (.ite (.done h.congr.reorderWait.landed) (.done (h.congr.reorderWait.landed.foldl (fun _ ht _ => ht.raise)))))

/-! ### Fetch and array instructions (R263 to R277) -/

theorem State.memOk.sampleTile {n w} (h : s.memOk) : (s.sampleTile n w).memOk := by
  unfold State.sampleTile
  dsimp only
  split
  · exact h
  · exact .ite h (h.updCore (fun _ hc => hc.congr'))

theorem State.memOk.countMacs {n qual f rows cycles} (h : s.memOk) : (s.countMacs n qual f rows cycles).memOk :=
  .ite h.count.count h.count

theorem State.memOk.pumpCore {n} (h : s.memOk) : (s.pumpCore n).memOk := by
  unfold State.pumpCore
  dsimp only
  split
  · exact h.setCore h.core.pump
  · split
    · exact ((h.setCore h.core.pump).countMacs).trap
    · exact ((h.setCore h.core.pump).countMacs).accBad
    · exact .ite (((h.setCore h.core.pump).countMacs).sampleTile) ((h.setCore h.core.pump).countMacs)

theorem State.memOk.pumpPlotter {n} (h : s.memOk) : (s.pumpPlotter n).memOk := by
  unfold State.pumpPlotter
  dsimp only
  split
  · exact h.setCore h.core.pumpPlot
  · split
    · exact (((h.setCore h.core.pumpPlot).countMacs).count).accBad
    · exact ((h.setCore h.core.pumpPlot).countMacs).count

theorem State.memOk.startFload {n q w key} (h : s.memOk) : (s.startFload n q w key).memOk :=
  .ite h.enqueueOp ((h.enqueueOp.updCore (fun _ hc => hc.congr)).pumpCore)

theorem execFload_sound {core q} (h : s.memOk) (hq : s.quiet) : Sound (execFload core q s) :=
  .issue h hq fun _ ht _ _ => ht.startFload

theorem execFconv_sound {core q} (h : s.memOk) (hq : s.quiet) : Sound (execFconv core q s) :=
  .issue h hq fun _ ht _ _ => ht.startFload

theorem execFwgt_sound {core q} (h : s.memOk) (hq : s.quiet) : Sound (execFwgt core q s) :=
  .issue h hq fun _ ht _ _ => .ite ((ht.enqueueOp.updCore (fun _ hc => hc.congr)).pumpPlotter)
    ((ht.enqueueOp.updCore (fun _ hc => hc.congr)).pumpCore)

theorem State.memOk.startMmul {n q w key} (h : s.memOk) : (s.startMmul n q w key).memOk := by
  unfold State.startMmul
  dsimp only
  have hs : (s.updCore n (fun c => { c with mmulCount := c.mmulCount + 1 })).memOk := h.updCore fun _ hc => hc.congr
  refine .ite hs.enqueueOp (.ite ?_ (hs.enqueueOp.updCore fun _ hc => hc.congr).pumpCore)
  split
  · next hz => exact (hs.setCore (hs.core.mmulZeroRows hz)).enqueueOp.sampleTile
  · next hz => exact (hs.setCore (hs.core.mmulZeroRows hz)).enqueueOp.accBad

theorem State.memOk.startPlotMmul {n w key} (h : s.memOk) : (s.startPlotMmul n w key).memOk := by
  unfold State.startPlotMmul
  refine .ite h.enqueueOp (.ite ?_ (h.enqueueOp.updCore fun _ hc => hc.congr).pumpPlotter)
  split
  · next hz => exact (h.setCore (h.core.mmulZeroRows hz)).enqueueOp
  · next hz => exact (h.setCore (h.core.mmulZeroRows hz)).enqueueOp.accBad

theorem execMmul_sound {core q} (h : s.memOk) (hq : s.quiet) : Sound (execMmul core q s) :=
  .issue h hq fun _ ht _ _ => .ite ht.startPlotMmul ht.startMmul

theorem execMswap_sound {core q} (h : s.memOk) (hq : s.quiet) : Sound (execMswap core q s) :=
  .issue h hq fun _ ht _ _ => .ite ht.enqueueOp ((ht.enqueueOp.updCore (fun _ hc => hc.swapSets)).pumpCore)

/-! ### The gradient exit (R230 to R240, R442 to R446) -/

theorem execDexitCodesReady_sound {core} (h : s.memOk) (hq : s.quiet) : Sound (execDexitCodesReady core s) := by
  unfold execDexitCodesReady
  refine .withCore (.ite (.next h hq) ?_)
  split
  · exact .next h hq
  · refine .ite (.next h hq) ?_
    dsimp only
    split
    · exact .done (h.readHbm.updCore (fun _ hc => hc.congr'))
    · exact .done h.readHbm

theorem State.memOk.ledgerOverrun {k tile} (h : s.memOk) : (s.ledgerOverrun k tile).memOk :=
  h.event.askStop

theorem State.memOk.sendBlocks {n htab e tile dest blocks} (h : s.memOk) : (s.sendBlocks n htab e tile dest blocks).memOk := by
  unfold State.sendBlocks
  dsimp only
  split
  · exact h.routed fun _ ht => ht.numbered.congr'
  · exact h.toTarget fun _ _ _ ht => ht.numbered.congr'
  · exact h.toTarget fun _ _ _ ht => ht.numbered.congr'

theorem CoreSt.memOk.sbufWrite {a l} (h : c.memOk) : (c.sbufWrite a l).memOk :=
  CoreSt.memOk.renewSram ⟨h.1, Memory.wf_foldl h.2.1 fun _ hm _ => Memory.wf_write hm _ _, h.2.2⟩

theorem State.memOk.mergeStep {n t} (h : s.memOk) (ht : s.mergeStep n = some t) : t.memOk := by
  have hs : ∀ m, (s.setCore n { s.core n with merge := m }).memOk := fun m => h.setCore h.core.congr
  unfold State.mergeStep at ht
  dsimp only at ht
  split at ht
  · cases ht
  · split at ht
    · cases ht
    · split at ht
      · cases ht
      · split at ht
        · cases ht
          exact (hs _).event.askStop
        · split at ht
          · cases ht
            exact hs _
          · split at ht
            · cases ht
              exact .ite ((hs _).sendBlocks.updCore fun _ hc => hc.congr).finishOp ((hs _).sendBlocks.updCore fun _ hc => hc.congr)
            · cases ht
              exact (hs _).sendBlocks.updCore fun _ hc => hc.congr

theorem State.memOk.mergeAll {n f} (h : s.memOk) : (s.mergeAll n f).memOk := by
  induction f generalizing s with
  | zero => exact h
  | succ f ih =>
    unfold State.mergeAll
    split
    · next t ht => exact ih (h.mergeStep ht)
    · exact h

theorem State.memOk.exitNow {n x} (h : s.memOk) : (s.exitNow n x).memOk := by
  unfold State.exitNow
  dsimp only
  split
  · exact h
  · split
    · exact h.ledgerOverrun
    · split
      · exact .accBad (.ite (((((h.count.updCore (fun _ hc => hc.addCorrected)).updCore (fun _ hc => hc.addFlush.addDexit)).drew).updCore
          (fun _ hc => hc.congr')).mergeAll) ((((h.count.updCore (fun _ hc => hc.addCorrected)).updCore
            (fun _ hc => hc.addFlush.addDexit)).drew).sendBlocks))
      · exact .ite (.ite (((((h.count.updCore (fun _ hc => hc.addCorrected)).updCore (fun _ hc => hc.addFlush.addDexit)).drew).updCore
          (fun _ hc => hc.congr')).mergeAll) ((((h.count.updCore (fun _ hc => hc.addCorrected)).updCore
            (fun _ hc => hc.addFlush.addDexit)).drew).sendBlocks))
              (.finishOp (.ite (((((h.count.updCore (fun _ hc => hc.addCorrected)).updCore
                (fun _ hc => hc.addFlush.addDexit)).drew).updCore (fun _ hc => hc.congr')).mergeAll)
                  ((((h.count.updCore (fun _ hc => hc.addCorrected)).updCore (fun _ hc => hc.addFlush.addDexit)).drew).sendBlocks)))

theorem State.memOk.runVc4 {n f} (h : s.memOk) : (s.runVc4 n f).memOk := by
  induction f generalizing s with
  | zero => exact h
  | succ f ih =>
    unfold State.runVc4
    split
    · exact h
    · exact .ite h (ih (.ite (h.updCore fun _ hc => hc.congr).exitNow (h.updCore fun _ hc => hc.congr).sendData.finishOp))

theorem State.memOk.waitVc4 {n x} (h : s.memOk) : (s.waitVc4 n x).memOk :=
  (h.updCore (fun _ hc => hc.congr)).runVc4

theorem State.memOk.startDexit {n q w key} (h : s.memOk) : (s.startDexit n q w key).memOk := by
  unfold State.startDexit
  dsimp only
  split
  · exact (h.enqueueOp.updCore (fun _ hc => hc.congr')).tableRead
  · exact .ite ((((h.enqueueOp.updCore (fun _ hc => hc.congr')).tableRead).updCore (fun _ hc => hc.congr')).ledgerOverrun)
      (.ite ((((h.enqueueOp.updCore (fun _ hc => hc.congr')).tableRead).updCore (fun _ hc => hc.congr')).waitVc4)
        ((((h.enqueueOp.updCore (fun _ hc => hc.congr')).tableRead).updCore (fun _ hc => hc.congr')).exitNow))

theorem execDexit_sound {core q} (h : s.memOk) (hq : s.quiet) : Sound (execDexit core q s) :=
  .issue h hq fun _ ht _ _ => ht.startDexit

theorem execDsend_sound {core q} (h : s.memOk) (hq : s.quiet) : Sound (execDsend core q s) :=
  .issue h hq fun _ ht _ _ => .ite ht.enqueueOp.waitVc4 ht.enqueueOp.sendData

theorem execOperationRetire_sound {core q} (h : s.memOk) (_hq : s.quiet) : Sound (execOperationRetire core q s) :=
  .withCore (.done (.retireOp (.ite h.runVc4 h)))

theorem execHalyardMergeBlock_sound {core} (h : s.memOk) (hq : s.quiet) : Sound (execHalyardMergeBlock core s) := by
  unfold execHalyardMergeBlock
  refine .withCore ?_
  split
  · exact .next h hq
  · split
    · exact .done ((h.congr'.landed.updCore (fun _ hc => hc.sbufWrite.congr')).mergeAll)
    · exact .next h hq

theorem execHalyardOwnPartial_sound {group layer tile step} (h : s.memOk) (hq : s.quiet) : Sound
    (execHalyardOwnPartial group layer tile step s) := by
  unfold execHalyardOwnPartial
  refine .withGroup ?_
  dsimp only
  split
  · exact .next h hq
  · exact .ite (.next h hq) (.done h.congr'.landed.ownComplete)

theorem execLedgerContribution_sound {stack} (h : s.memOk) (hq : s.quiet) : Sound (execLedgerContribution stack s) := by
  unfold execLedgerContribution
  dsimp only
  refine .withStack ?_
  split
  · exact .next h hq
  · split
    · exact .done h.congr'.ledgerOverrun
    · split
      · exact .done h.readHbm
      · exact .ite (.done h.readHbm.congr'.ledgerOverrun) (.ite (.next h hq)
          (.ite (.done (((h.readHbm.congr'.landed.writeHbm.updStack (fun _ hy => hy.congr')).count).ownComplete))
            (.done ((h.readHbm.congr'.landed.writeHbm.updStack (fun _ hy => hy.congr')).count))))

/-! ### The host link (R579 to R611) -/

theorem writeCmdProducer_sound {value} (h : s.memOk) (hq : s.quiet) : Sound (s.writeCmdProducer value) :=
  .ite (.next h hq) (.ite (.done (h.setHost (fun _ hx => hx.congr))) (.done ((h.setHost (fun _ hx => hx.congr)).info)))

theorem execCmdProducer_sound {value} (h : s.memOk) (hq : s.quiet) : Sound (execCmdProducer value s) :=
  writeCmdProducer_sound h hq

theorem writeCplConsumer_sound {value} (h : s.memOk) (hq : s.quiet) : Sound (s.writeCplConsumer value) :=
  .ite (.next h hq) (.ite (.done (h.setHost (fun _ hx => hx.congr))) (.done (h.setHost (fun _ hx => hx.congr))))

theorem execCplConsumer_sound {value} (h : s.memOk) (hq : s.quiet) : Sound (execCplConsumer value s) :=
  writeCplConsumer_sound h hq

theorem writeEvtConsumer_sound {value} (h : s.memOk) (hq : s.quiet) : Sound (s.writeEvtConsumer value) :=
  .ite (.next h hq) (.ite (.done ((h.setHost (fun _ hx => hx.congr)).copyEvents)) (.done (h.setHost (fun _ hx => hx.congr))))

theorem execEvtConsumer_sound {value} (h : s.memOk) (hq : s.quiet) : Sound (execEvtConsumer value s) :=
  writeEvtConsumer_sound h hq

theorem State.memOk.signalCompletions (h : s.memOk) : s.signalCompletions.memOk :=
  (h.setHost (fun _ hx => hx.congr)).vector

theorem State.memOk.complete {cmd st result} (h : s.memOk) : (s.complete cmd st result).memOk :=
  .ite (h.setHost fun _ hx => Memory.wf_writeN hx _ _).signalCompletions (h.setHost fun _ hx => Memory.wf_writeN hx _ _)

theorem execCplCoalesceTime_sound (h : s.memOk) (hq : s.quiet) : Sound (execCplCoalesceTime s) :=
  .ite (.next h hq) (.done h.until.signalCompletions)

theorem State.memOk.taken (h : s.memOk) : s.taken.memOk :=
  h.setHost fun _ hx => hx.congr

theorem Sound.takeRow {ok run} (h : s.memOk) (hq : s.quiet) (hrun : ∀ t, t.memOk → ∀ cmd, (run t cmd).memOk) :
    Sound (takeRow s ok run) :=
  .ite (.next h hq) (.ite (.done h.taken.complete) (.ite (.done h.taken.complete) (.done (hrun _ h.taken _))))

theorem execNop_sound (h : s.memOk) (hq : s.quiet) : Sound (execNop s) :=
  .takeRow h hq fun _ ht _ => ht.complete

theorem execCmdFence_sound (h : s.memOk) (hq : s.quiet) : Sound (execCmdFence s) :=
  .takeRow h hq fun _ ht _ => ht.complete

theorem State.memOk.freeSlots {l} (h : s.memOk) : (s.freeSlots l).memOk :=
  h.foldl fun _ ht _ => .ite ht.setRec ht

theorem State.memOk.fly {c outcome} (h : s.memOk) : (s.fly c outcome).memOk :=
  h.setHost fun _ hx => hx.congr

theorem execDmaToHbm_sound {data} (h : s.memOk) (hq : s.quiet) : Sound (execDmaToHbm data s) := by
  unfold execDmaToHbm
  refine .takeRow h hq (fun _ ht _ => ?_)
  dsimp only
  split
  · exact ht.complete
  · exact .ite ht.complete ht.freeSlots.writeHbm.send.fly

theorem State.memOk.dmaRead {c} (h : s.memOk) : (s.dmaRead c).memOk :=
  .ite h.readStart.send.fly h.readStart.fly.wantLines

theorem execDmaFromHbm_sound (h : s.memOk) (hq : s.quiet) : Sound (execDmaFromHbm s) := by
  unfold execDmaFromHbm
  refine .takeRow h hq (fun _ ht _ => ?_)
  split
  · exact ht.complete
  · exact ht.dmaRead

theorem HostSt.memOk.endDrains {x : HostSt} (h : x.memOk) : x.endDrains.memOk :=
  .ite h.congr h

theorem State.memOk.land {c st result} (h : s.memOk) : (s.land c st result).memOk :=
  ((h.setHost (fun _ hx => hx.congr)).complete).setHost fun _ hx => hx.endDrains

theorem execDmaComplete_sound {tag} (h : s.memOk) (hq : s.quiet) : Sound (execDmaComplete tag s) := by
  unfold execDmaComplete
  split
  · exact .next h hq
  · refine .ite (.next h hq) ?_
    split
    · exact .done h.land
    · exact .next h hq

theorem State.memOk.hostMessage {path client m} (h : s.memOk) : (s.hostMessage path client m).1.memOk := by
  unfold State.hostMessage
  dsimp only
  split
  · exact h
  · split
    · exact h.odRead
    · split
      · exact h.odWrite
      · split
        · exact h.odReadBlock
        · split
          · exact h.odWriteBlock
          · split <;> exact h

theorem execOdRequest_sound {request} (h : s.memOk) (hq : s.quiet) : Sound (execOdRequest request s) :=
  .takeRow h hq fun _ ht _ => .ite ht.hostMessage.complete ht.hostMessage.send.complete

theorem State.writeMbDoorbell_sound (h : s.memOk) (hq : s.quiet) : Sound s.writeMbDoorbell :=
  .ite (.next h hq) (.ite (.done (h.setHost fun _ hx => hx.congr))
    (.done ((State.memOk.hostMessage (h.setHost fun _ hx => hx.congr)).setHost fun _ hx => Memory.wf_writeN hx _ _).vector))

theorem execMbDoorbell_sound (h : s.memOk) (hq : s.quiet) : Sound (execMbDoorbell s) :=
  State.writeMbDoorbell_sound h hq

theorem State.memOk.writeCmdEn {value} (h : s.memOk) : (s.writeCmdEn value).memOk :=
  h.setHost fun _ hx => hx.congr

theorem State.memOk.writeEvtEn {value} (h : s.memOk) : (s.writeEvtEn value).memOk :=
  (h.setHost (fun _ hx => hx.congr)).copyEvents

theorem execCmdEn_sound {value} (h : s.memOk) (hq : s.quiet) : Sound (execCmdEn value s) :=
  .ite (.next h hq) (.done h.writeCmdEn)

theorem execEvtEn_sound {value} (h : s.memOk) (hq : s.quiet) : Sound (execEvtEn value s) :=
  .ite (.next h hq) (.done h.writeEvtEn)

theorem execBusMasterEnable_sound {value} (h : s.memOk) (hq : s.quiet) : Sound (execBusMasterEnable value s) :=
  .ite (.next h hq) (.done (h.setHost (fun _ hx => hx.congr)))

theorem State.memOk.abortFlight (h : s.memOk) : s.abortFlight.memOk :=
  h.foldl fun _ ht _ => ht.land

theorem State.memOk.completionTimeout (h : s.memOk) : s.completionTimeout.memOk :=
  h.elapse.setHost fun _ hx => hx.congr

theorem execCmdDrainTimeout_sound {function} (h : s.memOk) (hq : s.quiet) : Sound (execCmdDrainTimeout function s) :=
  .ite (.done h.elapse.abortFlight) (.ite (.done h.completionTimeout.abortFlight) (.next h hq))

theorem execHostRegisterWrite_sound {offset value} (h : s.memOk) (hq : s.quiet) : Sound (execHostRegisterWrite offset value s) :=
  .ite (.next h hq) <| .ite (writeCmdProducer_sound h hq) <| .ite (writeCplConsumer_sound h hq) <|
    .ite (writeEvtConsumer_sound h hq) <| .ite (State.writeMbDoorbell_sound h hq) <|
    .ite (.ite (.next h hq) (.done h.writeCmdEn.writeEvtEn)) <| .ite (.done (h.setHost fun _ hx => hx.congr)) <|
    .ite (.done (h.setHost fun _ hx => hx.congr)) <|
    .ite (.done (h.setHost fun _ hx => Memory.wf_writeN hx _ _).unmask) (.next h hq)

theorem State.memOk.windowRead {k a n} (h : s.memOk) : (s.windowRead k a n).memOk :=
  .ite h.readStart.answerRead h.readStart.congr.wantLines

theorem execWindowDRead_sound {offset length} (h : s.memOk) (hq : s.quiet) : Sound (execWindowDRead offset length s) :=
  .ite (.next h hq) (.ite (.done ((h.setHost (fun _ hx => hx.congr)).send)) (.ite (.next h hq) (.done h.windowRead)))

theorem State.memOk.wdDiscard (h : s.memOk) : s.wdDiscard.memOk :=
  h.setHost fun _ hx => hx.congr

theorem execWindowDWrite_sound {offset data} (h : s.memOk) (hq : s.quiet) : Sound (execWindowDWrite offset data s) :=
  .ite (.next h hq) (.ite (.done h.wdDiscard) (.ite (.done h.wdDiscard.event) (.done h.freeSlots.writeHbm)))

/-! ### Commands of job control -/

theorem execPlanLoad_sound {stack address length} (h : s.memOk) (_hq : s.quiet) : Sound (execPlanLoad stack address length s) :=
  .done h.opPlanLoad

theorem execPlanLoadComplete_sound {fault} (h : s.memOk) (hq : s.quiet) : Sound (execPlanLoadComplete fault s) := by
  unfold execPlanLoadComplete
  split
  · split
    · exact .ite (.done h.endLoad.info) (.done h.applyPlan)
    · exact .next h hq
  · exact .next h hq

theorem execPlanUnload_sound (h : s.memOk) (_hq : s.quiet) : Sound (execPlanUnload s) :=
  .done h.opPlanUnload

theorem execStepInput_sound {step tokens bytes} (h : s.memOk) (_hq : s.quiet) : Sound (execStepInput step tokens bytes s) :=
  .done h.opStepInput

theorem execJobStart_sound (h : s.memOk) (_hq : s.quiet) : Sound (execJobStart s) :=
  .done h.opJobStart

theorem execJobAbort_sound (h : s.memOk) (_hq : s.quiet) : Sound (execJobAbort s) :=
  .done h.opJobAbort

theorem execStepStart_sound (h : s.memOk) (hq : s.quiet) : Sound (execStepStart s) :=
  .ite (.done h.startStep) (.next h hq)

theorem execStepBoundary_sound (h : s.memOk) (hq : s.quiet) : Sound (execStepBoundary s) := by
  unfold execStepBoundary
  split
  · exact .next h hq
  · exact .ite (.next h hq) (.ite (.done h.endCalibration) (.done h.endStep))

theorem execCheckpointArm_sound {step dest port} (h : s.memOk) (_hq : s.quiet) : Sound (execCheckpointArm step dest port s) :=
  .done h.opCheckpointArm

theorem execCheckpointSeal_sound (h : s.memOk) (_hq : s.quiet) : Sound (execCheckpointSeal s) :=
  .done h.opCheckpointSeal

theorem execSpareAdopt_sound {module stack address length} (h : s.memOk) (_hq : s.quiet) : Sound
    (execSpareAdopt module stack address length s) :=
  .done h.opSpareAdopt

/-! ### Commands of resets and start-up -/

theorem execMrst_sound {heldNs} (h : s.memOk) (hq : s.quiet) : Sound (execMrst heldNs s) :=
  .ite (.next h hq) (.done h.askReset)

theorem execWatchdog_sound (h : s.memOk) (_hq : s.quiet) : Sound (execWatchdog s) :=
  .done h.askReset

theorem execCriticalControl_sound (h : s.memOk) (_hq : s.quiet) : Sound (execCriticalControl s) :=
  .done h.askReset

theorem execStartTimeout_sound (h : s.memOk) (hq : s.quiet) : Sound (execStartTimeout s) :=
  .ite (.next h hq) (.done h.until.info.askReset)

theorem execResetCold_sound {path} (h : s.memOk) (_hq : s.quiet) : Sound (execResetCold path s) :=
  .done h.opReset

theorem execResetWarm_sound {path} (h : s.memOk) (_hq : s.quiet) : Sound (execResetWarm path s) :=
  .done h.opReset

theorem execDatumExit_sound {path} (h : s.memOk) (_hq : s.quiet) : Sound (execDatumExit path s) :=
  .done h.opDatumExit

theorem execResetAssert_sound (h : s.memOk) (hq : s.quiet) : Sound (execResetAssert s) :=
  .ite (.next h hq) (.ite (.next h hq) (.done h.nvEnd.assertReset))

theorem execNvPulseEnd_sound (h : s.memOk) (hq : s.quiet) : Sound (execNvPulseEnd s) :=
  .ite (.next h hq) (.done h.nvEnd.assertReset)

theorem execReleaseStep_sound {r} (h : s.memOk) (hq : s.quiet) : Sound (execReleaseStep r s) :=
  .ite (.next h hq) (.done h.releaseStep.congr)

theorem execThermalHold_sound {inlet} (h : s.memOk) (hq : s.quiet) : Sound (execThermalHold inlet s) := by
  unfold execThermalHold
  dsimp only
  refine .ite (.next h hq) (.ite (.done (.beginBoot (.congr' (.until ?_)))) (.done (.until ?_)))
  all_goals exact h.congr'

theorem execClkRefAbsent_sound (h : s.memOk) (hq : s.quiet) : Sound (execClkRefAbsent s) := by
  unfold execClkRefAbsent
  exact .ite (.done h.elapse.congr'.info) (.next h hq)

theorem execResetFabric_sound (h : s.memOk) (_hq : s.quiet) : Sound (execResetFabric s) :=
  .done h.opResetFabric

theorem execFabricResetComplete_sound {wires badLinks} (h : s.memOk) (hq : s.quiet) : Sound (execFabricResetComplete wires badLinks s)
    := by
  unfold execFabricResetComplete
  dsimp only
  refine .ite (.next h hq) (.done (.ite (.startBatch (.actionEnd (.measure (.congr' ?_)))) (.actionEnd (.measure (.congr' ?_)))))
  all_goals exact .testLinks h.congr'

theorem execResetCore_sound {core} (h : s.memOk) (_hq : s.quiet) : Sound (execResetCore core s) :=
  .done h.opResetCore

theorem execCoreResetComplete_sound {ok} (h : s.memOk) (hq : s.quiet) : Sound (execCoreResetComplete ok s) := by
  unfold execCoreResetComplete
  split
  · exact .next h hq
  · exact .done (.actionEnd (.ite h.congr' h.congr'.permanent.setCoreState.nextEpoch))

theorem execPerst_sound (h : s.memOk) (_hq : s.quiet) : Sound (execPerst s) :=
  .done (State.memOk.event ⟨h.1, h.2.1, HostSt.perst_memOk _ _⟩)

theorem execHostLinkDown_sound (h : s.memOk) (_hq : s.quiet) : Sound (execHostLinkDown s) :=
  .done h.congr

/-! ### Stream units at work (R327 to R337, R355) -/

theorem execLwaitGrant_sound {stack unit} (h : s.memOk) (hq : s.quiet) : Sound (execLwaitGrant stack unit s) :=
  .withUnit (.ite (.done h.counterTake.beginRepeat) (.next h hq))

theorem execRemoteWait_sound {stack unit core} (h : s.memOk) (hq : s.quiet) : Sound (execRemoteWait stack unit core s) := by
  unfold execRemoteWait
  refine .withUnit (.withCore ?_)
  dsimp only
  split
  · exact .next h hq
  · exact .ite (.done ((h.landed.updCore (fun _ hc => hc.setPennant)).setUnit)) (.next h hq)

theorem State.memOk.regather {k lay tile} (h : s.memOk) : (s.regather k lay tile).memOk := by
  unfold State.regather
  split
  · exact h
  · exact .ite h h.askHolders

theorem State.memOk.sendTile {stack unit d rep core data} (h : s.memOk) : (s.sendTile stack unit d rep core data).memOk := by
  unfold State.sendTile
  exact h.fromStation fun _ _ _ ht => ht.numbered.congr'

theorem execStreamTileSend_sound {stack unit} (h : s.memOk) (hq : s.quiet) : Sound (execStreamTileSend stack unit s) := by
  unfold execStreamTileSend
  dsimp only
  refine .withUnit (.ite (.next h hq) ?_)
  split
  · exact .done h.regather
  · exact .next h hq
  · split
    · exact .done h.readHbm
    · exact .ite (.done ((h.readHbm.congr'.foldl (fun _ ht _ => ht.sendTile)).beginRepeat))
        (.done ((h.readHbm.congr'.foldl (fun _ ht _ => ht.sendTile)).setUnit))

theorem CoreSt.memOk.writeTo {m : TileMsg} (h : c.memOk) : (m.writeTo c).memOk :=
  .ite h.writeMem (h.foldl fun _ ht _ => ht.writeMem)

theorem execStreamTileDelivered_sound {stack unit core} (h : s.memOk) (hq : s.quiet) : Sound (execStreamTileDelivered stack unit core s)
    := by
  unfold execStreamTileDelivered
  refine .withUnit (.withCore ?_)
  split
  · exact .next h hq
  · refine .ite (.done (.ite h.congr'.landed.setUnit h.congr'.landed.setUnit.count)) ?_
    dsimp only
    split
    · exact .ite (.done (.raise (.updCore (.ite h.congr'.landed.setUnit h.congr'.landed.setUnit.count) (fun _ hc => hc.writeTo))))
        (.done (.updCore (.ite h.congr'.landed.setUnit h.congr'.landed.setUnit.count) (fun _ hc => hc.writeTo)))
    · exact .done (.updCore (.ite h.congr'.landed.setUnit h.congr'.landed.setUnit.count) (fun _ hc => hc.writeTo))

theorem execStreamDescriptorEnd_sound {stack unit} (h : s.memOk) (hq : s.quiet) : Sound (execStreamDescriptorEnd stack unit s) :=
  .withUnit (.ite (.done (.enterDesc (.ite h h.counterRaise))) (.next h hq))

theorem execStreamCopyWriteRelease_sound {stack layer} (h : s.memOk) (_hq : s.quiet) : Sound (execStreamCopyWriteRelease stack layer s) :=
  .withStack (.done h.releaseCopies.askAllMerges)

theorem State.memOk.askCopy {l m rest} (h : s.memOk) : (s.askCopy l m rest).memOk :=
  h.foldl fun _ ht _ => ht.askGather

theorem execDownhaulTimeout_sound {stack unit} (h : s.memOk) (hq : s.quiet) : Sound (execDownhaulTimeout stack unit s) := by
  unfold execDownhaulTimeout
  refine .withUnit ?_
  split
  · exact .next h hq
  · split
    · exact .next h hq
    · dsimp only
      split
      · exact .done h.until.setUnit
      · exact .done h.until.setUnit.askCopy

/-! ### Triangulation results (R200, R201) -/

theorem execTriangulationComplete_sound {core ordinal} (h : s.memOk) (hq : s.quiet) : Sound (execTriangulationComplete core ordinal s)
    := by
  unfold execTriangulationComplete
  refine .withCore ?_
  split
  · exact .next h hq
  · split
    · exact .next h hq
    · split
      · exact .next h hq
      · split
        · exact .next h hq
        · exact .ite (.done h.readEach) (.done (h.readEach.fresh.updCore (fun _ hc => hc.congr.enter)))

/-! ### Vector instructions (R278 to R287) -/

theorem State.memOk.vectorOp {n q w key src m words f} (h : s.memOk) (hwords : ∀ x t, t.memOk → (words x t).memOk)
    (hf : ∀ x c, c.memOk → (f x c).memOk) : (s.vectorOp n q w key src m words f).memOk := by
  unfold State.vectorOp
  refine .ite h.enqueueOp ?_
  dsimp only
  split
  · exact (hwords _ _ (.updCore (.updCore (.ite h.enqueueOp.count h.enqueueOp) (fun _ hc => hc.addCorrected))
      (fun _ hc => hf _ _ hc))).accBad
  · exact (hwords _ _ (.updCore (.updCore (.ite h.enqueueOp.count h.enqueueOp) (fun _ hc => hc.addCorrected))
      (fun _ hc => hf _ _ hc))).finishOp

theorem execVop_sound {core q} (h : s.memOk) (hq : s.quiet) : Sound (execVop core q s) :=
  .issue h hq fun _ ht _ _ => ht.vectorOp (fun _ _ ht1 => .ite ht1.drew ht1) (fun _ _ hc => hc.vopRows)

theorem execVred_sound {core q} (h : s.memOk) (hq : s.quiet) : Sound (execVred core q s) :=
  .issue h hq fun _ ht _ _ => ht.vectorOp (fun _ _ ht1 => ht1) (fun _ _ hc => .ite hc hc.writeAct.addFlush)

theorem State.memOk.vquantWords {n r f k} (h : s.memOk) : (s.vquantWords n r f k).memOk :=
  .ite (.ite h h.drew) (.ite h.drew.drew h.drew)

theorem execVquant_sound {core q} (h : s.memOk) (hq : s.quiet) : Sound (execVquant core q s) :=
  .issue h hq fun _ ht _ _ => ht.vectorOp (fun _ _ ht1 => ht1.vquantWords) (fun _ _ hc => .ite (.ite hc hc.vquantImage) hc.vquantRows)

theorem execVtstore_sound {core q} (h : s.memOk) (hq : s.quiet) : Sound (execVtstore core q s) :=
  .issue h hq fun _ ht _ _ => ht.vectorOp (fun _ _ ht1 => .ite ht1 ht1.drew) (fun _ _ hc => .ite hc hc.vtstoreRows.addFlush)

theorem execVrand_sound {core q} (h : s.memOk) (hq : s.quiet) : Sound (execVrand core q s) :=
  .issue h hq fun _ ht _ _ => ht.vectorOp (fun _ _ ht1 => ht1.drew) (fun _ _ hc => hc.vrandRows)

/-! ### Every command -/

/-- Every command keeps memories canonical and leaves nothing for job control. -/
theorem exec_sound (h : s.memOk) (hq : s.quiet) (i : Instr) : Sound (exec i s) :=
  match i with
  | .pwait _ _ => execPwait_sound h hq
  | .praise _ _ => execPraise_sound h hq
  | .fence _ _ => execFence_sound h hq
  | .loop _ _ => execLoop_sound h hq
  | .endloop _ _ => execEndloop_sound h hq
  | .halt _ _ => execHalt_sound h hq
  | .fload _ _ => execFload_sound h hq
  | .fconv _ _ => execFconv_sound h hq
  | .fwgt _ _ => execFwgt_sound h hq
  | .mmul _ _ => execMmul_sound h hq
  | .mswap _ _ => execMswap_sound h hq
  | .vop _ _ => execVop_sound h hq
  | .vred _ _ => execVred_sound h hq
  | .vquant _ _ => execVquant_sound h hq
  | .vtstore _ _ => execVtstore_sound h hq
  | .vrand _ _ => execVrand_sound h hq
  | .dsend _ _ => execDsend_sound h hq
  | .dstore _ _ => execDstore_sound h hq
  | .dload _ _ => execDload_sound h hq
  | .dexit _ _ => execDexit_sound h hq
  | .drecv _ _ => execDrecv_sound h hq
  | .operationRetire _ _ => execOperationRetire_sound h hq
  | .remoteRaise _ _ => execRemoteRaise_sound h hq
  | .dsendArrival _ _ _ => execDsendArrival_sound h hq
  | .remoteWait _ _ _ => execRemoteWait_sound h hq
  | .dexitCodesReady _ => execDexitCodesReady_sound h hq
  | .halyardMergeBlock _ => execHalyardMergeBlock_sound h hq
  | .triangulationComplete _ _ => execTriangulationComplete_sound h hq
  | .lwaitGrant _ _ => execLwaitGrant_sound h hq
  | .streamTileSend _ _ => execStreamTileSend_sound h hq
  | .streamTileDelivered _ _ _ => execStreamTileDelivered_sound h hq
  | .streamDescriptorEnd _ _ => execStreamDescriptorEnd_sound h hq
  | .streamCopyWriteRelease _ _ => execStreamCopyWriteRelease_sound h hq
  | .ledgerContribution _ => execLedgerContribution_sound h hq
  | .mirrorTimeout _ _ => execMirrorTimeout_sound h hq
  | .hbmWritebackVerify _ _ _ => execHbmWritebackVerify_sound h hq
  | .patrolScrub _ => execPatrolScrub_sound h hq
  | .linkCrcMismatch _ _ => execLinkCrcMismatch_sound h hq
  | .selftestTrigger _ => execSelftestTrigger_sound h hq
  | .linkSelftestComplete _ _ _ => execLinkSelftestComplete_sound h hq
  | .escapeWaitExpiry _ _ _ => execEscapeWaitExpiry_sound h hq
  | .criticalState table => execCriticalState_sound (x := table) h hq
  | .classBFault _ => execClassBFault_sound h hq
  | .routingDrainComplete => execRoutingDrainComplete_sound h hq
  | .routingTablesBuilt => execRoutingTablesBuilt_sound h hq
  | .routingWriteComplete => execRoutingWriteComplete_sound h hq
  | .routingReadbackComplete _ => execRoutingReadbackComplete_sound h hq
  | .owedUpdatesDone => execOwedUpdatesDone_sound h hq
  | .replayRelease => execReplayRelease_sound h hq
  | .realignRelease => execRealignRelease_sound h hq
  | .coreSelfTestComplete _ _ => execCoreSelfTestComplete_sound h hq
  | .classCFault _ => execClassCFault_sound h hq
  | .stepBoundary => execStepBoundary_sound h hq
  | .stepStart => execStepStart_sound h hq
  | .halyardOwnPartial _ _ _ _ => execHalyardOwnPartial_sound h hq
  | .halyardSum _ _ _ => execHalyardSum_sound h hq
  | .halyardDeadline _ _ _ _ => execHalyardDeadline_sound h hq
  | .halyardHopHold _ _ _ _ => execHalyardHopHold_sound h hq
  | .downhaul _ _ _ => execDownhaul_sound h hq
  | .downhaulTimeout _ _ => execDownhaulTimeout_sound h hq
  | .updateWaitExpiry _ _ => execUpdateWaitExpiry_sound h hq
  | .plotterUpdateStart _ => execPlotterUpdateStart_sound h hq
  | .updateComputed _ => execUpdateComputed_sound h hq
  | .updateReadbackComplete _ => execUpdateReadbackComplete_sound h hq
  | .journalCopyComplete _ => execJournalCopyComplete_sound h hq
  | .takeoverWaitExpiry _ _ _ => execTakeoverWaitExpiry_sound h hq
  | .alarms _ _ _ _ => execAlarms_sound h hq
  | .takeover _ _ step => execTakeover_sound (x := step) h hq
  | .leave _ => execLeave_sound h hq
  | .join _ => execJoin_sound h hq
  | .peoloFrame _ _ => execPeoloFrame_sound h hq
  | .ack _ _ => execAck_sound h hq
  | .ackDelayExpiry _ => execAckDelayExpiry_sound h hq
  | .rtoExpiry _ _ => execRtoExpiry_sound h hq
  | .pacingWindow _ => execPacingWindow_sound h hq
  | .heartbeatSend => execHeartbeatSend_sound h hq
  | .heartbeat _ _ => execHeartbeat_sound h hq
  | .peerLost _ => execPeerLost_sound h hq
  | .gatherReq _ _ => execGatherReq_sound h hq
  | .gatherReqReady _ _ => execGatherReqReady_sound h hq
  | .gatherData _ _ _ => execGatherData_sound h hq
  | .portLinkUp _ => execPortLinkUp_sound h hq
  | .portLinkDown _ => execPortLinkDown_sound h hq
  | .neighborSolicitation _ _ => execNeighborSolicitation_sound h hq
  | .cblPresN _ _ => execCblPresN_sound h hq
  | .perst => execPerst_sound h hq
  | .cmdProducer _ => execCmdProducer_sound h hq
  | .cplConsumer _ => execCplConsumer_sound h hq
  | .evtConsumer _ => execEvtConsumer_sound h hq
  | .mbDoorbell => execMbDoorbell_sound h hq
  | .cmdEn _ => execCmdEn_sound h hq
  | .evtEn _ => execEvtEn_sound h hq
  | .busMasterEnable _ => execBusMasterEnable_sound h hq
  | .cmdDrainTimeout _ => execCmdDrainTimeout_sound h hq
  | .hostRegisterWrite _ _ => execHostRegisterWrite_sound h hq
  | .nop => execNop_sound h hq
  | .odRequest _ => execOdRequest_sound h hq
  | .dmaToHbm _ => execDmaToHbm_sound h hq
  | .dmaFromHbm => execDmaFromHbm_sound h hq
  | .cmdFence => execCmdFence_sound h hq
  | .dmaComplete _ => execDmaComplete_sound h hq
  | .cplCoalesceTime => execCplCoalesceTime_sound h hq
  | .windowDRead _ _ => execWindowDRead_sound h hq
  | .windowDWrite _ _ => execWindowDWrite_sound h hq
  | .read _ => execRead_sound h hq
  | .write _ => execWrite_sound h hq
  | .readBlock _ => execReadBlock_sound h hq
  | .writeBlock _ => execWriteBlock_sound h hq
  | .discover _ _ => execDiscover_sound h hq
  | .snapshotExpiry _ _ _ => execSnapshotExpiry_sound h hq
  | .writeSessionIdle _ _ => execWriteSessionIdle_sound h hq
  | .presenceInterval => execPresenceInterval_sound h hq
  | .odWrite _ _ _ _ => execOdWrite_sound h hq
  | .fieldDefectsClear => execFieldDefectsClear_sound h hq
  | .flushFlagsClear => execFlushFlagsClear_sound h hq
  | .accFlagsClear => execAccFlagsClear_sound h hq
  | .planLoad _ _ _ => execPlanLoad_sound h hq
  | .planUnload => execPlanUnload_sound h hq
  | .stepInput _ _ _ => execStepInput_sound h hq
  | .jobStart => execJobStart_sound h hq
  | .jobAbort => execJobAbort_sound h hq
  | .plotterFlagsClear => execPlotterFlagsClear_sound h hq
  | .checkpointArm _ _ _ => execCheckpointArm_sound h hq
  | .checkpointSeal => execCheckpointSeal_sound h hq
  | .spareAdopt _ _ _ _ => execSpareAdopt_sound h hq
  | .powerRequest _ => execPowerRequest_sound h hq
  | .powerTransitionComplete => execPowerTransitionComplete_sound h hq
  | .resetCold _ => execResetCold_sound h hq
  | .resetWarm _ => execResetWarm_sound h hq
  | .resetFabric => execResetFabric_sound h hq
  | .resetCore _ => execResetCore_sound h hq
  | .datumExit _ => execDatumExit_sound h hq
  | .nvLogClear => execNvLogClear_sound h hq
  | .counterSelect _ => execCounterSelect_sound h hq
  | .bundle _ _ _ => execBundle_sound h hq
  | .bundleAbandon => execBundleAbandon_sound h hq
  | .fwSwap _ => execFwSwap_sound h hq
  | .fwConfirm => execFwConfirm_sound h hq
  | .confirmExpiry => execConfirmExpiry_sound h hq
  | .confirmStore => execConfirmStore_sound h hq
  | .attest _ => execAttest_sound h hq
  | .attestSigned => execAttestSigned_sound h hq
  | .feedStateChange _ _ => execFeedStateChange_sound h hq
  | .feedReconnect _ => execFeedReconnect_sound h hq
  | .feedPresNRise _ => execFeedPresNRise_sound h hq
  | .feedPresNFall _ => execFeedPresNFall_sound h hq
  | .powerFail => execPowerFail_sound h hq
  | .converterFailed _ => execConverterFailed_sound h hq
  | .railDeviation _ => execRailDeviation_sound h hq
  | .regPhaseFailed _ => execRegPhaseFailed_sound h hq
  | .regFailed _ _ => execRegFailed_sound h hq
  | .fencedCoreDrain _ => execFencedCoreDrain_sound h hq
  | .regShort _ _ => execRegShort_sound h hq
  | .turnOnRequest _ => execTurnOnRequest_sound h hq
  | .turnOnAdmitted _ _ => execTurnOnAdmitted_sound h hq
  | .turnOnWait _ => execTurnOnWait_sound h hq
  | .sensorSample _ => execSensorSample_sound h hq
  | .droopExcursion _ => execDroopExcursion_sound h hq
  | .mrst _ => execMrst_sound h hq
  | .watchdog => execWatchdog_sound h hq
  | .criticalControl => execCriticalControl_sound h hq
  | .startTimeout => execStartTimeout_sound h hq
  | .resetAssert => execResetAssert_sound h hq
  | .nvPulseEnd => execNvPulseEnd_sound h hq
  | .releaseStep _ => execReleaseStep_sound h hq
  | .thermalHold _ => execThermalHold_sound h hq
  | .clkRefAbsent => execClkRefAbsent_sound h hq
  | .captureMessage _ => execCaptureMessage_sound h hq
  | .gazInterval => execGazInterval_sound h hq
  | .gazetteerSweep => execGazetteerSweep_sound h hq
  | .planLoadComplete _ => execPlanLoadComplete_sound h hq
  | .fabricResetComplete _ _ => execFabricResetComplete_sound h hq
  | .coreResetComplete _ => execCoreResetComplete_sound h hq
  | .cartoucheHoldupEnd => execCartoucheHoldupEnd_sound h hq
  | .hostLinkDown => execHostLinkDown_sound h hq
  | .turnOnRampComplete _ => execTurnOnRampComplete_sound h hq
  | .plcaBeaconMissed _ => execPlcaBeaconMissed_sound h hq

/-- Settles O59: an idle step touches neither the memories nor job control, and each command keeps both (`exec_sound`). -/
theorem stepsKeepStateSound : Obligations.StepsKeepStateSound := by
  unfold Obligations.StepsKeepStateSound
  intro s t h hq hstep
  match hp : s.pending with
  | [] =>
    rw [step_of_pending_nil hp] at hstep
    cases hstep
    exact ⟨h.congr, hq⟩
  | i :: rest =>
    rw [step_of_pending_cons hp] at hstep
    exact exec_sound (s := { s with pending := rest }) h.congr hq i t hstep

end Sys2Proof.Machine
end

section
/-!
DSTORE and DLOAD (R292, R293, R321, R383, R795): bytes move between a core and a region.
-/

namespace Sys2Proof.Machine

/-! ### What a transfer leaves alone -/

/-- Nothing has changed but core `n`, the stacks, the fabric's traffic and the counts of the blocks. -/
structure State.Moving (s t : State) (n : Nat) : Prop where
  only : t = { s with cores := t.cores, hbm := t.hbm, fabric := { s.fabric with
    seqNo := t.fabric.seqNo, counts := t.fabric.counts, tablesFixed := t.fabric.tablesFixed, band := t.fabric.band }
                      gaz := { s.gaz with blocks := t.gaz.blocks } }
  others : ∀ m, m ≠ n → t.core m = s.core m

namespace State.Moving

variable {s t u : State} {n : Nat}

theorem trans (h : s.Moving t n) (g : t.Moving u n) : s.Moving u n := by
  refine ⟨?_, fun m hm => (g.others m hm).trans (h.others m hm)⟩
  have hg := g.only
  rw [h.only] at hg
  exact hg

theorem of_coreAndTraffic (h : s.CoreAndTraffic t n) : s.Moving t n := by
  refine ⟨?_, h.others⟩
  rw [h.only]

theorem of_onlyCore (h : s.onlyCore t n) : s.Moving t n := of_coreAndTraffic (.of_onlyCore h)

theorem updCore (h : s.Moving t n) (f : CoreSt → CoreSt) : s.Moving (t.updCore n f) n :=
  h.trans (of_onlyCore ((t.onlyCore_refl n).updCore f))

theorem setStack (h : s.Moving t n) (k : Nat) (x : StackSt) : s.Moving (t.setStack k x) n :=
  h.trans ⟨rfl, fun _ _ => rfl⟩

theorem linesAt (h : s.Moving t n) (k a len : Nat) (who : Consumer) : s.Moving (t.linesAt k a len who) n := by
  obtain ⟨x, hx⟩ := t.linesAt_blocks k a len who
  rw [hx]
  exact h.trans ⟨rfl, fun _ _ => rfl⟩

theorem onlyTraffic (h : s.Moving t n) : s.onlyTraffic t := by
  unfold State.onlyTraffic
  rw [h.only]

theorem frame (h : s.Moving t n) :
    t = { s with cores := t.cores, hbm := t.hbm, fabric := t.fabric, gaz := { s.gaz with blocks := t.gaz.blocks } } := by
  rw [h.only]

theorem job (h : s.Moving t n) : t.job = s.job := by rw [h.only]

end State.Moving

theorem State.cores_linesAt (s : State) (k a len : Nat) (who : Consumer) : (s.linesAt k a len who).cores = s.cores := by
  obtain ⟨x, hx⟩ := s.linesAt_blocks k a len who
  rw [hx]

/-- Packets that are numbered and counted on their way. -/
theorem State.carried_frame (s : State) (src vc here dst : Nat) (l : List (List Byte)) :
    ∃ x, s.carried src vc here dst l = { s.numbered src vc l.length with gaz := { s.gaz with blocks := x } } :=
  State.landed_blocks _ _

theorem State.Moving.carried {s t : State} {n : Nat} (h : s.Moving t n) (src vc here dst : Nat) (l : List (List Byte)) :
    s.Moving (t.carried src vc here dst l) n := by
  obtain ⟨x, hx⟩ := t.carried_frame src vc here dst l
  rw [hx]
  exact h.trans ⟨rfl, fun _ _ => rfl⟩

theorem State.cores_carried (s : State) (src vc here dst : Nat) (l : List (List Byte)) : (s.carried src vc here dst l).cores = s.cores := by
  obtain ⟨x, hx⟩ := s.carried_frame src vc here dst l
  rw [hx]
  rfl

theorem State.stack_carried (s : State) (src vc here dst : Nat) (l : List (List Byte)) (j : Nat) :
    (s.carried src vc here dst l).stack j = s.stack j := by
  obtain ⟨x, hx⟩ := s.carried_frame src vc here dst l
  rw [hx]
  rfl

theorem State.CoreAndTraffic.stack {s t : State} {n : Nat} (h : s.CoreAndTraffic t n) (k : Nat) : t.stack k = s.stack k := by
  rw [h.only]
  rfl

/-! ### From a station (R383) -/

/-- Packets of a station with a way to a core go it. -/
theorem State.fromStation_of_way {s : State} {k n : Nat} (h : s.reachesCore k n) (count : Nat) (go : Nat → List (Nat × Nat) → State → State) :
    ∃ here track u, s.CoreAndTraffic u n ∧ u.cores = s.cores ∧ s.fromStation k n count go = go here track u := by
  obtain ⟨hway, hdrop⟩ := h
  obtain ⟨⟨here, track⟩, hx⟩ := Option.isSome_iff_exists.1 hway
  have hr := s.fabricCounted_tableRead (.station k n)
  obtain ⟨u, hu⟩ : ∃ u, s.tableRead (.station k n) = u := ⟨_, rfl⟩
  rw [hu] at hr
  have hw : u.stationWay k n = some (here, track) := by
    rw [hr]
    exact hx
  refine ⟨here, track, u.passes here n, ?_, ?_, ?_⟩
  · exact .of_fabricCounted (hr.trans (u.fabricCounted_passes here n))
  · rw [u.fabricCounted_passes here n, hr]
  · simp only [State.fromStation, hu, hw]
    exact State.routed_of_way ((hr.dropAt here n).trans (hdrop _ hx)) count _

/-! ### Stacks that read as written -/

/-- A write to a clean stack asks for nothing. -/
theorem State.writeHbm_clean {s : State} {k : Nat} (h : s.clean k) (a : Nat) (l : List Byte) (who : Consumer) :
    s.writeHbm k a l who = (s.linesAt k a l.length who).writeStack k a l who := by
  refine State.askMerges_clean ?_
  rw [State.stack_writeStack, State.linesAt_stack, StackSt.write_clean h]
  exact h.2.2.2.1

/-- A read of a clean stack gives what has been written, and loses no line. -/
theorem State.readStart_clean {s : State} {k : Nat} (h : s.clean k) (a len : Nat) :
    s.readStart k a len = (s.setStack k (s.stack k), { after := s.stack k, lost := [], data := s.readStack k a len }) := by
  simp [State.readStart, State.afterRead, StackSt.readRange_clean h, State.readStack]

/-! ### Both instructions -/

/-- The state once the Dispatch instruction in front of core `n` has issued and its operation stands in the queue. -/
def State.moveIssued (s : State) (n : Nat) : State :=
  (s.issued n .dispatch (s.atFront n .dispatch) false).enqueueOp n .dispatch (s.atFront n .dispatch) (s.core n).issueSeq false

theorem State.onlyCore_moveIssued {s : State} {n : Nat} (hn : n < numCores) : s.onlyCore (s.moveIssued n) n :=
  (State.onlyCore_issued hn .dispatch _ false).enqueueOp _ _ _ _

theorem State.act_moveIssued {s : State} {n : Nat} (hn : n < numCores) : ((s.moveIssued n).core n).act = (s.core n).act := by
  have h : (s.core n).queueFrame ((s.moveIssued n).core n) .dispatch := State.queueFrame_enqueued hn (by decide) _ _ _ _ _
  rw [h]
  rfl

theorem State.moveRange_moveIssued {s : State} {n : Nat} (hn : n < numCores) (f : DmoveF) :
    (s.moveIssued n).moveRange n f = s.moveRange n f := by
  rw [(State.onlyCore_moveIssued hn).1]
  rfl

/-- The packets of a transfer that has issued come to the stack's station. -/
theorem State.toTarget_moveIssued {s : State} {n k : Nat} (hn : n < numCores) (h : s.reachesTarget n k 1) (count : Nat)
    (go : Nat → List (Nat × Nat) → State → State) :
    ∃ d track u, (s.moveIssued n).CoreAndTraffic u n ∧ u.cores = (s.moveIssued n).cores ∧ (∀ j, u.stack j = s.stack j)
      ∧ (s.moveIssued n).toTarget n k 1 count go = go d track u := by
  have ho := State.onlyCore_moveIssued (s := s) hn
  have hway : (s.moveIssued n).reachesTarget n k 1 := by
    rw [ho.1]
    exact h
  obtain ⟨d, track, u, hu, hcores, hgo⟩ := State.toTarget_of_way hway count go
  refine ⟨d, track, u, hu, hcores, fun j => ?_, hgo⟩
  rw [hu.stack, ho.1]
  rfl

theorem State.job_moveIssued {s : State} {n : Nat} (hn : n < numCores) : (s.moveIssued n).job = s.job := (State.onlyCore_moveIssued hn).job

/-! ### DSTORE (R292) -/

/-- What a DSTORE does once it has issued. -/
def State.startDstore (t : State) (n : Nat) (w : InstrWord) (key : Nat) : State :=
  let t := t.enqueueOp n .dispatch w key false
  match t.moveRange n (dmoveF w) with
  | some (k, a) =>
    let data := Memory.readN (t.core n).act (dmoveF w).laddr (dmoveF w).len
    t.toTarget n k 1 (packetData data).length (fun d _ u =>
      (((u.carried n 1 n d (packetData data)).linesAt k a data.length (.dload n)).writeHbm k a data).finishOp n .dispatch key)
  | none => t

/-- The bytes of a DSTORE arrive at the stack, and its operation is finished. -/
theorem exec_dstore {s : State} {n k a : Nat} {f : DmoveF} (hqu : s.quiet) (h : s.ready n .dispatch 0x41)
    (hc : noTrap (dstoreCauses n s (s.core n) (s.atFront n .dispatch))) (hf : dmoveF (s.atFront n .dispatch) = f)
    (hr : s.moveRange n f = some (k, a)) (hway : s.reachesTarget n k 1) (hclean : s.clean k) :
    ∃ v, (s.moveIssued n).Moving v n ∧ v.cores = (s.moveIssued n).cores ∧ (∀ j, v.stack j = s.stack j)
      ∧ exec (.dstore n .dispatch) s
        = .next ((v.writeStack k a (Memory.readN (s.core n).act f.laddr f.len)).finishOp n .dispatch (s.core n).issueSeq) := by
  subst hf
  rw [← State.moveRange_moveIssued h.lt] at hr
  generalize hdata : Memory.readN (s.core n).act _ _ = data
  obtain ⟨d, track, u, hu, hcores, hust, hgo⟩ := State.toTarget_moveIssued h.lt hway (packetData data).length (fun d _ u =>
    (((u.carried n 1 n d (packetData data)).linesAt k a data.length (.dload n)).writeHbm k a data).finishOp n .dispatch (s.core n).issueSeq)
  generalize hv : (u.carried n 1 n d (packetData data)).linesAt k a data.length (.dload n) = v at hgo
  have hmoving : (s.moveIssued n).Moving v n := hv ▸ ((State.Moving.of_coreAndTraffic hu).carried ..).linesAt ..
  have hstack : ∀ j, v.stack j = s.stack j := fun j => by
    rw [← hv, State.linesAt_stack, State.stack_carried, hust]
  have hcl : v.clean k := by
    rw [State.clean, hstack]
    exact hclean
  have heff : (s.issued n .dispatch (s.atFront n .dispatch) false).startDstore n (s.atFront n .dispatch) (s.core n).issueSeq
      = ((v.linesAt k a data.length .plotter).writeStack k a data).finishOp n .dispatch (s.core n).issueSeq := by
    rw [← State.writeHbm_clean hcl, ← hgo, ← hdata, ← State.act_moveIssued h.lt]
    simp only [State.startDstore, ← State.moveIssued.eq_1, hr]
  refine ⟨v.linesAt k a data.length .plotter, hmoving.linesAt .., ?_, fun j => (v.linesAt_stack ..).trans (hstack j), ?_⟩
  · rw [State.cores_linesAt, ← hv, State.cores_linesAt, State.cores_carried, hcores]
  · rw [← heff]
    refine issue_next (draws := never) (eff := fun t w key => t.startDstore n w key) hqu h
      (by simpa [State.causes, h.opcode, CoreSt.viewOf_program _ h.program] using hc) (by simp [State.ordered, h.opcode]) ?_
    rw [show never _ = false from rfl, heff]
    exact ((hmoving.linesAt ..).job).trans (State.job_moveIssued h.lt)

/-! ### DLOAD (R293) -/

/-- What a DLOAD of lines that can be read does with them: they leave the stack's station for the core. -/
def State.loadLines (u : State) (n k a : Nat) (f : DmoveF) (key here : Nat) : State :=
  let r := ((u.carried n 1 n here [[]]).linesAt k a f.len (.dload n)).readStart k a f.len
  let lw : LoadWait := { wait := { stack := k, addr := a, data := r.2.data, need := r.2.lost }, lmem := f.lmem, laddr := f.laddr, key := key }
  if r.2.lost.isEmpty then r.1.loaded n lw
  else (r.1.updCore n (fun c => { c with loads := c.loads ++ [lw] })).wantLines k r.2.lost (.dload n)

/-- What a DLOAD does once it has issued. -/
def State.startDload (t : State) (n : Nat) (w : InstrWord) (key : Nat) : State :=
  let t := t.enqueueOp n .dispatch w key false
  match t.moveRange n (dmoveF w) with
  | none => t
  | some (k, a) => t.toTarget n k 1 1 (fun d _ u => u.loadLines n k a (dmoveF w) key d)

/-- Lines of a clean stack arrive at a core that its station has a way to. -/
theorem State.loadLines_of_way {u : State} {n k : Nat} (hclean : u.clean k) (hback : u.reachesCore (targetStation k) n) (a : Nat) (f : DmoveF)
    (key here : Nat) :
    ∃ v, u.Moving v n ∧ v.cores = u.cores ∧ (∀ j, v.stack j = u.stack j)
      ∧ u.loadLines n k a f key here
        = (v.updCore n (fun c => c.writeMem f.lmem f.laddr (u.readStack k a f.len))).finishOp n .dispatch key := by
  generalize hr : (u.carried n 1 n here [[]]).linesAt k a f.len (.dload n) = r
  have hur : u.Moving r n := hr ▸ ((State.Moving.of_coreAndTraffic (.refl u n)).carried ..).linesAt ..
  have hrst : ∀ j, r.stack j = u.stack j := fun j => by rw [← hr, State.linesAt_stack, State.stack_carried]
  have hrc : r.cores = u.cores := by rw [← hr, State.cores_linesAt, State.cores_carried]
  have hrcl : r.clean k := by
    rw [State.clean, hrst]
    exact hclean
  have hus : u.Moving (r.setStack k (r.stack k)) n := hur.setStack ..
  have hway : (r.setStack k (r.stack k)).reachesCore (targetStation k) n := by
    rw [hus.only]
    exact hback
  have hread : r.readStack k a f.len = u.readStack k a f.len := by rw [State.readStack, hrst, State.readStack]
  obtain ⟨x, track, w, hw, hwc, hgo⟩ := State.fromStation_of_way hway (packetData (u.readStack k a f.len)).length (fun x _ t =>
    ((t.carried (stationSource (targetStation k)) 1 x n (packetData (u.readStack k a f.len))).updCore n
      (fun c => c.writeMem f.lmem f.laddr (u.readStack k a f.len))).finishOp n .dispatch key)
  refine ⟨w.carried (stationSource (targetStation k)) 1 x n (packetData (u.readStack k a f.len)),
    (hus.trans (.of_coreAndTraffic hw)).carried .., ?_, fun j => ?_, ?_⟩
  · rw [State.cores_carried, hwc]
    exact hrc
  · rw [State.stack_carried, hw.stack]
    by_cases hj : j = k
    · rw [hj, State.stack_setStack, hrst]
    · rw [State.stack_setStack_other _ _ hj, hrst]
  · rw [← hgo]
    simp only [State.loadLines, hr, State.readStart_clean hrcl, hread, List.isEmpty_nil, if_true, State.loaded]

/-- The lines of a DLOAD arrive at the core, and its operation is finished. -/
theorem exec_dload {s : State} {n k a : Nat} {f : DmoveF} (hqu : s.quiet) (h : s.ready n .dispatch 0x42)
    (hc : noTrap (dloadCauses n s (s.core n) (s.atFront n .dispatch))) (hf : dmoveF (s.atFront n .dispatch) = f)
    (hr : s.moveRange n f = some (k, a)) (hway : s.reachesTarget n k 1) (hback : s.reachesCore (targetStation k) n) (hclean : s.clean k) :
    ∃ v, (s.moveIssued n).Moving v n ∧ v.cores = (s.moveIssued n).cores ∧ (∀ j, v.stack j = s.stack j)
      ∧ exec (.dload n .dispatch) s
        = .next ((v.updCore n (fun c => c.writeMem f.lmem f.laddr (s.readStack k a f.len))).finishOp n .dispatch (s.core n).issueSeq) := by
  subst hf
  rw [← State.moveRange_moveIssued h.lt] at hr
  obtain ⟨d, track, u, hu, hcores, hust, hgo⟩ := State.toTarget_moveIssued h.lt hway 1 (fun d _ u =>
    u.loadLines n k a (dmoveF (s.atFront n .dispatch)) (s.core n).issueSeq d)
  have hucl : u.clean k := by
    rw [State.clean, hust]
    exact hclean
  have huback : u.reachesCore (targetStation k) n := by
    rw [hu.only, (State.onlyCore_moveIssued h.lt).1]
    exact hback
  obtain ⟨v, hv, hvc, hvst, hload⟩ := State.loadLines_of_way hucl huback a (dmoveF (s.atFront n .dispatch)) (s.core n).issueSeq d
  have hmoving := (State.Moving.of_coreAndTraffic hu).trans hv
  have hread : u.readStack k a (dmoveF (s.atFront n .dispatch)).len = s.readStack k a (dmoveF (s.atFront n .dispatch)).len := by
    rw [State.readStack, hust, State.readStack]
  have heff : (s.issued n .dispatch (s.atFront n .dispatch) false).startDload n (s.atFront n .dispatch) (s.core n).issueSeq
      = (v.updCore n (fun c => c.writeMem (dmoveF (s.atFront n .dispatch)).lmem (dmoveF (s.atFront n .dispatch)).laddr
        (s.readStack k a (dmoveF (s.atFront n .dispatch)).len))).finishOp n .dispatch (s.core n).issueSeq := by
    rw [← hread, ← hload, ← hgo]
    simp only [State.startDload, ← State.moveIssued.eq_1, hr]
  refine ⟨v, hmoving, hvc.trans hcores, fun j => (hvst j).trans (hust j), ?_⟩
  rw [← heff]
  refine issue_next (draws := never) (eff := fun t w key => t.startDload n w key) hqu h
    (by simpa [State.causes, h.opcode, CoreSt.viewOf_program _ h.program] using hc) (by simp [State.ordered, h.opcode]) ?_
  rw [show never _ = false from rfl, heff]
  exact hmoving.job.trans (State.job_moveIssued h.lt)

/-! ### The statement -/

theorem State.core_of_cores {s t : State} (h : t.cores = s.cores) (n : Nat) : t.core n = s.core n := by rw [State.core, h, State.core]

theorem State.core_finishOp (s : State) (n : Nat) (q : QName) (key : Nat) :
    (s.finishOp n q key).core n = (s.core n).setQueue q (((s.core n).queue q).finish (fun _ => true) key) := by
  rw [State.finishOp, State.core_updCore]

theorem CoreSt.queue_writeMem (c : CoreSt) (sb : Bool) (a : Nat) (l : List Byte) (q : QName) : (c.writeMem sb a l).queue q = c.queue q := by
  rw [CoreSt.writeMem_frame]
  cases q <;> rfl

/-- The core of a DLOAD whose bytes have come. -/
theorem CoreSt.loaded_frame {c d : CoreSt} (h : c.queueFrame d .dispatch) (sb : Bool) (a : Nat) (l : List Byte) (x : Queue) {e : CoreSt}
    (he : e = (d.writeMem sb a l).setQueue .dispatch x) :
    e = { c with dq := e.dq, pen := e.pen, issueSeq := e.issueSeq, act := e.act, sbuf := e.sbuf, sramErr := e.sramErr
                 counters := e.counters, wrapped := e.wrapped } := by
  rw [he, CoreSt.writeMem_frame]
  unfold CoreSt.queueFrame at h
  rw [h]
  rfl

/-- Settles O12: the bytes of a DSTORE come to the stack (`exec_dstore`), those of a DLOAD to the core (`exec_dload`). -/
theorem dstoreAndDloadMove : Obligations.DstoreAndDloadMove := by
  rintro s n w f k a hqu hmem rfl hf hr hway hclean
  refine ⟨fun h hc => ?_, fun h hc hback => ?_⟩
  · obtain ⟨v, hv, hvc, hvst, hex⟩ := exec_dstore hqu h hc hf hr hway hclean
    obtain ⟨c, hcore, hfr, took⟩ := h.enqueued rfl false false
    generalize hdata : Memory.readN (s.core n).act f.laddr f.len = data at hex
    obtain ⟨t, ht⟩ : ∃ t, (v.writeStack k a data).finishOp n .dispatch (s.core n).issueSeq = t := ⟨_, rfl⟩
    rw [ht] at hex
    have hmoving : s.Moving t n := ht ▸ (((State.Moving.of_onlyCore (State.onlyCore_moveIssued h.lt)).trans hv).setStack ..).updCore _
    have htc : t.core n = c.setQueue .dispatch ((c.queue .dispatch).finish (fun _ => true) (s.core n).issueSeq) := by
      have hvcore : (v.writeStack k a data).core n = c := (State.core_of_cores hvc n).trans hcore
      rw [← ht, State.core_finishOp, hvcore]
    have hi : c.issueSeq = (s.core n).issueSeq + 1 := by
      rw [← hcore]
      exact took.1
    have htk : (t.stack k).mem = Memory.writeN (s.stack k).mem a data := by
      have hvcl : v.clean k := by
        rw [State.clean, hvst]
        exact hclean
      rw [← ht, State.finishOp, State.stack_updCore, State.stack_writeStack, StackSt.write_clean hvcl, hvst]
    have hlen : data.length = f.len := hdata ▸ Memory.length_readN ..
    refine ⟨t, hex, took.finish (fun _ => true) rfl hcore htc (fun _ => rfl) rfl rfl, ?_, hmoving.others, hmoving.onlyTraffic, hmoving.frame,
      fun j hj => ?_, ?_, fun b hb => ?_⟩
    · rw [htc]
      exact (hfr.onlyIssue hi).setQueue _ _
    · rw [← ht, State.finishOp, State.stack_updCore, State.stack_writeStack_other _ _ _ _ hj, hvst]
    · rw [State.readStack, htk, ← hlen, Memory.readN_writeN (State.wf_stack hmem k)]
    · rw [htk]
      exact Memory.read_writeN_outside (State.wf_stack hmem k) data (hlen ▸ hb)
  · obtain ⟨v, hv, hvc, hvst, hex⟩ := exec_dload hqu h hc hf hr hway hback hclean
    obtain ⟨c, hcore, hfr, took⟩ := h.enqueued rfl false false
    generalize hdata : s.readStack k a f.len = data at hex ⊢
    obtain ⟨t, ht⟩ : ∃ t, (v.updCore n (fun c => c.writeMem f.lmem f.laddr data)).finishOp n .dispatch (s.core n).issueSeq = t := ⟨_, rfl⟩
    rw [ht] at hex
    have hmoving : s.Moving t n := ht ▸ (((State.Moving.of_onlyCore (State.onlyCore_moveIssued h.lt)).trans hv).updCore _).updCore _
    have htc : t.core n = (c.writeMem f.lmem f.laddr data).setQueue .dispatch ((c.queue .dispatch).finish (fun _ => true) (s.core n).issueSeq) := by
      have hvcore : v.core n = c := (State.core_of_cores hvc n).trans hcore
      rw [← ht, State.core_finishOp, State.core_updCore, hvcore, CoreSt.queue_writeMem]
    have htst : ∀ j, t.stack j = s.stack j := fun j => by
      rw [← ht, State.finishOp, State.stack_updCore, State.stack_updCore, hvst]
    have hlen : data.length = f.len := hdata ▸ Memory.length_readN ..
    have hcact : c.act = (s.core n).act := by rw [hfr]; rfl
    have hcsbuf : c.sbuf = (s.core n).sbuf := by rw [hfr]; rfl
    have hci : c.istore = (s.core n).istore := by rw [hfr]; rfl
    have hw := CoreSt.writeMem_reads (c := c) (by rw [CoreSt.memOk, hcact, hcsbuf, hci]; exact State.wf_core hmem n) f.lmem f.laddr data
    refine ⟨t, hex, took.finish (fun _ => true) rfl hcore htc (fun p => ?_) ?_ ?_, hmoving.others, hmoving.frame, hmoving.onlyTraffic, htst,
      CoreSt.loaded_frame hfr _ _ _ _ htc, ?_⟩
    · rw [CoreSt.writeMem_frame]
      cases p <;> rfl
    · rw [CoreSt.writeMem_frame]
      rfl
    · rw [CoreSt.writeMem_frame]
      rfl
    · rw [hcact, hcsbuf, hlen] at hw
      rw [htc]
      exact hw

end Sys2Proof.Machine
end

section
/-!
Gathers (R295, R361, R560, R561, R563): requests are refused, held or answered, and tagged data comes to the core whose DRECV waits for it.
-/

namespace Sys2Proof.Machine

/-! ### A message that is sent at once (R548, R552) -/

/-- Nothing has changed but the network, what has left the module and the counts of blocks; the requests that are held stand. -/
structure State.OnNet (s t : State) : Prop where
  only : t = { s with net := t.net, out := t.out, gaz := { s.gaz with blocks := t.gaz.blocks } }
  held : t.net.held = s.net.held

namespace State.OnNet

variable {s t u : State}

theorem refl (s : State) : s.OnNet s := ⟨rfl, rfl⟩

theorem trans (h : s.OnNet t) (g : t.OnNet u) : s.OnNet u := by
  refine ⟨?_, g.held.trans h.held⟩
  have hg := g.only
  rw [h.only] at hg
  exact hg

theorem foldl {α : Type} {f : State → α → State} (h : ∀ (t : State) x, t.OnNet (f t x)) (l : List α) (s : State) :
    s.OnNet (l.foldl f s) := by
  induction l generalizing s with
  | nil => exact refl s
  | cons x l ih => exact (h s x).trans (ih _)

theorem job (h : s.OnNet t) : t.job = s.job := by rw [h.only]

end State.OnNet

theorem State.frameBytes_blocks (s : State) (i direction payload : Nat) :
    ∃ x, s.frameBytes i direction payload = { s with gaz := { s.gaz with blocks := x } } := by
  unfold State.frameBytes
  split
  · exact ⟨_, rfl⟩
  · exact s.count_blocks (by simp only [blkPort]; omega) _ _ _ _

theorem State.onNet_frameBytes (s : State) (i direction payload : Nat) : s.OnNet (s.frameBytes i direction payload) := by
  obtain ⟨x, hx⟩ := s.frameBytes_blocks i direction payload
  rw [hx]
  exact ⟨rfl, rfl⟩

theorem State.out_frameBytes (s : State) (i direction payload : Nat) : (s.frameBytes i direction payload).out = s.out := by
  obtain ⟨x, hx⟩ := s.frameBytes_blocks i direction payload
  rw [hx]

theorem State.onNet_netCount (s : State) (i : Nat) (f : NetCounts → NetCounts) : s.OnNet (s.netCount i f) := by
  unfold State.netCount
  split <;> exact ⟨rfl, rfl⟩

theorem State.out_netCount (s : State) (i : Nat) (f : NetCounts → NetCounts) : (s.netCount i f).out = s.out := by
  unfold State.netCount
  split <;> rfl

theorem State.onNet_resolve (s : State) (i : Nat) : s.OnNet (s.resolve i) := by
  unfold State.resolve
  split <;> exact ⟨rfl, rfl⟩

/-- A next hop that is not known is solicited. -/
theorem State.out_resolve (s : State) (i : Nat) : s.afterSolicit (s.resolve i).out := by
  unfold State.resolve
  split
  · exact .inl rfl
  · exact .inr ⟨_, _, _, rfl⟩

/-- A message has left for a module, behind the solicitation that it may need, and nothing else has changed. -/
structure State.Posted (s t : State) (dst : Nat) (m : Msg) : Prop where
  onNet : s.OnNet t
  out : ∃ n w o, t.out = o ++ [.message dst n m w] ∧ s.afterSolicit o

theorem State.posted_send {s t : State} (h : s.OnNet t) (ho : s.afterSolicit t.out) (dst n : Nat) (m : Msg) (w : List WireFrame) :
    s.Posted (t.send (.message dst n m w)) dst m :=
  ⟨h.trans ⟨rfl, rfl⟩, n, w, t.out, rfl, ho⟩

theorem State.posted_messageOn (s : State) (p : PeerSt) (i : Nat) (m : Msg) : s.Posted (s.messageOn p i m) p.module m := by
  have hout : ∀ (l : List (List Byte)) (t : State), (l.foldl (fun t b => t.frameBytes i 4 b.length) t).out = t.out :=
    foldl_proj State.out fun t b => t.out_frameBytes i 4 b.length
  unfold State.messageOn
  dsimp only
  refine State.posted_send ?_ ?_ _ _ _ _
  · refine .trans ?_ (.foldl (fun (t : State) b => t.onNet_frameBytes i 4 (List.length b)) _ _)
    refine .trans ?_ (State.onNet_netCount _ _ _)
    exact (s.onNet_resolve i).trans ⟨rfl, rfl⟩
  · rw [hout, State.out_netCount]
    exact s.out_resolve i

/-- A message to a peer that stands, where the tables of unacknowledged messages have room, leaves at once. -/
theorem State.posted_message {s : State} {dst : Nat} {p : PeerSt} (hp : s.peer dst = some p) (hl : p.lost = false) (hpr : p.present = true)
    (hroom : ∀ i, s.tableFull i = false) (m : Msg) : s.Posted (s.message dst none none m) dst m := by
  obtain rfl : p.module = dst := State.module_of_peer hp
  have h := s.posted_messageOn { p with rotate := p.rotate + 1 } (s.pickIface p.localGroup none p.rotate) m
  simpa only [State.message, hp, hl, hpr, hroom, Option.getD_none, Bool.not_true, Bool.false_eq_true, if_false] using h

theorem State.Posted.congr {s b t : State} {dst : Nat} {m : Msg} (h : b.Posted t dst m) (hb : b.out = s.out) :
    ∃ n w o, t.out = o ++ [.message dst n m w] ∧ s.afterSolicit o := by
  obtain ⟨n, w, o, ho, hs⟩ := h.out
  refine ⟨n, w, o, ho, ?_⟩
  rw [State.afterSolicit, hb] at hs
  exact hs

/-! ### A request is refused (R560) -/

/-- The answer to a request in one message. -/
def gatherAnswer (g : GatherMsg) (step : Nat) (data : Option (List Byte)) : Msg :=
  .gatherData { g with step := step, count := if data.isSome then g.count else 0 } (data.getD [])

theorem State.reply_one {s : State} {data : Option (List Byte)} (h : (data.getD []).length + 20 ≤ 65535 * 8192) (dst : Nat) (g : GatherMsg)
    (step : Nat) : s.reply dst g step data = s.message dst none none (gatherAnswer g step data) := by
  simp only [State.reply, h, if_true, gatherAnswer]

/-- A request for what this module does not hold is answered with COUNT 0. -/
theorem exec_gatherReq_none {s : State} {src st : Nat} {g : GatherMsg} {p : PeerSt} (hq : s.quiet) (hroom : ∀ i, s.tableFull i = false)
    (hk : g.kind < 4) (hr : s.reaches src (.gatherReq g) = true) (ha : s.answerTo g = .none st) (hp : s.peer src = some p)
    (hl : p.lost = false) (hpr : p.present = true) :
    ∃ t, exec (.gatherReq src g) s = .next t ∧ (s.unholdGather { src := src, stack := 0, g := g }).Posted t src (gatherAnswer g st none) := by
  have h := State.posted_message (s := s.unholdGather { src := src, stack := 0, g := g }) hp hl hpr hroom (gatherAnswer g st none)
  refine ⟨_, ?_, h⟩
  rw [← done_of_job_eq hq (by rw [h.onNet.only]; rfl), ← State.reply_one (by decide)]
  show execGatherReq src g s = _
  simp only [execGatherReq, hr, Bool.not_true, Bool.false_eq_true, if_false, State.gatherAsked, ha, show ¬ g.kind = 5 by omega,
    show ¬ g.kind > 5 by omega]

/-! ### A tagged request (R563) -/

/-- A tagged request for a step that has not been passed waits. -/
theorem exec_gatherReq_held {s : State} {src : Nat} {g : GatherMsg} {r : Region} (hq : s.quiet) (hk : g.kind = 5)
    (hr : s.reaches src (.gatherReq g) = true) (hpass : s.passed g.step = false) (hreg : s.regions[g.layer]? = some r)
    (hnew : ∀ h ∈ s.net.held, h.g ≠ g) :
    exec (.gatherReq src g) s = .next { s with net := { s.net with held := s.net.held ++ [{ src := src, stack := r.stack, g := g }] } } := by
  have hc : s.net.held.contains { src := src, stack := r.stack, g := g } = false :=
    (List.contains_eq_mem ..).trans (decide_eq_false fun hm => hnew _ hm rfl)
  refine .trans ?_ (done_of_job_eq hq rfl)
  show execGatherReq src g s = _
  simp only [execGatherReq, hr, Bool.not_true, Bool.false_eq_true, if_false, State.gatherAsked, hk, if_true, hpass, hreg, State.holdGather, hc]

/-! ### Its answer once its READY counter covers 1 (R560, R563) -/

/-- Of the fabric nothing but packet numbers. -/
theorem State.ferryTo_numbers (s : State) (dst k a len : Nat) :
    ∃ x, s.ferryTo dst [(k, a, len)] = { s with fabric := { s.fabric with seqNo := x } } := by
  unfold State.ferryTo
  split
  · simp only [List.foldl_cons, List.foldl_nil, State.ferryOut, State.ferry]
    split
    · exact ⟨_, rfl⟩
    · exact ⟨_, rfl⟩
  · exact ⟨_, rfl⟩

/-- A held tagged request has been read for: its READY counter has been consumed, and it no longer waits. -/
def State.tagTaken (s : State) (h : HeldGather) (r : Region) : State :=
  (((s.linesAt r.stack (r.start + 64 * h.g.first) (64 * h.g.count) .gather).setStack r.stack (s.stack r.stack)).counterTake r.stack h.g.aux
    1).unholdGather h

/-- The state in which it is answered: its data has come to the port group's station. -/
def State.tagServed (s : State) (h : HeldGather) (r : Region) : State :=
  (s.tagTaken h r).ferryTo h.src [(r.stack, r.start, 64 * h.g.count)]

theorem State.tagServed_frame (s : State) (h : HeldGather) (r : Region) :
    s.tagServed h r = { s with net := { s.net with held := s.net.held.erase h }, hbm := (s.tagServed h r).hbm
                               fabric := { s.fabric with seqNo := (s.tagServed h r).fabric.seqNo }
                               gaz := { s.gaz with blocks := (s.tagServed h r).gaz.blocks } } := by
  obtain ⟨x, hx⟩ := s.linesAt_blocks r.stack (r.start + 64 * h.g.first) (64 * h.g.count) .gather
  obtain ⟨y, hy⟩ := (s.tagTaken h r).ferryTo_numbers h.src r.stack r.start (64 * h.g.count)
  rw [State.tagServed, hy, State.tagTaken, hx]
  rfl

theorem State.stack_tagServed (s : State) (h : HeldGather) (r : Region) :
    (s.tagServed h r).stack r.stack
      = { s.stack r.stack with counters := Tab.set (s.stack r.stack).counters h.g.aux ((s.stack r.stack).counter h.g.aux - 1) } := by
  obtain ⟨y, hy⟩ := (s.tagTaken h r).ferryTo_numbers h.src r.stack r.start (64 * h.g.count)
  rw [State.tagServed, hy]
  show ((State.counterTake _ _ _ _).stack r.stack) = _
  rw [State.counterTake, State.stack_updStack, State.stack_setStack]

theorem State.tagReady_clean {s : State} {h : HeldGather} {r : Region} (hreg : s.regions[h.g.layer]? = some r) (hclean : s.clean r.stack)
    (hlen : 64 * h.g.count + 20 ≤ 65535 * 8192) :
    s.tagReady h = (s.tagServed h r).message h.src none none
      (gatherAnswer h.g h.g.step (some (s.readStack r.stack (r.start + 64 * h.g.first) (64 * h.g.count)))) := by
  rw [← State.reply_one (by simpa [State.readStack, Memory.length_readN] using hlen)]
  simp only [State.tagReady, hreg, State.readHbm_clean hclean, Memory.length_readN, State.tagServed, State.tagTaken]
  rfl

/-- A held tagged request whose READY counter covers 1 is answered with the region's data. -/
theorem exec_gatherReqReady {s : State} {k src : Nat} {g : GatherMsg} {r : Region} {p : PeerSt} (hq : s.quiet)
    (hroom : ∀ i, s.tableFull i = false) (hk : k < numStacks) (hclean : s.clean k) (hreg : s.regions[g.layer]? = some r) (hrk : r.stack = k)
    (hkind : g.kind = 5) (hheld : s.net.held = [{ src := src, stack := k, g := g }]) (hready : 1 ≤ (s.stack k).counter g.aux)
    (hp : s.peer src = some p) (hl : p.lost = false) (hpr : p.present = true) (hlen : 64 * g.count + 20 ≤ 65535 * 8192) :
    ∃ t, exec (.gatherReqReady k g.tag) s = .next t ∧ (s.tagServed { src := src, stack := k, g := g } r).Posted t src
      (gatherAnswer g g.step (some (s.readStack k (r.start + 64 * g.first) (64 * g.count)))) := by
  subst hrk
  have hfr := s.tagServed_frame { src := src, stack := r.stack, g := g } r
  have hp' : (s.tagServed { src := src, stack := r.stack, g := g } r).peer src = some p := by
    rw [hfr]
    exact hp
  have hroom' : ∀ i, (s.tagServed { src := src, stack := r.stack, g := g } r).tableFull i = false := by
    rw [hfr]
    exact hroom
  have h := State.posted_message hp' hl hpr hroom'
    (gatherAnswer g g.step (some (s.readStack r.stack (r.start + 64 * g.first) (64 * g.count))))
  refine ⟨_, ?_, h⟩
  have hj := h.onNet.job
  rw [← done_of_job_eq hq (hj.trans (by rw [hfr])), ← State.tagReady_clean (h := { src := src, stack := r.stack, g := g }) hreg hclean hlen]
  show execGatherReqReady r.stack g.tag s = _
  simp [execGatherReqReady, withStack, hk, hheld, hkind, hready]

/-! ### Tagged data comes to its core (R295, R361, R563) -/

/-- A core to which the data of a waiting DRECV has come. -/
def CoreSt.received (c : CoreSt) (r : RecvWait) (data : List Byte) : CoreSt := { (c.writeMem r.dmem r.daddr data) with recvs := c.recvs.erase r }

/-- The state in which that DRECV is finished. -/
def State.received (s : State) (n : Nat) (r : RecvWait) (data : List Byte) : State :=
  (s.updCore n (fun c => c.received r data)).finishOp n .dispatch r.key

/-- Tagged data that the one waiting DRECV of a core has asked for is written, and its operation is finished. -/
theorem State.deliverTagged_one {s : State} {n : Nat} {r : RecvWait} {data : List Byte} (hrecvs : (s.core n).recvs = [r])
    (hlen : data.length = r.len) : s.deliverTagged n r.tag data = s.received n r data := by
  simp only [State.deliverTagged, hrecvs, List.find?_singleton, decide_true, if_true, State.takeTagged, hlen, List.take_of_length_le hlen.le]
  rfl

/-- What has been received stands in the core's memory, and no DRECV waits for it. -/
theorem State.core_received {s : State} {n : Nat} {r : RecvWait} (hrecvs : (s.core n).recvs = [r]) (data : List Byte) :
    ((s.received n r data).core n).recvs = [] ∧ ((s.received n r data).core n).act = ((s.core n).writeMem r.dmem r.daddr data).act
      ∧ ((s.received n r data).core n).sbuf = ((s.core n).writeMem r.dmem r.daddr data).sbuf := by
  rw [State.received, State.core_finishOp, State.core_updCore]
  refine ⟨?_, rfl, rfl⟩
  show (s.core n).recvs.erase r = []
  rw [hrecvs, List.erase_cons_head]

theorem State.core_received_other (s : State) {n m : Nat} (hm : m ≠ n) (r : RecvWait) (data : List Byte) :
    (s.received n r data).core m = s.core m := by
  rw [State.received, State.finishOp, State.core_updCore_other _ _ hm, State.core_updCore_other _ _ hm]

/-- What the way from a port group's station to a core leaves alone. -/
theorem State.tagArrives_of_way {s : State} {g n : Nat} (h : s.reachesCore (groupStation g) n) (tag : Nat) (data : List Byte) :
    ∃ v : State, v.cores = s.cores ∧ v.hbm = s.hbm ∧ v.out = s.out ∧ v.net = s.net ∧ v.job = s.job
      ∧ s.tagArrives g n tag data = v.deliverTagged n tag data := by
  obtain ⟨here, track, u, hu, hc, hgo⟩ := State.fromStation_of_way h (packetData data).length (fun here _ t =>
    (t.carried (stationSource (groupStation g)) 4 here n (packetData data)).deliverTagged n tag data)
  obtain ⟨x, hx⟩ := u.carried_frame (stationSource (groupStation g)) 4 here n (packetData data)
  refine ⟨u.carried (stationSource (groupStation g)) 4 here n (packetData data), ?_, ?_, ?_, ?_, ?_, hgo⟩ <;> rw [hx]
  · exact hc
  all_goals
    rw [hu.only]
    rfl

/-- The data of the one gather that is open, which a core's one waiting DRECV has asked for. -/
theorem exec_gatherData {s : State} {src n : Nat} {g : GatherMsg} {data : List Byte} {o : OutGather} {r : RecvWait} {p : PeerSt} (hq : s.quiet)
    (hmerges : ∀ k, (s.stack k).merges = []) (hr : s.reaches src (.gatherData g data) = true) (hk : g.kind = 5) (hg : s.net.gathers = [o])
    (hsrc : o.holder = src) (hog : o.g = g) (huse : o.use = .recv n r.tag) (hrecvs : (s.core n).recvs = [r]) (hlen : data.length = r.len)
    (hp : s.peer src = some p) (hway : s.reachesCore (groupStation p.localGroup) n) :
    ∃ v : State, v.cores = s.cores ∧ v.hbm = s.hbm ∧ v.out = s.out ∧ v.net.gathers = [] ∧ exec (.gatherData src g data) s
      = .next (v.received n r data) := by
  obtain ⟨v, hc, hh, hout, hnet, hj, harr⟩ := State.tagArrives_of_way (s := s.dropOut o) hway r.tag data
  have hvr : (v.core n).recvs = [r] := by
    rw [State.core_of_cores (s := s) hc]
    exact hrecvs
  have hdone := v.deliverTagged_one hvr hlen
  have hm : (v.received n r data).askAllMerges = v.received n r data := State.askAllMerges_of_merges_nil fun j => by
    show (Tab.get _ v.hbm j).merges = []
    rw [hh]
    exact hmerges j
  refine ⟨v, hc, hh, hout, by simp [hnet, State.dropOut, hg], ?_⟩
  rw [← done_of_job_eq hq (show (v.received n r data).job = s.job from hj), ← hm, ← hdone, ← harr]
  show execGatherData src g data s = _
  simp [execGatherData, hr, State.gatherAnswered, hg, hsrc, hog, hk, huse, hp]

/-! ### The statement -/

/-- Settles O37: the equation of each command, and what its answer leaves alone. -/
theorem gathersAreAnswered : Obligations.GathersAreAnswered := by
  unfold Obligations.GathersAreAnswered
  intro s src g hq hroom hmerges
  refine ⟨fun st p hk hr ha hp hl hpr => ?_, fun r hk hr hpass hreg hnew => exec_gatherReq_held hq hk hr hpass hreg hnew,
    fun k r p hk hclean hreg hrk hkind hheld hready hp hl hpr hlen => ?_,
    fun o data n tag r p hr hk hg hsrc hog huse hn hrecvs htag hlen hp hway => ?_⟩
  · obtain ⟨t, hex, ht⟩ := exec_gatherReq_none hq hroom hk hr ha hp hl hpr
    obtain ⟨n, w, o, hout, ho⟩ := ht.out
    exact ⟨t, n, w, o, hex, hout, ho, ht.onNet.only⟩
  · obtain ⟨t, hex, ht⟩ := exec_gatherReqReady hq hroom hk hclean hreg hrk hkind hheld hready hp hl hpr hlen
    have hfr := s.tagServed_frame { src := src, stack := k, g := g } r
    have hst := s.stack_tagServed { src := src, stack := k, g := g } r
    rw [hrk] at hst
    have htst : t.stack k = (s.tagServed { src := src, stack := k, g := g } r).stack k := by
      rw [ht.onNet.only]
      rfl
    obtain ⟨n, w, o, hout, ho⟩ := ht.congr (s := s) (by rw [hfr])
    refine ⟨t, n, w, o, hex, ?_, ho, hout, ?_, fun i hi => ?_, ?_, ?_⟩
    · rw [ht.onNet.held, hfr, hheld]
      simp
    · rw [htst, hst]
      exact Tab.get_set_self ..
    · rw [htst, hst]
      exact Tab.get_set_other _ _ _ hi
    · rw [htst, hst]
    · rw [ht.onNet.only, hfr]
  · subst htag
    obtain ⟨v, hc, hh, hvout, hnet, hex⟩ := exec_gatherData hq hmerges hr hk hg hsrc hog huse hrecvs hlen hp hway
    have hvc : v.core n = s.core n := State.core_of_cores hc n
    obtain ⟨hnone, hact, hsbuf⟩ := v.core_received (by rw [hvc]; exact hrecvs) data
    refine ⟨_, hex, hnet, hnone, fun m hm => ?_, hh, hvout, fun hmem => ?_⟩
    · rw [v.core_received_other hm, State.core_of_cores hc]
    · have hw := CoreSt.writeMem_reads (State.wf_core hmem n) r.dmem r.daddr data
      rw [hact, hsbuf, hvc, ← hlen]
      by_cases hd : r.dmem = true
      · rw [if_pos hd] at hw ⊢
        obtain ⟨hsame, hread, -⟩ := hw
        exact ⟨hread, hsame⟩
      · rw [if_neg hd] at hw ⊢
        obtain ⟨hsame, hread, -⟩ := hw
        exact ⟨hread, hsame⟩

end Sys2Proof.Machine
end

section
/-!
The bytes of conversions (R158, R257, R283 to R287): how many there are.
-/

namespace Sys2Proof.Machine

theorem length_flatten_const {α : Type} {l : List (List α)} {k : Nat} (h : ∀ x ∈ l, x.length = k) : l.flatten.length = l.length * k := by
  rw [List.length_flatten, List.sum_eq_card_nsmul _ k (by simpa using h), List.length_map, smul_eq_mul]

theorem elemBits_cases (f : Nat) : elemBits f = 2 ∨ elemBits f = 4 ∨ elemBits f = 8 ∨ elemBits f = 16 ∨ elemBits f = 32 := by
  unfold elemBits
  split_ifs <;> simp

theorem length_packCodes (f n : Nat) (codes : List Nat) : (packCodes (elemBits f) n codes).length = ceilDiv (n * elemBits f) 8 := by
  have hcodes : ∀ k, ((upFrom 0 n).map (fun i => leBytes (codes.getD i 0) k)).flatten.length = n * k := fun k => by
    rw [length_flatten_const (k := k) (by simp), List.length_map, upFrom_length]
  have hpacked : ∀ (k : Nat) (g : Nat → Byte), ((upFrom 0 k).map g).length = k := fun k g => by rw [List.length_map, upFrom_length]
  rcases elemBits_cases f with h | h | h | h | h <;> rw [h]
  · refine (hpacked (ceilDiv n 4) _).trans ?_
    unfold ceilDiv
    omega
  · refine (hpacked (ceilDiv n 2) _).trans ?_
    unfold ceilDiv
    omega
  · refine (hpacked n _).trans ?_
    unfold ceilDiv
    omega
  · refine (hcodes 2).trans ?_
    unfold ceilDiv
    omega
  · refine (hcodes 4).trans ?_
    unfold ceilDiv
    omega

theorem isBlockForm_iff (f : Nat) : isBlockForm f = true ↔ f = 3 ∨ f = 4 ∨ f = 5 ∨ f = 7 ∨ f = 8 ∨ f = 10 := by
  simp [isBlockForm, or_assoc]

theorem length_blockBytes {f : Nat} (h : isBlockForm f = true) (b : Block) : (Block.bytes f b).length = blockBytes f := by
  unfold Block.bytes
  rw [List.length_append, List.length_append, length_packCodes]
  rcases (isBlockForm_iff f).1 h with rfl | rfl | rfl | rfl | rfl | rfl
  case inr.inr.inr.inr.inl => cases b.pen <;> rfl
  all_goals rfl

theorem length_chunks {α : Type} {n : Nat} (hn : 0 < n) (l : List α) : (chunks n l).length = ceilDiv l.length n := length_chunksF hn (Nat.le_refl _)

theorem length_zip_chunks {α : Type} (l : List α) : ((chunks 32 l).zip (upFrom 0 (ceilDiv l.length 32))).length = ceilDiv l.length 32 := by
  rw [List.length_zip, length_chunks (by omega), upFrom_length, Nat.min_self]

/-- A run of values takes whole blocks, or its packed codes. -/
theorem length_convRun (modes form : Nat) (t : Int) (rnd pen : Nat → Rnd) (l : List Word32) :
    (convRun modes form t rnd pen l).1.length
      = if isBlockForm form then ceilDiv l.length 32 * blockBytes form else ceilDiv (l.length * elemBits form) 8 := by
  unfold convRun
  by_cases h : isBlockForm form = true
  · simp only [h, if_true]
    rw [length_flatten_const (k := blockBytes form), List.length_map, List.length_map, length_zip_chunks]
    intro x hx
    obtain ⟨b, -, rfl⟩ := List.mem_map.1 hx
    exact length_blockBytes h b
  · simp only [h]
    exact length_packCodes ..

/-- A row of 128 values. -/
theorem length_convRun_row (modes form : Nat) (t : Int) (rnd pen : Nat → Rnd) {l : List Word32} (hl : l.length = 128) :
    (convRun modes form t rnd pen l).1.length = rowBytes form := by
  rw [length_convRun, rowBytes, hl]
  have := elemBits_cases form
  split
  · rfl
  · unfold ceilDiv
    omega

/-- A column of an image has room for the values that K_T admits. -/
theorem length_convRun_le (modes form : Nat) (t : Int) (rnd pen : Nat → Rnd) {l : List Word32} (hl : l.length ≤ kT form) :
    (convRun modes form t rnd pen l).1.length ≤ columnBytes form := by
  have hk : kT form = 128 ∨ kT form = 256 := by unfold kT; split <;> simp
  rw [length_convRun, columnBytes]
  split
  · refine Nat.mul_le_mul_right _ ?_
    unfold ceilDiv
    omega
  · have := elemBits_cases form
    unfold ceilDiv
    rcases this with h | h | h | h | h <;> rw [h] <;> omega

theorem length_zeroColumn (form : Nat) : (zeroColumn form).length = columnBytes form := by
  unfold zeroColumn columnBytes
  by_cases h : isBlockForm form = true
  · simp only [h, if_true]
    rw [length_flatten_const (k := blockBytes form), List.length_map, List.length_replicate]
    intro x hx
    obtain ⟨b, -, rfl⟩ := List.mem_map.1 hx
    exact length_blockBytes h b
  · simp only [h]
    exact zeros_length _

theorem length_vquantCol (modes : Nat) (r : LaneRnd) (t : Int) {form : Nat} (j : Nat) {l : List Word32} (hl : l.length ≤ kT form) :
    (vquantCol modes r t form j l).1.length = columnBytes form := by
  have h := length_convRun_le modes form t (fun m => r.at j (colOrd form m) m 0) (fun b => r.at j (33 * b + 1) (32 * b) 1) hl
  simp only [vquantCol, List.length_append, List.length_drop, length_zeroColumn]
  omega

theorem length_wordBytes (l : List Word32) : (wordBytes l).length = l.length * 4 := by
  unfold wordBytes
  rw [length_flatten_const (k := 4) (by simp), List.length_map]

theorem length_readRow (modes : Nat) (c : CoreSt) (f : SrcF) (m : Nat) : (readRow modes c f m).1.length = 128 := by
  unfold readRow
  split_ifs <;> simp

theorem length_readRows (modes : Nat) (c : CoreSt) (f : SrcF) (m : Nat) : (readRows modes c f m).1.length = m := by simp [readRows]

theorem length_vopRow (modes : Nat) (r : LaneRnd) (c : CoreSt) (f : VopF) (m : Nat) :
    (vopRow modes r c f m).1.length = if f.bf16 then 256 else 512 := by
  unfold vopRow
  cases h : f.bf16
  · simp only [Bool.false_eq_true, if_false, length_wordBytes, List.length_map, upFrom_length]
  · simp only [if_true]
    rw [length_flatten_const (k := 2)]
    · simp
    · intro x hx
      obtain ⟨y, -, rfl⟩ := List.mem_map.1 hx
      exact leBytes_length ..

theorem length_vredBytes (modes : Nat) (c : CoreSt) (f : VredF) : (vredBytes modes c f).1.length = if f.axis then 512 else 4 * f.m := by
  unfold vredBytes
  cases h : f.axis
  · simp only [Bool.false_eq_true, if_false, length_wordBytes, List.length_map, length_readRows, Nat.mul_comm]
  · simp only [if_true, length_wordBytes, List.length_map, upFrom_length]

theorem length_vquantRow (modes : Nat) (r : LaneRnd) (c : CoreSt) (f : VquantF) (m : Nat) :
    (vquantRow modes r c f m).1.length = rowBytes f.form := length_convRun_row _ _ _ _ _ (length_readRow ..)

theorem length_vrandRow (r : LaneRnd) (p m : Nat) : (vrandRow r p m).length = 16 := by simp [vrandRow]

/-- The runs of a destination row of a VTSTORE lie inside it (R286). -/
theorem vtstoreRow_inside (modes : Nat) (r : LaneRnd) {f : VtstoreF} (i : Nat) {l : List Word32} (hl : l.length = f.m)
    (hf : f.form = 0 ∨ f.form = 3 ∨ f.form = 4 ∨ f.form = 11) {o : Nat} {b : List Byte} (hb : (o, b) ∈ (vtstoreRow modes r f i l).1) :
    o + b.length ≤ f.rowLen := by
  unfold vtstoreRow at hb
  unfold VtstoreF.rowLen
  by_cases h11 : f.form = 11
  · simp only [h11, if_true, List.mem_singleton, Prod.mk.injEq] at hb
    obtain ⟨rfl, rfl⟩ := hb
    simp only [h11, length_wordBytes, hl, if_true, if_false, show ¬(11 : Nat) = 0 by decide]
    omega
  by_cases h0 : f.form = 0
  · rw [if_neg h11, if_pos h0] at hb
    simp only [List.mem_singleton, Prod.mk.injEq] at hb
    obtain ⟨rfl, rfl⟩ := hb
    rw [length_convRun, hl, if_pos h0]
    show 0 + (f.m * 16 + 8 - 1) / 8 ≤ 2 * f.m
    omega
  · have hblock : isBlockForm f.form = true := (isBlockForm_iff _).2 (by omega)
    simp only [h11, h0, if_false, List.map_map, List.mem_flatten, List.mem_map] at hb ⊢
    obtain ⟨runs, ⟨p, hp, rfl⟩, hb⟩ := hb
    obtain ⟨hchunk, hk⟩ := List.of_mem_zip hp
    have hlen := length_le_of_mem_chunksF hchunk
    rw [mem_upFrom, hl] at hk
    simp only [Function.comp] at hb
    simp only [List.mem_cons, Prod.mk.injEq, List.not_mem_nil, or_false] at hb
    rcases hb with ⟨rfl, rfl⟩ | ⟨rfl, rfl⟩
    · rw [List.length_take]
      omega
    · rw [List.length_singleton]
      omega

end Sys2Proof.Machine
end

section
/-!
The vector unit's writes (R278 to R287): the results stand in a range of the activation store, and nothing else of it changes.
-/

namespace Sys2Proof.Machine

/-! ### What an operation's rows may do -/

/-- Of a core whose memories hold no error, rows of a vector operation have written a range of the activation store, and counted
conversions. -/
structure CoreSt.Wrote (c e : CoreSt) (d len : Nat) : Prop where
  frame : e = { c with act := e.act, scales := e.scales, flush := e.flush, qsat := e.qsat, qnonfinite := e.qnonfinite }
  clean : e.sramErr = []
  wf : Memory.wf e.act = true
  outside : Memory.sameOutside c.act e.act d len

namespace CoreSt.Wrote

variable {c e e' : CoreSt} {d len : Nat}

theorem refl (hs : c.sramErr = []) (hw : Memory.wf c.act = true) (d len : Nat) : c.Wrote c d len := ⟨rfl, hs, hw, fun _ _ => rfl⟩

/-- What counts and flags of a conversion change besides. -/
theorem counted (h : c.Wrote e d len)
    (he : e' = { e with scales := e'.scales, flush := e'.flush, qsat := e'.qsat, qnonfinite := e'.qnonfinite }) : c.Wrote e' d len := by
  obtain ⟨hf, hs, hw, ho⟩ := h
  rw [he]
  exact ⟨by rw [hf], hs, hw, ho⟩

theorem addFlush (h : c.Wrote e d len) (m : Flushes) : c.Wrote (e.addFlush m) d len := h.counted rfl

theorem addConv (h : c.Wrote e d len) (k : ConvCount) : c.Wrote (e.addConv k) d len := h.counted rfl

theorem noteAmax (h : c.Wrote e d len) (form tent : Nat) (l : List Word32) : c.Wrote (e.noteAmax form tent l) d len := h.counted rfl

theorem writeAct (h : c.Wrote e d len) {a : Nat} {l : List Byte} (ha : d ≤ a) (hl : a + l.length ≤ d + len) : c.Wrote (e.writeAct a l) d len := by
  obtain ⟨hf, hs, hw, ho⟩ := h
  have hclean : (e.writeAct a l).sramErr = [] := by simp only [CoreSt.writeAct, CoreSt.renewSram, hs, List.filter_nil]
  refine ⟨?_, hclean, Memory.wf_writeN hw a l, fun b hb => ?_⟩
  · have he : e.writeAct a l = { e with act := (e.writeAct a l).act } := by
      simp only [CoreSt.writeAct, CoreSt.renewSram, hs, List.filter_nil]
    rw [he, hf]
  · exact (Memory.read_writeN_outside hw l (by omega)).trans (ho b hb)

end CoreSt.Wrote

theorem CoreSt.act_writeAct (c : CoreSt) (a : Nat) (l : List Byte) : (c.writeAct a l).act = Memory.writeN c.act a l := rfl

/-! ### The rows of each operation -/

section

variable {c e : CoreSt} {d len : Nat}

/-- Row m of `k` rows lies among them. -/
theorem rowEnd_le {m k size : Nat} (h : m < k) : m * size + size ≤ k * size := by
  rw [← Nat.succ_mul]
  exact Nat.mul_le_mul_right _ h

theorem CoreSt.Wrote.vopRows {modes : Nat} {r : LaneRnd} {f : VopF} {k : Nat} {l : List Nat}
    (h : c.Wrote e f.d (k * (if f.bf16 then 256 else 512))) (hl : ∀ m ∈ l, m < k) :
    c.Wrote (vopRows modes r f l e) f.d (k * (if f.bf16 then 256 else 512)) := by
  induction l generalizing e with
  | nil => exact h
  | cons m l ih =>
    have hm := rowEnd_le (size := if f.bf16 then 256 else 512) (hl m List.mem_cons_self)
    exact ih (((h.writeAct (by omega) (by rw [length_vopRow]; omega)).addFlush _).addConv _) fun x hx => hl x (List.mem_cons_of_mem _ hx)

theorem VquantF.row_inside {f : VquantF} (hi : f.image = false) {m : Nat} (hm : m < f.m) : m * f.pitch + rowBytes f.form ≤ f.extent := by
  have h := Nat.mul_le_mul_right f.pitch (Nat.le_sub_one_of_lt hm)
  have h0 : f.m ≠ 0 := by omega
  simp only [VquantF.extent, h0, hi, Bool.false_eq_true, if_false]
  omega

theorem CoreSt.Wrote.vquantRows {modes : Nat} {r : LaneRnd} {f : VquantF} {l : List Nat} (hi : f.image = false)
    (h : c.Wrote e f.d f.extent) (hl : ∀ m ∈ l, m < f.m) : c.Wrote (vquantRows modes r f l e) f.d f.extent := by
  induction l generalizing e with
  | nil => exact h
  | cons m l ih =>
    have hm := VquantF.row_inside hi (hl m List.mem_cons_self)
    have hrow := ((h.writeAct (a := f.d + m * f.pitch) (l := (vquantRow modes r e f m).1) (by omega)
      (by rw [length_vquantRow]; omega)).addFlush (vquantRow modes r e f m).2.1).addConv (vquantRow modes r e f m).2.2.1
    unfold Machine.vquantRows
    refine ih ?_ fun x hx => hl x (List.mem_cons_of_mem _ hx)
    split
    · exact hrow.noteAmax ..
    · exact hrow

theorem CoreSt.Wrote.vquantImage {modes : Nat} {r : LaneRnd} {f : VquantF} (hi : f.image = true) (h0 : f.m ≠ 0) (hk : f.m ≤ kT f.form)
    (h : c.Wrote e f.d f.extent) : c.Wrote (vquantImage modes r e f) f.d f.extent := by
  have hx : f.extent = 128 * columnBytes f.form := by simp only [VquantF.extent, h0, hi, if_true, if_false]
  unfold Machine.vquantImage
  have hlen : (((upFrom 0 128).map (fun j => vquantCol modes r (tensorExp e f.form f.tent) f.form j
      ((readRows modes e f.src f.m).1.map (fun row => row.getD j 0)))).map (fun p => p.1)).flatten.length = f.extent := by
    rw [length_flatten_const (k := columnBytes f.form), List.length_map, List.length_map, upFrom_length, hx]
    intro x hx
    obtain ⟨y, hy, rfl⟩ := List.mem_map.1 hx
    obtain ⟨j, -, rfl⟩ := List.mem_map.1 hy
    exact length_vquantCol _ _ _ _ (by rw [List.length_map, length_readRows]; exact hk)
  have hwr := h.writeAct (a := f.d) (by omega) (by rw [hlen])
  dsimp only
  split
  · exact ((hwr.addFlush _).addConv _).noteAmax ..
  · exact (hwr.addFlush _).addConv _

theorem CoreSt.Wrote.writeRuns {a : Nat} {l : List (Nat × List Byte)} (h : c.Wrote e d len)
    (hl : ∀ x ∈ l, d ≤ a + x.1 ∧ a + x.1 + x.2.length ≤ d + len) : c.Wrote (writeRuns a l e) d len := by
  induction l generalizing e with
  | nil => exact h
  | cons x l ih =>
    obtain ⟨ha, hb⟩ := hl x List.mem_cons_self
    exact ih (h.writeAct ha hb) fun y hy => hl y (List.mem_cons_of_mem _ hy)

theorem CoreSt.Wrote.vtstoreRows {modes : Nat} {r : LaneRnd} {f : VtstoreF} {rows : List (List Word32)} {l : List Nat}
    (hf : f.form = 0 ∨ f.form = 3 ∨ f.form = 4 ∨ f.form = 11) (hrows : rows.length = f.m)
    (h : c.Wrote e f.d (127 * (4 * f.dpitch) + f.rowLen)) (hl : ∀ i ∈ l, i < 128) :
    c.Wrote (vtstoreRows modes r f rows l e) f.d (127 * (4 * f.dpitch) + f.rowLen) := by
  induction l generalizing e with
  | nil => exact h
  | cons i l ih =>
    have hi := Nat.mul_le_mul_right (4 * f.dpitch) (Nat.le_sub_one_of_lt (hl i List.mem_cons_self))
    refine ih ((h.writeRuns fun x hx => ?_).addConv _) fun y hy => hl y (List.mem_cons_of_mem _ hy)
    have hin := vtstoreRow_inside modes r i (by rw [List.length_map]; exact hrows) hf hx
    omega

theorem CoreSt.Wrote.vrandRows {r : LaneRnd} {f : VrandF} {l : List Nat} (h : c.Wrote e f.d (16 * f.m)) (hl : ∀ m ∈ l, m < f.m) :
    c.Wrote (vrandRows r f l e) f.d (16 * f.m) := by
  induction l generalizing e with
  | nil => exact h
  | cons m l ih =>
    have hm := hl m List.mem_cons_self
    exact ih (h.writeAct (by omega) (by rw [length_vrandRow]; omega)) fun x hx => hl x (List.mem_cons_of_mem _ hx)

end

/-! ### Values -/

section

variable {c : CoreSt} (hw : Memory.wf c.act = true)
include hw

/-- Bytes that an operation writes read back. -/
theorem CoreSt.readN_writeAct {a len : Nat} {l : List Byte} (hl : l.length = len) : Memory.readN (c.writeAct a l).act a len = l := by
  subst hl
  exact Memory.readN_writeN hw a l

/-- Mask rows that a VRAND does not write stay. -/
theorem readN_vrandRows_other {r : LaneRnd} {f : VrandF} {l : List Nat} {m : Nat} (hm : m ∉ l) :
    Memory.readN (vrandRows r f l c).act (f.d + 16 * m) 16 = Memory.readN c.act (f.d + 16 * m) 16 := by
  induction l generalizing c with
  | nil => rfl
  | cons x l ih =>
    rw [List.mem_cons, not_or] at hm
    obtain ⟨hx, hl⟩ := hm
    rw [vrandRows, ih (c := c.writeAct (f.d + 16 * x) (vrandRow r f.p x)) (Memory.wf_writeN hw _ _) hl, CoreSt.act_writeAct,
      Memory.readN_writeN_outside hw]
    rw [length_vrandRow]
    omega

/-- Each mask row holds its bits. -/
theorem readN_vrandRows {r : LaneRnd} {f : VrandF} {l : List Nat} (hn : l.Nodup) {m : Nat} (hm : m ∈ l) :
    Memory.readN (vrandRows r f l c).act (f.d + 16 * m) 16 = vrandRow r f.p m := by
  induction l generalizing c with
  | nil => exact absurd hm List.not_mem_nil
  | cons x l ih =>
    obtain ⟨hx, hl⟩ := List.nodup_cons.1 hn
    have hwx : Memory.wf (c.writeAct (f.d + 16 * x) (vrandRow r f.p x)).act = true := Memory.wf_writeN hw _ _
    rw [vrandRows]
    rcases List.mem_cons.1 hm with rfl | hml
    · rw [readN_vrandRows_other hwx hx]
      exact CoreSt.readN_writeAct hw (length_vrandRow ..)
    · exact ih hwx hl hml

end

/-- One row after others. -/
theorem vtstoreRows_concat (modes : Nat) (r : LaneRnd) (f : VtstoreF) (rows : List (List Word32)) (l : List Nat) (i : Nat) (c : CoreSt) :
    vtstoreRows modes r f rows (l ++ [i]) c = vtstoreRows modes r f rows [i] (vtstoreRows modes r f rows l c) := by
  induction l generalizing c with
  | nil => rfl
  | cons j l ih => exact ih _

/-- An FP32 row of a VTSTORE. -/
theorem act_vtstoreRows_fp32 {modes : Nat} {r : LaneRnd} {f : VtstoreF} (hf : f.form = 11) (rows : List (List Word32)) (i : Nat) (c : CoreSt) :
    (vtstoreRows modes r f rows [i] c).act
      = Memory.writeN c.act (f.d + i * (4 * f.dpitch)) (wordBytes (rows.map (fun row => row.getD i 0))) := by
  simp only [vtstoreRows, vtstoreRow, hf, if_true, writeRuns, Nat.add_zero]
  rfl

/-- Column 127 stands in the last row of an FP32 VTSTORE. -/
theorem readN_vtstoreRows_last {c e : CoreSt} {d len modes : Nat} {r : LaneRnd} {f : VtstoreF} (hf : f.form = 11) {rows : List (List Word32)}
    (hrows : rows.length = f.m) (h : c.Wrote (vtstoreRows modes r f rows (upFrom 0 127) e) d len) :
    Memory.readN (vtstoreRows modes r f rows (upFrom 0 128) e).act (f.d + 127 * (4 * f.dpitch)) (4 * f.m)
      = wordBytes (rows.map (fun row => row.getD 127 0)) := by
  have hlen : (wordBytes (rows.map (fun row => row.getD 127 0))).length = 4 * f.m := by
    rw [length_wordBytes, List.length_map, hrows, Nat.mul_comm]
  rw [show upFrom 0 128 = upFrom 0 127 ++ [127] from rfl, vtstoreRows_concat, act_vtstoreRows_fp32 hf, ← hlen]
  exact Memory.readN_writeN h.wf _ _

end Sys2Proof.Machine
end

section
/-!
Vector instructions at issue (R244, R250, R278 to R287).
-/

namespace Sys2Proof.Machine

/-! ### The core whose rows an operation reads -/

/-- Of a core, nothing has changed but what issue, counters and corrected accumulator rows change. -/
def CoreSt.vectorStart (c b : CoreSt) : Prop :=
  b = { c with vq := b.vq, pq := b.pq, pen := b.pen, plotPen := b.plotPen, issueSeq := b.issueSeq, counters := b.counters
               wrapped := b.wrapped, accCorrected := b.accCorrected }

namespace CoreSt.vectorStart

variable {c b : CoreSt} (h : c.vectorStart b)
include h

theorem act : b.act = c.act := by rw [h]

theorem clean (hs : c.sramErr = []) : b.sramErr = [] := by rw [h]; exact hs

theorem srcScan (f : SrcF) (m : Nat) : srcScan b f m = srcScan c f m := by rw [h]; rfl

theorem readRow (modes : Nat) (f : SrcF) (m : Nat) : readRow modes b f m = readRow modes c f m := by rw [h]; rfl

theorem readRows (modes : Nat) (f : SrcF) (m : Nat) : readRows modes b f m = readRows modes c f m := by
  have hr : Machine.readRow modes b f = Machine.readRow modes c f := funext (h.readRow modes f)
  simp only [Machine.readRows, hr]

theorem vopB (modes : Nat) (f : VopF) (m : Nat) : vopB modes b f m = vopB modes c f m := by rw [h]; rfl

theorem maskBit (f : VopF) (m j : Nat) : maskBit b f m j = maskBit c f m j := by rw [h]; rfl

theorem tensorExp (form tent : Nat) : tensorExp b form tent = tensorExp c form tent := by rw [h]; rfl

theorem vredBytes (modes : Nat) (f : VredF) : vredBytes modes b f = vredBytes modes c f := by
  simp only [Machine.vredBytes, h.readRows]

end CoreSt.vectorStart

/-! ### What is counted on the way (R756) -/

/-- Nothing has changed but counters of one core. -/
structure State.Ticked (s t : State) (n : Nat) : Prop where
  only : s.onlyCore t n
  core : t.core n = { s.core n with counters := (t.core n).counters, wrapped := (t.core n).wrapped }

namespace State.Ticked

variable {s t u : State} {n : Nat}

theorem refl (s : State) (n : Nat) : s.Ticked s n := ⟨s.onlyCore_refl n, rfl⟩

theorem trans (h : s.Ticked t n) (g : t.Ticked u n) : s.Ticked u n := by
  refine ⟨h.only.trans g.only, ?_⟩
  rw [g.core, h.core]

end State.Ticked

theorem State.ticked_count {n : Nat} (s : State) (hn : n < numCores) (ev q v c : Nat) : s.Ticked (s.count n ev q v c) n :=
  ⟨(s.onlyCore_refl n).count hn ev q v c, by rw [State.count_core hn, State.core_updCore]⟩

theorem State.ticked_drew {n : Nat} (s : State) (hn : n < numCores) (r : LaneRnd) (lanes roundings rows : Nat) :
    s.Ticked (s.drew n r lanes roundings rows) n := by
  unfold State.drew
  split
  · exact .refl s n
  · exact s.ticked_count hn _ _ _ _

theorem State.ticked_vquantWords {n : Nat} (s : State) (hn : n < numCores) (r : LaneRnd) (f : VquantF) (k : Nat) :
    s.Ticked (s.vquantWords n r f k) n := by
  unfold State.vquantWords
  split_ifs
  · exact .refl s n
  · exact s.ticked_drew hn ..
  · exact (s.ticked_drew hn ..).trans (State.ticked_drew _ hn ..)
  · exact s.ticked_drew hn ..

/-! ### An operation with rows that can be read -/

/-- A vector operation has come to its end: `b` is the core at its first row, and `e` that after its last. -/
structure State.VectorDone (s t : State) (n : Nat) (q : QName) (key : Nat) (c b e : CoreSt) : Prop where
  only : s.onlyCore t n
  start : b = { c with counters := b.counters, wrapped := b.wrapped, accCorrected := b.accCorrected }
  core : t.core n = { e.setQueue q ((e.queue q).finish (fun _ => true) key) with
    counters := (t.core n).counters, wrapped := (t.core n).wrapped }

theorem State.vectorDone_vectorOp {s : State} {n : Nat} {q : QName} {w : InstrWord} {key : Nat} {src : SrcF} {m : Nat}
    {words : Nat → State → State} {f : Nat → CoreSt → CoreSt} {c : CoreSt} (hn : n < numCores) (hm : m ≠ 0)
    (hc : (s.enqueueOp n q w key false).core n = c) (hscan : (srcScan c src m).2 = none) (hwords : ∀ u : State, u.Ticked (words m u) n) :
    ∃ b, s.VectorDone (s.vectorOp n q w key src m words f) n q key c b (f m b) := by
  obtain ⟨u, hu⟩ : ∃ u, (if src.acc then (s.enqueueOp n q w key false).count n evACC_READS 0 1 m else s.enqueueOp n q w key false) = u :=
    ⟨_, rfl⟩
  have htick : (s.enqueueOp n q w key false).Ticked u n := by
    rw [← hu]
    split
    · exact State.ticked_count _ hn _ _ _ _
    · exact .refl _ _
  have hcore : u.core n = { c with counters := (u.core n).counters, wrapped := (u.core n).wrapped } := by rw [← hc]; exact htick.core
  have hscan' : (srcScan (u.core n) src m).2 = none := by rw [hcore]; exact hscan
  obtain ⟨b, hb⟩ : ∃ b, (u.core n).addCorrected (srcScan (u.core n) src m).1 = b := ⟨_, rfl⟩
  obtain ⟨x, hx⟩ : ∃ x, (u.updCore n (fun c => c.addCorrected (srcScan (u.core n) src m).1)).updCore n (f m) = x := ⟨_, rfl⟩
  have heq : s.vectorOp n q w key src m words f = (words m x).finishOp n q key := by
    simp only [State.vectorOp, hm, if_false, hu, hscan', hx]
  have hxc : x.core n = f m b := by rw [← hx, State.core_updCore, State.core_updCore, hb]
  have hwc := (hwords x).core
  refine ⟨b, ?_, ?_, ?_⟩
  · have hxo : s.onlyCore x n := hx ▸ (((((s.onlyCore_refl n).enqueueOp _ _ _ _).trans htick.only).updCore _).updCore _)
    rw [heq]
    exact (hxo.trans (hwords x).only).updCore _
  · rw [← hb, CoreSt.addCorrected, hcore]
  · rw [heq, State.core_finishOp, hwc, hxc]
    cases q <;> rfl

/-- The queue of an operation that has come to its end holds it finished, and the rest of the core is as the operation's rows left it. -/
theorem State.VectorDone.queue {s t : State} {n : Nat} {q : QName} {key : Nat} {c b e : CoreSt} {d len : Nat} (h : s.VectorDone t n q key c b e)
    (hw : b.Wrote e d len) (p : QName) : (t.core n).queue p = (c.setQueue q ((c.queue q).finish (fun _ => true) key)).queue p := by
  rw [h.core, hw.frame, h.start]
  cases q <;> cases p <;> rfl

theorem State.VectorDone.act {s t : State} {n : Nat} {q : QName} {key : Nat} {c b e : CoreSt} (h : s.VectorDone t n q key c b e) :
    (t.core n).act = e.act := by
  rw [h.core]
  cases q <;> rfl

/-- A Plotter instruction that can issue has its effect, whether or not it draws. -/
theorem issue_plotter_draws {s : State} {n op : Nat} {draws : InstrWord → Bool} {eff : State → InstrWord → Nat → State} (hqu : s.quiet)
    (h : s.plotReady n op) (hop : op ∈ plotterOpcodes) (hc : noTrap (s.causes n .plotter (s.atFront n .plotter)))
    (hr : s.ordered n .plotter (s.atFront n .plotter) = true)
    (hj : (eff (s.issued n .plotter (s.atFront n .plotter) (draws (s.atFront n .plotter))) (s.atFront n .plotter) (s.core n).issueSeq).job = s.job) :
    issue s n .plotter op draws eff
      = .next (eff (s.issued n .plotter (s.atFront n .plotter) (draws (s.atFront n .plotter))) (s.atFront n .plotter) (s.core n).issueSeq) := by
  have hfront := State.front_plotter h hop hc hr
  obtain ⟨hn, -, -, -, -, -, -, -, -, hsram⟩ := h
  simp only [issue, withCore, hn, if_true, hfront, hsram, State.sramRead, List.isEmpty_nil]
  exact done_of_job_eq hqu hj

section

variable {s : State} {n op : Nat} {draws : InstrWord → Bool} {eff : State → InstrWord → Nat → State} {src : SrcF} {m d len : Nat}
  {words : Nat → State → State} {f : Nat → CoreSt → CoreSt}

/-- An operation of the Vector queue, from issue to its end. -/
theorem State.ready.vectorOp (h : s.ready n .vector op) (hqu : s.quiet) (hmem : s.memOk) (hctl : isControl op = false)
    (hc : noTrap (s.causes n .vector (s.atFront n .vector))) (hr : s.ordered n .vector (s.atFront n .vector) = true)
    (he : eff (s.issued n .vector (s.atFront n .vector) (draws (s.atFront n .vector))) (s.atFront n .vector) (s.core n).issueSeq
      = (s.issued n .vector (s.atFront n .vector) (draws (s.atFront n .vector))).vectorOp n .vector (s.atFront n .vector) (s.core n).issueSeq
          src m words f)
    (hm : m ≠ 0) (hscan : (srcScan (s.core n) src m).2 = none) (hwords : ∀ u : State, u.Ticked (words m u) n)
    (hf : ∀ b : CoreSt, b.Wrote b d len → b.Wrote (f m b) d len) :
    ∃ t b, issue s n .vector op draws eff = .next t ∧ s.onlyCore t n ∧ s.tookOp t n .vector true ∧ (s.core n).vectorFrame (t.core n)
      ∧ Memory.sameOutside (s.core n).act (t.core n).act d len ∧ (s.core n).vectorStart b ∧ b.Wrote b d len
      ∧ (t.core n).act = (f m b).act := by
  obtain ⟨c, hcore, hfr, took⟩ := h.enqueued hctl (draws (s.atFront n .vector)) false
  obtain ⟨-, -, -, -, -, -, -, -, hs⟩ := id h
  obtain ⟨b, hdone⟩ := State.vectorDone_vectorOp (words := words) (f := f) h.lt hm hcore
    (by unfold CoreSt.queueFrame at hfr; rw [hfr]; exact hscan) hwords
  rw [← he] at hdone
  have ho := (State.onlyCore_issued h.lt _ _ _).trans hdone.only
  have hex := issue_next hqu h hc hr ho.job
  revert ho hex hdone
  generalize eff _ _ _ = t
  intro hdone ho hex
  have hstart : (s.core n).vectorStart b := by
    unfold CoreSt.vectorStart
    rw [hdone.start, hfr]
    rfl
  have hb : b.Wrote b d len := .refl (hstart.clean hs) (by rw [hstart.act]; exact (State.wf_core hmem n).1) _ _
  have hw := hf b hb
  have hact := hdone.act
  revert hw hact hdone
  generalize hfb : f m b = e
  intro hdone hw hact
  refine ⟨t, b, hex, ho, took.finish (fun _ => true) rfl hcore rfl (hdone.queue hw) ?_ ?_, ?_, ?_, hstart, hb, hact.trans (by rw [hfb])⟩
  · rw [hdone.core, hw.frame, hdone.start]
    rfl
  · rw [hdone.core, hw.frame, hdone.start]
    rfl
  · unfold CoreSt.vectorFrame
    rw [hdone.core, hw.frame, hdone.start, hfr]
    rfl
  · rw [hact, ← hstart.act]
    exact hw.outside

/-- An operation of the Plotter queue, from issue to its end (R250). -/
theorem State.plotReady.vectorOp (h : s.plotReady n op) (hqu : s.quiet) (hmem : s.memOk) (hop : op ∈ plotterOpcodes)
    (hc : noTrap (s.causes n .plotter (s.atFront n .plotter))) (hr : s.ordered n .plotter (s.atFront n .plotter) = true)
    (he : eff (s.issued n .plotter (s.atFront n .plotter) (draws (s.atFront n .plotter))) (s.atFront n .plotter) (s.core n).issueSeq
      = (s.issued n .plotter (s.atFront n .plotter) (draws (s.atFront n .plotter))).vectorOp n .plotter (s.atFront n .plotter)
          (s.core n).issueSeq src m words f)
    (hm : m ≠ 0) (hscan : (srcScan (s.core n) src m).2 = none) (hwords : ∀ u : State, u.Ticked (words m u) n)
    (hf : ∀ b : CoreSt, b.Wrote b d len → b.Wrote (f m b) d len) :
    ∃ t b, issue s n .plotter op draws eff = .next t ∧ s.onlyCore t n
      ∧ ((t.core n).queue .plotter).pc = ((s.core n).queue .plotter).pc + 1
      ∧ (s.core n).vectorFrame { t.core n with pq := (s.core n).pq, plotPen := (s.core n).plotPen }
      ∧ Memory.sameOutside (s.core n).act (t.core n).act d len ∧ (s.core n).vectorStart b ∧ b.Wrote b d len
      ∧ (t.core n).act = (f m b).act := by
  obtain ⟨c, hcore⟩ : ∃ c, ((s.issued n .plotter (s.atFront n .plotter) (draws (s.atFront n .plotter))).enqueueOp n .plotter
    (s.atFront n .plotter) (s.core n).issueSeq false).core n = c := ⟨_, rfl⟩
  have hfr : (s.core n).plotFrame c := hcore ▸ State.plotFrame_enqueued h.lt _ _ _ _ _
  have hpc : (c.queue .plotter).pc = _ := hcore ▸ State.pc_enqueued h.lt .plotter _ _ _ _ _
  obtain ⟨-, -, -, -, -, -, -, -, -, hs⟩ := id h
  obtain ⟨b, hdone⟩ := State.vectorDone_vectorOp (words := words) (f := f) h.lt hm hcore
    (by unfold CoreSt.plotFrame at hfr; rw [hfr]; exact hscan) hwords
  rw [← he] at hdone
  have ho := (State.onlyCore_issued h.lt _ _ _).trans hdone.only
  have hex := issue_plotter_draws hqu h hop hc hr ho.job
  revert ho hex hdone
  generalize eff _ _ _ = t
  intro hdone ho hex
  have hstart : (s.core n).vectorStart b := by
    unfold CoreSt.vectorStart
    rw [hdone.start, hfr]
  have hb : b.Wrote b d len := .refl (hstart.clean hs) (by rw [hstart.act]; exact (State.wf_core hmem n).1) _ _
  have hw := hf b hb
  have hact := hdone.act
  revert hw hact hdone
  generalize hfb : f m b = e
  intro hdone hw hact
  refine ⟨t, b, hex, ho, ?_, ?_, ?_, hstart, hb, hact.trans (by rw [hfb])⟩
  · rw [hdone.queue hw]
    exact hpc
  · unfold CoreSt.vectorFrame
    rw [hdone.core, hw.frame, hdone.start, hfr]
    rfl
  · rw [hact, ← hstart.act]
    exact hw.outside

end

end Sys2Proof.Machine
end

section
/-!
VOP, VRED, VQUANT, VTSTORE and VRAND (R250, R278 to R287): what each does once it has issued.
-/

namespace Sys2Proof.Machine

/-! ### The five operations -/

/-- The rows of a VOP. -/
def State.startVop (t : State) (n : Nat) (q : QName) (w : InstrWord) (key : Nat) : State :=
  t.vectorOp n q w key (vopF w).src (vopF w).m (fun k u => if (vopF w).bf16 then u.drew n (t.laneRnd n q (vopF w).rmode 0) 128 k k else u)
    (fun k => vopRows t.fmt.subnormal (t.laneRnd n q (vopF w).rmode 0) (vopF w) (upFrom 0 k))

/-- What a VRED writes of its first rows: one axis gives nothing before the last. -/
def vredWrites (modes : Nat) (f : VredF) (k : Nat) (c : CoreSt) : CoreSt :=
  if f.axis && k < f.m then c
  else
    let x := vredBytes modes c { f with m := k }
    (c.writeAct f.d x.1).addFlush x.2

def State.startVred (t : State) (n : Nat) (q : QName) (w : InstrWord) (key : Nat) : State :=
  t.vectorOp n q w key (vredF w).src (vredF w).m (fun _ u => u) (vredWrites t.fmt.subnormal (vredF w))

/-- What a VQUANT writes of its first rows: an image is converted from all of them. -/
def vquantWrites (modes : Nat) (r : LaneRnd) (f : VquantF) (k : Nat) (c : CoreSt) : CoreSt :=
  if f.image then (if k < f.m then c else vquantImage modes r c f) else vquantRows modes r f (upFrom 0 k) c

def State.startVquant (t : State) (n : Nat) (q : QName) (w : InstrWord) (key : Nat) : State :=
  t.vectorOp n q w key (vquantF w).src (vquantF w).m
    (fun k u => u.vquantWords n (t.laneRnd n q (vquantF w).rmode (vquantF w).rbits) (vquantF w) k)
    (vquantWrites t.fmt.subnormal (t.laneRnd n q (vquantF w).rmode (vquantF w).rbits) (vquantF w))

/-- What a VTSTORE writes of its first rows: nothing before the last. -/
def vtstoreWrites (modes : Nat) (r : LaneRnd) (f : VtstoreF) (k : Nat) (c : CoreSt) : CoreSt :=
  if k < f.m then c
  else
    let a := readRows modes c f.src f.m
    (vtstoreRows modes r f a.1 (upFrom 0 128) c).addFlush a.2

def State.startVtstore (t : State) (n : Nat) (q : QName) (w : InstrWord) (key : Nat) : State :=
  t.vectorOp n q w key (vtstoreF w).src (vtstoreF w).m
    (fun k u => if k < (vtstoreF w).m || (vtstoreF w).form = 11 then u
      else u.drew n (t.laneRnd n q (vtstoreF w).rmode (vtstoreF w).rbits) 128 k k)
    (vtstoreWrites t.fmt.subnormal (t.laneRnd n q (vtstoreF w).rmode (vtstoreF w).rbits) (vtstoreF w))

/-- The mask rows of a VRAND. -/
def State.startVrand (t : State) (n : Nat) (q : QName) (w : InstrWord) (key : Nat) : State :=
  t.vectorOp n q w key { acc := false, addr := 0, rfmt := 0, dsc := 0 } (vrandF w).m (fun k u => u.drew n (t.laneRnd n q 2 3) 128 k k)
    (fun k => vrandRows (t.laneRnd n q 2 3) (vrandF w) (upFrom 0 k))

theorem exec_vop (n : Nat) (q : QName) (s : State) :
    exec (.vop n q) s = issue s n q 0x30 (fun w => (vopF w).rmode = 2) (fun t w k => t.startVop n q w k) := rfl

theorem exec_vred (n : Nat) (q : QName) (s : State) :
    exec (.vred n q) s = issue s n q 0x31 never (fun t w k => t.startVred n q w k) := rfl

theorem exec_vquant (n : Nat) (q : QName) (s : State) :
    exec (.vquant n q) s = issue s n q 0x32 (fun w => (vquantF w).rmode = 2) (fun t w k => t.startVquant n q w k) := rfl

theorem exec_vtstore (n : Nat) (q : QName) (s : State) :
    exec (.vtstore n q) s = issue s n q 0x33 (fun w => (vtstoreF w).rmode = 2) (fun t w k => t.startVtstore n q w k) := rfl

theorem exec_vrand (n : Nat) (q : QName) (s : State) :
    exec (.vrand n q) s = issue s n q 0x34 (fun _ => true) (fun t w k => t.startVrand n q w k) := rfl

/-! ### Where each writes -/

theorem upFrom_lt {k : Nat} : ∀ m ∈ upFrom 0 k, m < k := fun m hm => by
  rw [mem_upFrom] at hm
  omega

theorem CoreSt.Wrote.vredWrites {modes : Nat} {f : VredF} {b : CoreSt} (h : b.Wrote b f.d (if f.axis then 512 else 4 * f.m)) :
    b.Wrote (vredWrites modes f f.m b) f.d (if f.axis then 512 else 4 * f.m) := by
  simp only [Machine.vredWrites, Nat.lt_irrefl, decide_false, Bool.and_false, Bool.false_eq_true, if_false]
  exact (h.writeAct (Nat.le_refl _) (by rw [length_vredBytes])).addFlush _

theorem CoreSt.Wrote.vquantWrites {modes : Nat} {r : LaneRnd} {f : VquantF} {b : CoreSt} (h0 : f.m ≠ 0)
    (hk : f.image = true → f.m ≤ kT f.form) (h : b.Wrote b f.d f.extent) : b.Wrote (vquantWrites modes r f f.m b) f.d f.extent := by
  unfold Machine.vquantWrites
  cases hi : f.image
  · exact .vquantRows hi h upFrom_lt
  · simp only [Nat.lt_irrefl, if_true, if_false]
    exact .vquantImage hi h0 (hk hi) h

theorem CoreSt.Wrote.vtstoreWrites {modes : Nat} {r : LaneRnd} {f : VtstoreF} {b : CoreSt}
    (hf : f.form = 0 ∨ f.form = 3 ∨ f.form = 4 ∨ f.form = 11) (h : b.Wrote b f.d (127 * (4 * f.dpitch) + f.rowLen)) :
    b.Wrote (vtstoreWrites modes r f f.m b) f.d (127 * (4 * f.dpitch) + f.rowLen) := by
  simp only [Machine.vtstoreWrites, Nat.lt_irrefl, if_false]
  exact (CoreSt.Wrote.vtstoreRows hf (length_readRows ..) h upFrom_lt).addFlush _

/-- An image has no more rows than K_T of its form (R284). -/
theorem vquantCauses_image {c : CoreSt} {w : InstrWord} (hc : noTrap (vquantCauses c w)) (hi : (vquantF w).image = true) :
    (vquantF w).m ≤ kT (vquantF w).form := by
  have h := hc (cM_RANGE, _) (List.mem_append_left _ (.tail _ (.tail _ (.head _))))
  simp only [hi, Bool.true_and, Bool.or_eq_false_iff, decide_eq_false_iff_not] at h
  omega

/-- The rounding of a VQUANT is given (R283). -/
theorem vquantCauses_rmode {c : CoreSt} {w : InstrWord} (hc : noTrap (vquantCauses c w)) : (vquantF w).rmode ≠ 3 := by
  have h := hc (cFIELD_CODE, _) (List.mem_append_left _ (.head _))
  simpa using h

/-- A VTSTORE writes BF16, MXFP8 or FP32 (R285). -/
theorem vtstoreCauses_form {c : CoreSt} {w : InstrWord} (hc : noTrap (vtstoreCauses c w)) :
    (vtstoreF w).form = 0 ∨ (vtstoreF w).form = 3 ∨ (vtstoreF w).form = 4 ∨ (vtstoreF w).form = 11 := by
  have h := hc (cFORMAT_CODE, _) (List.mem_append_left _ (.tail _ (.tail _ (.head _))))
  simp only [Bool.not_eq_false', Bool.or_eq_true, decide_eq_true_eq] at h
  omega

theorem vquantF_rmode_lt (w : InstrWord) : (vquantF w).rmode < 4 := Nat.mod_lt _ (by decide)

/-! ### What each writes -/

section

variable {c b : CoreSt} {modes : Nat} {d len : Nat} (hs : c.vectorStart b) (hb : b.Wrote b d len)
include hs hb

/-- One FP32 row of a VOP. -/
theorem readN_vopRows_one {r : LaneRnd} {f : VopF} (hm : f.m = 1) (hbf : f.bf16 = false) :
    Memory.readN (vopRows modes r f (upFrom 0 f.m) b).act f.d 512 = wordBytes ((upFrom 0 128).map (fun j =>
      (flush32 modes (vopValue f.func ((readRow modes c f.src 0).1.getD j 0) ((vopB modes c f 0).1.getD j 0) (maskBit c f 0 j))).1)) := by
  have hrow : (vopRow modes r b f 0).1 = wordBytes ((upFrom 0 128).map (fun j =>
      (flush32 modes (vopValue f.func ((readRow modes c f.src 0).1.getD j 0) ((vopB modes c f 0).1.getD j 0) (maskBit c f 0 j))).1)) := by
    simp only [vopRow, hbf, Bool.false_eq_true, if_false, List.map_map, hs.readRow, hs.vopB, hs.maskBit]
    rfl
  have hread := CoreSt.readN_writeAct hb.wf (a := f.d) (len := 512) (l := (vopRow modes r b f 0).1) (by rw [length_vopRow, hbf]; rfl)
  rw [← hrow, ← hread, hm]
  simp only [upFrom, vopRows, Nat.zero_mul, Nat.add_zero]
  rfl

/-- The reductions of a VRED. -/
theorem readN_vredWrites {f : VredF} :
    Memory.readN (vredWrites modes f f.m b).act f.d (if f.axis then 512 else 4 * f.m) = (vredBytes modes c f).1 := by
  simp only [vredWrites, Nat.lt_irrefl, decide_false, Bool.and_false, Bool.false_eq_true, if_false, hs.vredBytes]
  exact CoreSt.readN_writeAct hb.wf (length_vredBytes ..)

/-- One row of a VQUANT that does not draw. -/
theorem readN_vquantWrites_one {r : LaneRnd} {f : VquantF} (hm : f.m = 1) (hi : f.image = false) (hr : r.mode = 0 ∨ r.mode = 1) :
    Memory.readN (vquantWrites modes r f f.m b).act f.d (rowBytes f.form)
      = (convRun modes f.form (tensorExp c f.form f.tent) (fun _ => if r.mode = 1 then .rtz else .rne)
          (fun _ => if r.mode = 1 then .rtz else .rne) (readRow modes c f.src 0).1).1 := by
  have hat : ∀ lane e row slot, r.at lane e row slot = if r.mode = 1 then .rtz else .rne := fun lane e row slot => by
    rcases hr with h | h <;> simp [LaneRnd.at, h]
  have hrow : (vquantRow modes r b f 0).1 = (convRun modes f.form (tensorExp c f.form f.tent) (fun _ => if r.mode = 1 then .rtz else .rne)
      (fun _ => if r.mode = 1 then .rtz else .rne) (readRow modes c f.src 0).1).1 := by
    simp only [vquantRow, hat, hs.tensorExp, hs.readRow]
  have hread := CoreSt.readN_writeAct hb.wf (a := f.d) (l := (vquantRow modes r b f 0).1) (length_vquantRow ..)
  rw [← hrow, ← hread, hm]
  simp only [vquantWrites, hi, Bool.false_eq_true, if_false, upFrom, vquantRows, Nat.zero_mul, Nat.add_zero]
  split <;> rfl

/-- Column 127 of an FP32 VTSTORE. -/
theorem readN_vtstoreWrites_last {r : LaneRnd} {f : VtstoreF} (hf : f.form = 11) (hd : d = f.d)
    (hlen : len = 127 * (4 * f.dpitch) + f.rowLen) :
    Memory.readN (vtstoreWrites modes r f f.m b).act (f.d + 127 * (4 * f.dpitch)) (4 * f.m)
      = wordBytes ((upFrom 0 f.m).map (fun m => (readRow modes c f.src m).1.getD 127 0)) := by
  subst hd hlen
  have hrows : (readRows modes b f.src f.m).1.length = f.m := length_readRows ..
  have h := readN_vtstoreRows_last (modes := modes) (r := r) hf hrows
    (CoreSt.Wrote.vtstoreRows (.inr (.inr (.inr hf))) hrows hb fun i hi => Nat.lt_of_lt_of_le (upFrom_lt i hi) (by omega))
  simp only [vtstoreWrites, Nat.lt_irrefl, if_false]
  refine h.trans ?_
  rw [hs.readRows]
  simp only [readRows, List.map_map]
  rfl

end

/-! ### The draws of a VRAND (R176, R177, R287) -/

/-- The first draw of an instruction that has issued is that of the number which its queue held. -/
theorem State.laneRnd_issued {s : State} {n : Nat} (hn : n < numCores) (w : InstrWord) (mode rbits : Nat) :
    (s.issued n .vector w true).laneRnd n .vector mode rbits
      = { mode := mode, bits := rbitsOf s.fmt.randomBits rbits, key := s.drawKey n (((s.core n).queue .vector).opSeq % 2 ^ 31) 0 } := by
  have ho := State.onlyCore_issued (s := s) hn .vector w true
  have hseq : (s.issued n .vector w true).tookSeq n .vector = ((s.core n).queue .vector).opSeq % 2 ^ 31 := by
    rw [State.tookSeq, State.issued_queue hn]
    simp only [if_true]
    omega
  have hfree : ((s.issued n .vector w true).core n).freeBase = (s.core n).freeBase := by
    rw [State.queueFrame_issued hn (q := .vector) (by decide)]
    rfl
  rw [State.laneRnd, hseq]
  simp only [State.drawKey, hfree]
  rw [ho.1]
  rfl

end Sys2Proof.Machine
end

section
/-!
The statement about vector instructions (R278 to R287).
-/

namespace Sys2Proof.Machine

theorem State.subnormal_issued {s : State} {n : Nat} (hn : n < numCores) (q : QName) (w : InstrWord) (d : Bool) :
    (s.issued n q w d).fmt.subnormal = s.fmt.subnormal := by rw [(State.onlyCore_issued hn q w d).1]

/-- Words are counted when a condition has them drawn. -/
theorem State.ticked_ite {s t u : State} {n : Nat} {p : Prop} [Decidable p] (h : s.Ticked t n) (g : s.Ticked u n) :
    s.Ticked (if p then t else u) n := by
  split
  · exact h
  · exact g

/-- Settles O9: each operation reads the core that issue leaves (`CoreSt.vectorStart`), and its rows lie in its destination range
(`CoreSt.Wrote`). -/
theorem vectorOperationsWrite : Obligations.VectorOperationsWrite := by
  rintro s n w hqu hmem rfl
  refine ⟨?_, ?_, ?_, ?_, ?_, ?_⟩
  · rintro f rfl h hc hm hscan
    obtain ⟨t, b, hex, ho, htook, hfr, hout, hs, hb, hact⟩ := h.vectorOp (draws := fun w => (vopF w).rmode = 2)
      (eff := fun t w k => t.startVop n .vector w k) hqu hmem rfl
      (by simpa [State.causes, h.opcode, CoreSt.viewOf_program _ h.program] using hc) (by simp [State.ordered, h.opcode]) rfl
      hm hscan (fun u => State.ticked_ite (u.ticked_drew h.lt ..) (.refl u n)) fun b hb => hb.vopRows upFrom_lt
    refine ⟨t, hex, ho, htook, hfr, hout, fun h1 hbf => ?_⟩
    rw [hact, State.subnormal_issued h.lt]
    exact readN_vopRows_one hs hb h1 hbf
  · rintro f rfl h hc hm hscan
    obtain ⟨t, b, hex, ho, htook, hfr, hout, hs, hb, hact⟩ := h.vectorOp (draws := never)
      (eff := fun t w k => t.startVred n .vector w k) hqu hmem rfl
      (by simpa [State.causes, h.opcode, CoreSt.viewOf_program _ h.program] using hc) (by simp [State.ordered, h.opcode]) rfl
      hm hscan (fun u => .refl u n) fun b hb => hb.vredWrites
    refine ⟨t, hex, ho, htook, hfr, hout, ?_⟩
    rw [hact, State.subnormal_issued h.lt]
    exact readN_vredWrites hs hb
  · rintro f rfl h hc hm hscan
    obtain ⟨t, b, hex, ho, htook, hfr, hout, hs, hb, hact⟩ := h.vectorOp (draws := fun w => (vquantF w).rmode = 2)
      (eff := fun t w k => t.startVquant n .vector w k) hqu hmem rfl
      (by simpa [State.causes, h.opcode, CoreSt.viewOf_program _ h.program] using hc) (by simp [State.ordered, h.opcode]) rfl
      hm hscan (fun u => u.ticked_vquantWords h.lt ..) fun b hb => hb.vquantWrites hm (vquantCauses_image hc)
    refine ⟨t, hex, ho, htook, hfr, hout, fun h1 hi hr => ?_⟩
    have hr3 := vquantCauses_rmode hc
    have hr4 := vquantF_rmode_lt (s.atFront n .vector)
    rw [hact, State.subnormal_issued h.lt]
    exact readN_vquantWrites_one hs hb h1 hi (by show (vquantF (s.atFront n .vector)).rmode = 0 ∨ (vquantF (s.atFront n .vector)).rmode = 1; omega)
  · rintro f rfl h hc hm hscan
    obtain ⟨t, b, hex, ho, htook, hfr, hout, hs, hb, hact⟩ := h.vectorOp (draws := fun w => (vtstoreF w).rmode = 2)
      (eff := fun t w k => t.startVtstore n .vector w k) hqu hmem rfl
      (by simpa [State.causes, h.opcode, CoreSt.viewOf_program _ h.program] using hc) (by simp [State.ordered, h.opcode]) rfl
      hm hscan (fun u => State.ticked_ite (.refl u n) (u.ticked_drew h.lt ..))
      fun b hb => hb.vtstoreWrites (vtstoreCauses_form hc)
    refine ⟨t, hex, ho, htook, hfr, hout, fun hf => ?_⟩
    rw [hact, State.subnormal_issued h.lt]
    exact readN_vtstoreWrites_last hs hb hf rfl rfl
  · rintro f rfl h hc hm
    obtain ⟨t, b, hex, ho, htook, hfr, hout, hs, hb, hact⟩ := h.vectorOp (draws := fun _ => true)
      (eff := fun t w k => t.startVrand n .vector w k) hqu hmem rfl
      (by simpa [State.causes, h.opcode] using hc) (by simp [State.ordered, h.opcode]) rfl
      hm rfl (fun u => u.ticked_drew h.lt ..) fun b hb => hb.vrandRows upFrom_lt
    refine ⟨t, hex, ho, htook, hfr, hout, fun m hlt => ?_⟩
    rw [hact, ← State.laneRnd_issued h.lt (s.atFront n .vector)]
    exact readN_vrandRows hb.wf ((upFrom_pairwise _ _).imp Nat.ne_of_lt) (mem_upFrom.2 (by omega))
  · rintro v i d len src m rfl hm hscan
      (⟨rfl, h, hc, rfl, rfl, rfl, rfl⟩ | ⟨rfl, h, hc, rfl, rfl, rfl, rfl⟩ | ⟨rfl, h, hc, rfl, rfl, rfl, rfl⟩)
    · obtain ⟨t, b, hex, ho, hpc, hfr, hout, -⟩ := h.vectorOp (draws := fun w => (vopF w).rmode = 2)
        (eff := fun t w k => t.startVop n .plotter w k) hqu hmem (by decide)
        (by simpa [State.causes, h.opcode, CoreSt.viewOf] using hc) (by simp [State.ordered, h.opcode]) rfl
        hm hscan (fun u => State.ticked_ite (u.ticked_drew h.lt ..) (.refl u n)) fun b hb => hb.vopRows upFrom_lt
      exact ⟨t, hex, ho, hpc, hfr, hout, fun hi => by cases hi⟩
    · obtain ⟨t, b, hex, ho, hpc, hfr, hout, hs, hb, hact⟩ := h.vectorOp (draws := never)
        (eff := fun t w k => t.startVred n .plotter w k) hqu hmem (by decide)
        (by simpa [State.causes, h.opcode, CoreSt.viewOf] using hc) (by simp [State.ordered, h.opcode]) rfl
        hm hscan (fun u => .refl u n) fun b hb => hb.vredWrites
      refine ⟨t, hex, ho, hpc, hfr, hout, fun _ => ?_⟩
      rw [hact, State.subnormal_issued h.lt]
      exact readN_vredWrites hs hb
    · obtain ⟨t, b, hex, ho, hpc, hfr, hout, -⟩ := h.vectorOp (draws := fun w => (vquantF w).rmode = 2)
        (eff := fun t w k => t.startVquant n .plotter w k) hqu hmem (by decide)
        (by simpa [State.causes, h.opcode, CoreSt.viewOf] using hc) (by simp [State.ordered, h.opcode]) rfl
        hm hscan (fun u => u.ticked_vquantWords h.lt ..) fun b hb => hb.vquantWrites hm (vquantCauses_image hc)
      exact ⟨t, hex, ho, hpc, hfr, hout, fun hi => by cases hi⟩

end Sys2Proof.Machine
end

section
/-!
Stream units (R327 to R334, R361): what a unit's own work leaves alone, and where a repeat and a descriptor that begin leave the unit.
-/

namespace Sys2Proof.Machine

/-- Nothing has changed but unit `u` of stack `k`, and of the fabric its packet numbers and counts. -/
structure State.UnitWork (s t : State) (k u : Nat) : Prop where
  only : t = { s with hbm := t.hbm, fabric := { s.fabric with
    seqNo := t.fabric.seqNo, counts := t.fabric.counts, tablesFixed := t.fabric.tablesFixed } }
  others : ∀ j, j ≠ k → t.stack j = s.stack j
  stack : t.stack k = { s.stack k with units := (t.stack k).units }
  units : ∀ v, v ≠ u → t.unit k v = s.unit k v

theorem State.unit_setUnit (s : State) (k u : Nat) (x : UnitSt) : (s.setUnit k u x).unit k u = x := by
  simp [State.unit, State.setUnit, StackSt.unit]

theorem State.stack_setUnit (s : State) (k u : Nat) (x : UnitSt) :
    (s.setUnit k u x).stack k = { s.stack k with units := Tab.set (s.stack k).units u x } := s.stack_updStack k _

theorem State.stack_setUnit_other (s : State) {j k : Nat} (u : Nat) (x : UnitSt) (h : j ≠ k) : (s.setUnit k u x).stack j = s.stack j :=
  s.stack_updStack_other _ h

theorem State.unit_setUnit_other (s : State) (k : Nat) {u v : Nat} (x : UnitSt) (h : v ≠ u) : (s.setUnit k u x).unit k v = s.unit k v := by
  rw [State.unit, State.stack_setUnit]
  exact Tab.get_set_other _ _ _ h

namespace State.UnitWork

variable {s t w : State} {k u : Nat}

theorem refl (s : State) (k u : Nat) : s.UnitWork s k u := ⟨rfl, fun _ _ => rfl, rfl, fun _ _ => rfl⟩

theorem trans (h : s.UnitWork t k u) (g : t.UnitWork w k u) : s.UnitWork w k u := by
  refine ⟨?_, fun j hj => (g.others j hj).trans (h.others j hj), ?_, fun v hv => (g.units v hv).trans (h.units v hv)⟩
  · have hg := g.only
    rw [h.only] at hg
    exact hg
  · have hg := g.stack
    rw [h.stack] at hg
    exact hg

theorem setUnit (h : s.UnitWork t k u) (x : UnitSt) : s.UnitWork (t.setUnit k u x) k u :=
  h.trans ⟨rfl, fun _ hj => t.stack_setUnit_other u x hj, by rw [State.stack_setUnit], fun _ hv => t.unit_setUnit_other k x hv⟩

/-- Work of the fabric alone. -/
theorem of_fabric (h : t = { s with fabric := { s.fabric with
    seqNo := t.fabric.seqNo, counts := t.fabric.counts, tablesFixed := t.fabric.tablesFixed } }) : s.UnitWork t k u :=
  ⟨by rw [h], fun j _ => by rw [h]; rfl, by rw [h]; rfl, fun v _ => by rw [h]; rfl⟩

theorem of_fabricCounted (h : s.fabricCounted t) : s.UnitWork t k u := by
  unfold State.fabricCounted at h
  exact of_fabric (by rw [h])

theorem job (h : s.UnitWork t k u) : t.job = s.job := by rw [h.only]

theorem phys (h : s.UnitWork t k u) (l : Nat) : t.phys l = s.phys l := by
  rw [h.only]
  rfl

theorem reachesCore (h : s.UnitWork t k u) {j n : Nat} (hr : s.reachesCore j n) : t.reachesCore j n := by
  rw [h.only]
  exact hr

theorem onlyTraffic (h : s.UnitWork t k u) : s.onlyTraffic t := by
  unfold State.onlyTraffic
  rw [h.only]

end State.UnitWork

/-! ### Credit waits on their way (R332, R361, R386) -/

/-- Packets of a station are discarded and counted, which they are not where they have a way, or go out. -/
theorem State.fromStation_goes (s : State) (k n count : Nat) (go : Nat → List (Nat × Nat) → State → State) :
    ∃ t, s.fabricCounted t
      ∧ (s.fromStation k n count go = t ∧ ¬ s.reachesCore k n ∨ ∃ here track, s.fromStation k n count go = go here track t) := by
  have hr := s.fabricCounted_tableRead (.station k n)
  obtain ⟨v, hv⟩ : ∃ v, s.tableRead (.station k n) = v := ⟨_, rfl⟩
  rw [hv] at hr
  have hw : v.stationWay k n = s.stationWay k n := by
    rw [hr]
    rfl
  simp only [State.fromStation, hv, hw]
  cases hx : s.stationWay k n with
  | none => exact ⟨v, hr, .inl ⟨rfl, fun h => by simpa [hx] using h.1⟩⟩
  | some x =>
    have hp := hr.trans (v.fabricCounted_passes x.1 n)
    simp only [State.routed, hp.dropAt]
    cases hd : s.dropAt x.1 n with
    | none => exact ⟨_, hp, .inr ⟨x.1, x.2, rfl⟩⟩
    | some a => exact ⟨(v.passes x.1 n).discarded a count, hp.trans rfl, .inl ⟨rfl, fun h => by simp [h.2 x hx] at hd⟩⟩

/-- The credit wait of a unit has left its stack's station, at router `here`. -/
def State.creditSent (s : State) (k u l here : Nat) (track : List (Nat × Nat)) : State :=
  (s.numbered (stationSource (targetStation k)) 0 1).setUnit k u { s.unit k u with asks := (s.unit k u).asks
    ++ (s.packets (stationSource (targetStation k)) 0 here (s.phys l) track [[]]).map (fun p => (l, p)) }

theorem State.askCredit_goes (s : State) (k u l : Nat) :
    ∃ t, s.fabricCounted t ∧ (s.askCredit k u l = t ∧ ¬ s.reachesCore (targetStation k) (s.phys l)
      ∨ ∃ here track, s.askCredit k u l = t.creditSent k u l here track) :=
  s.fromStation_goes _ _ _ (fun here track t => t.creditSent k u l here track)

theorem State.unitWork_askCredit (s : State) (k u l : Nat) : s.UnitWork (s.askCredit k u l) k u := by
  obtain ⟨t, ht, ⟨h, -⟩ | ⟨here, track, h⟩⟩ := s.askCredit_goes k u l
  · rw [h]
    exact .of_fabricCounted ht
  · rw [h]
    exact (State.UnitWork.of_fabricCounted ht).trans (.setUnit (.of_fabric rfl) _)

/-- Of the unit, nothing but its credit waits on the way has changed. -/
theorem State.unit_askCredit (s : State) (k u l : Nat) :
    (s.askCredit k u l).unit k u = { s.unit k u with asks := ((s.askCredit k u l).unit k u).asks } := by
  obtain ⟨t, ht, h⟩ := s.askCredit_goes k u l
  have hu : t.unit k u = s.unit k u := by
    rw [ht]
    rfl
  obtain ⟨h, -⟩ | ⟨here, track, h⟩ := h
  · rw [h, hu]
  · rw [h, State.creditSent, State.unit_setUnit, hu]

/-- The packet of a credit wait with a way (R359, R361). -/
theorem State.asks_askCredit {s : State} {k l : Nat} (h : s.reachesCore (targetStation k) (s.phys l)) (u : Nat) :
    ∃ p : Packet, p.vc = 0 ∧ p.flits = 1 ∧ p.dst = s.phys l ∧ ((s.askCredit k u l).unit k u).asks = (s.unit k u).asks ++ [(l, p)] := by
  obtain ⟨t, ht, ⟨-, hn⟩ | ⟨here, track, hc⟩⟩ := s.askCredit_goes k u l
  · exact absurd h hn
  · have hu : t.unit k u = s.unit k u := by
      rw [ht]
      rfl
    rw [hc, State.creditSent, State.unit_setUnit, hu]
    exact ⟨_, rfl, rfl, by rw [ht]; rfl, rfl⟩

/-- The credit waits of a repeat, one after the other. -/
theorem State.unitWork_askCredits (s : State) (k u : Nat) (ls : List Nat) : s.UnitWork (ls.foldl (fun t l => t.askCredit k u l) s) k u := by
  induction ls generalizing s with
  | nil => exact .refl s k u
  | cons l ls ih => exact (s.unitWork_askCredit k u l).trans (ih _)

theorem State.unit_askCredits (s : State) (k u : Nat) (ls : List Nat) :
    (ls.foldl (fun t l => t.askCredit k u l) s).unit k u
      = { s.unit k u with asks := ((ls.foldl (fun t l => t.askCredit k u l) s).unit k u).asks } := by
  induction ls generalizing s with
  | nil => rfl
  | cons l ls ih => rw [List.foldl_cons, ih, s.unit_askCredit k u l]

theorem State.asks_askCredits {s : State} {k u : Nat} {ls : List Nat} (h : ∀ l ∈ ls, s.reachesCore (targetStation k) (s.phys l)) :
    ∃ ys : List (Nat × Packet), ((ls.foldl (fun t l => t.askCredit k u l) s).unit k u).asks = (s.unit k u).asks ++ ys
      ∧ ys.map (fun y => y.1) = ls ∧ ∀ y ∈ ys, y.2.vc = 0 ∧ y.2.flits = 1 ∧ y.2.dst = s.phys y.1 := by
  induction ls generalizing s with
  | nil => exact ⟨[], by simp⟩
  | cons l ls ih =>
    obtain ⟨hl, hls⟩ := List.forall_mem_cons.1 h
    have hw := s.unitWork_askCredit k u l
    obtain ⟨p, hvc, hflits, hdst, hp⟩ := State.asks_askCredit hl u
    obtain ⟨ys, hys, hmap, hpk⟩ := ih (s := s.askCredit k u l) fun j hj => hw.phys j ▸ hw.reachesCore (hls j hj)
    refine ⟨(l, p) :: ys, ?_, by rw [List.map_cons, hmap], ?_⟩
    · rw [List.foldl_cons, hys, hp, List.append_assoc, List.singleton_append]
    · refine List.forall_mem_cons.2 ⟨⟨hvc, hflits, hdst⟩, fun y hy => ?_⟩
      rw [← hw.phys]
      exact hpk y hy

/-! ### Repeats and descriptors that begin (R327, R332) -/

theorem State.unitWork_beginRepeat (s : State) (k u : Nat) (d : StreamDesc) (x : UnitSt) : s.UnitWork (s.beginRepeat k u d x) k u := by
  unfold State.beginRepeat
  dsimp only
  split
  · exact ((State.UnitWork.refl s k u).setUnit _).trans (State.unitWork_askCredits _ k u _)
  · exact (State.UnitWork.refl s k u).setUnit _

/-- Where a repeat that begins leaves its unit: at its credit waits, or ready. -/
theorem State.unit_beginRepeat (s : State) (k u : Nat) (d : StreamDesc) (x : UnitSt) :
    (s.beginRepeat k u d x).unit k u = if d.cwaitThr ≠ 0 ∧ s.receivers d ≠ []
      then { x with st := .credits, pend := s.receivers d, asks := ((s.beginRepeat k u d x).unit k u).asks }
      else { x with st := .ready, pend := [], asks := [] } := by
  by_cases h : d.cwaitThr ≠ 0 ∧ s.receivers d ≠ []
  · have hb : (d.cwaitThr != 0 && !(s.receivers d).isEmpty) = true := by simpa using h
    simp only [State.beginRepeat, hb, if_true, if_pos h]
    rw [State.unit_askCredits, State.unit_setUnit]
  · have hb : (d.cwaitThr != 0 && !(s.receivers d).isEmpty) = false := by simpa using h
    simp only [State.beginRepeat, hb, Bool.false_eq_true, if_false, if_neg h, State.unit_setUnit]

/-- The credit waits of a repeat whose receivers the stack's station has a way to. -/
theorem State.asks_beginRepeat {s : State} {k : Nat} {d : StreamDesc} (u : Nat) (x : UnitSt) (hc : d.cwaitThr ≠ 0)
    (h : ∀ l ∈ s.receivers d, s.reachesCore (targetStation k) (s.phys l)) :
    ((s.beginRepeat k u d x).unit k u).asks.map (fun y => y.1) = s.receivers d
      ∧ ∀ y ∈ ((s.beginRepeat k u d x).unit k u).asks, y.2.vc = 0 ∧ y.2.flits = 1 ∧ y.2.dst = s.phys y.1 := by
  by_cases hr : s.receivers d = []
  · rw [State.unit_beginRepeat, if_neg (fun hn => hn.2 hr), hr]
    simp
  · have hb : (d.cwaitThr != 0 && !(s.receivers d).isEmpty) = true := by simp [hc, hr]
    obtain ⟨ys, hys, hmap, hpk⟩ := State.asks_askCredits (u := u)
      (s := s.setUnit k u { x with st := .credits, pend := s.receivers d, asks := [] }) (k := k) (ls := s.receivers d) h
    rw [State.unit_setUnit, List.nil_append] at hys
    simp only [State.beginRepeat, hb, if_true, hys]
    exact ⟨hmap, hpk⟩

theorem State.unitWork_enterDesc (s : State) (k u pos : Nat) : s.UnitWork (s.enterDesc k u pos) k u := by
  unfold State.enterDesc
  dsimp only
  split
  · exact (State.UnitWork.refl s k u).setUnit _
  · split
    · exact (State.UnitWork.refl s k u).setUnit _
    · exact s.unitWork_beginRepeat k u _ _

/-- The unit stands before the first repeat of the descriptor that it has come to. -/
theorem State.unit_enterDesc (s : State) (k u pos : Nat) :
    ((s.enterDesc k u pos).unit k u).pos = pos ∧ ((s.enterDesc k u pos).unit k u).rep = 0
      ∧ ((s.streamDesc k u pos).op = 0 → ((s.enterDesc k u pos).unit k u).st = .ended) := by
  unfold State.enterDesc
  dsimp only
  split
  · rw [State.unit_setUnit]
    exact ⟨rfl, rfl, fun _ => rfl⟩
  · next hn =>
    have hop : (s.streamDesc k u pos).op ≠ 0 := fun h => hn (by simp [h])
    split
    · rw [State.unit_setUnit]
      exact ⟨rfl, rfl, fun h => absurd h hop⟩
    · rw [State.unit_beginRepeat]
      split <;> exact ⟨rfl, rfl, fun h => absurd h hop⟩

/-! ### Controller counters (R331) -/

theorem StackSt.counter_set (x : StackSt) (i j v : Nat) :
    ({ x with counters := Tab.set x.counters i v } : StackSt).counter j = if j = i then v else x.counter j := by
  unfold StackSt.counter
  split
  · subst_vars
    exact Tab.get_set_self _ _ _ _
  · exact Tab.get_set_other _ _ _ ‹_›

/-- The counters of stack `k` have come to `f`, and nothing else has changed. -/
structure State.CountersAt (s t : State) (k : Nat) (f : Nat → Nat) : Prop where
  only : s.onlyStack t k
  stack : t.stack k = { s.stack k with counters := (t.stack k).counters }
  counter : ∀ i, (t.stack k).counter i = f i

theorem State.countersAt_counterTake (s : State) (k i thr : Nat) :
    s.CountersAt (s.counterTake k i thr) k (fun j => if j = i then (s.stack k).counter i - thr else (s.stack k).counter j) := by
  refine ⟨⟨rfl, fun _ hj => s.stack_updStack_other _ hj⟩, ?_, fun j => ?_⟩
  · rw [State.counterTake, State.stack_updStack]
  · rw [State.counterTake, State.stack_updStack, StackSt.counter_set]

/-- A raise within the counter's range. -/
theorem State.countersAt_counterRaise {s : State} {k i inc : Nat} (h : (s.stack k).counter i + inc ≤ 65535) :
    s.CountersAt (s.counterRaise k i inc) k (fun j => (s.stack k).counter j + (if i = j then inc else 0)) := by
  simp only [State.counterRaise, if_pos h, Nat.min_eq_left h]
  refine ⟨⟨rfl, fun _ hj => s.stack_updStack_other _ hj⟩, ?_, fun j => ?_⟩
  · rw [State.stack_updStack]
  · rw [State.stack_updStack, StackSt.counter_set]
    by_cases hj : j = i
    · simp [hj]
    · simp [hj, Ne.symm hj]

theorem State.countersAt_refl (s : State) (k : Nat) : s.CountersAt s k (s.stack k).counter := ⟨⟨rfl, fun _ _ => rfl⟩, rfl, fun _ => rfl⟩

namespace State.CountersAt

variable {s t w : State} {k u : Nat} {f : Nat → Nat}

theorem job (h : s.CountersAt t k f) : t.job = s.job := by rw [h.only.1]

/-- What the descriptors of the plan and the legend give is as it was. -/
theorem streamDesc (h : s.CountersAt t k f) (j v pos : Nat) : t.streamDesc j v pos = s.streamDesc j v pos := by
  rw [h.only.1]
  rfl

theorem receivers (h : s.CountersAt t k f) (d : StreamDesc) : t.receivers d = s.receivers d := by
  rw [h.only.1]
  rfl

/-- A unit works after its counters have changed. -/
theorem then_unitWork (h : s.CountersAt t k f) (g : t.UnitWork w k u) :
    w = { s with hbm := w.hbm, fabric := w.fabric } ∧ s.onlyTraffic w ∧ (∀ j, j ≠ k → w.stack j = s.stack j)
      ∧ w.stack k = { s.stack k with counters := (w.stack k).counters, units := (w.stack k).units }
      ∧ (∀ i, (w.stack k).counter i = f i) ∧ ∀ v, v ≠ u → w.unit k v = s.unit k v := by
  have hfab : t.fabric = s.fabric := by rw [h.only.1]
  refine ⟨?_, ?_, fun j hj => (g.others j hj).trans (h.only.2 j hj), ?_, fun i => ?_, fun v hv => ?_⟩
  · have hw := g.only
    rw [h.only.1] at hw
    exact hw.trans (by rw [hw])
  · have hw := g.onlyTraffic
    unfold State.onlyTraffic at hw ⊢
    rwa [hfab] at hw
  · rw [g.stack, h.stack]
  · rw [← h.counter i, g.stack]
    rfl
  · rw [g.units v hv, State.unit, h.stack]
    rfl

end State.CountersAt

end Sys2Proof.Machine
end

section
/-!
The statement about stream units (R331 to R334, R361).
-/

namespace Sys2Proof.Machine

/-! ### Grants and ends (R331, R332, R327) -/

theorem exec_lwaitGrant {s : State} {k u : Nat} {x : UnitSt} {d : StreamDesc} (hq : s.quiet) (hk : k < numStacks) (hu : u < 4)
    (hx : s.unit k u = x) (hd : s.streamDesc k u x.pos = d) (hst : x.st = .lwait) (hthr : d.lwaitThr ≤ (s.stack k).counter d.lwaitIdx) :
    exec (.lwaitGrant k u) s = .next ((s.counterTake k d.lwaitIdx d.lwaitThr).beginRepeat k u d x) := by
  have hcond : (decide (x.st = .lwait) && decide ((s.stack k).counter d.lwaitIdx ≥ d.lwaitThr)) = true := by simp [hst, hthr]
  show execLwaitGrant k u s = _
  simp only [execLwaitGrant, withUnit, if_pos (And.intro hk hu), hx, hd, hcond, if_true]
  exact done_of_job_eq hq (State.unitWork_beginRepeat _ k u _ _).job

theorem exec_streamDescriptorEnd {s t : State} {k u : Nat} {x : UnitSt} {d : StreamDesc} (hq : s.quiet) (hk : k < numStacks) (hu : u < 4)
    (hx : s.unit k u = x) (hd : s.streamDesc k u x.pos = d) (hst : x.st = .sending) (ho : x.out = 0)
    (ht : (if d.lraiseInc = 0 then s else s.counterRaise k d.lraiseIdx d.lraiseInc) = t) (hj : t.job = s.job) :
    exec (.streamDescriptorEnd k u) s = .next (t.enterDesc k u (x.pos + 1)) := by
  have hcond : (decide (x.st = .sending) && decide (x.out = 0)) = true := by simp [hst, ho]
  show execStreamDescriptorEnd k u s = _
  simp only [execStreamDescriptorEnd, withUnit, if_pos (And.intro hk hu), hx, hd, hcond, if_true, ht]
  exact done_of_job_eq hq ((State.unitWork_enterDesc t k u _).job.trans hj)

/-- The raise of a descriptor, if it has one. -/
theorem State.countersAt_lraise {s : State} {k i inc : Nat} (h : (s.stack k).counter i + inc ≤ 65535) :
    s.CountersAt (if inc = 0 then s else s.counterRaise k i inc) k (fun j => (s.stack k).counter j + (if i = j then inc else 0)) := by
  split
  · next h0 =>
    subst h0
    simpa using s.countersAt_refl k
  · exact State.countersAt_counterRaise h

/-! ### Credits and deliveries (R333, R334) -/

/-- A receiver has granted a credit wait of a unit: its pennant pays, and its number and packet leave the unit. -/
def State.creditGranted (s : State) (k u n l : Nat) (d : StreamDesc) (b : Tab BlockCounts) : State :=
  (({ s with gaz := { s.gaz with blocks := b } } : State).updCore n (fun c =>
    c.setPennant d.cwaitIdx (c.pennant d.cwaitIdx - d.cwaitThr))).setUnit k u
    { s.unit k u with pend := (s.unit k u).pend.erase l, asks := (s.unit k u).asks.filter (fun y => y.1 != l),
                      st := if ((s.unit k u).pend.erase l).isEmpty then .ready else .credits }

theorem exec_remoteWait {s : State} {k u n l : Nat} {x : UnitSt} {d : StreamDesc} (hq : s.quiet) (hk : k < numStacks) (hu : u < 4)
    (hx : s.unit k u = x) (hd : s.streamDesc k u x.pos = d) (hn : n < numCores) (hl : s.logicalOf n = some l) (hst : x.st = .credits)
    (hpend : l ∈ x.pend) (hask : x.asks.any (fun y => y.1 = l) = true) (hthr : d.cwaitThr ≤ (s.core n).pennant d.cwaitIdx)
    (hg : s.localGrant n d.cwaitIdx = false) : ∃ b, exec (.remoteWait k u n) s = .next (s.creditGranted k u n l d b) := by
  obtain ⟨b, hb⟩ := s.landed_blocks ((x.asks.filter (fun y => y.1 = l)).map (fun y => y.2))
  refine ⟨b, ?_⟩
  have hcond : (decide (x.st = .credits) && x.pend.contains l && x.asks.any (fun y => y.1 = l)
      && decide ((s.core n).pennant d.cwaitIdx ≥ d.cwaitThr) && !s.localGrant n d.cwaitIdx) = true := by simp [hst, hpend, hask, hthr, hg]
  show execRemoteWait k u n s = _
  simp only [execRemoteWait, withUnit, withCore, if_pos (And.intro hk hu), if_pos hn, hl, hx, hd, hcond, if_true, hb]
  rw [State.creditGranted, hx]
  exact done_of_job_eq hq rfl

theorem State.core_creditGranted (s : State) (k u n l : Nat) (d : StreamDesc) (b : Tab BlockCounts) :
    (s.creditGranted k u n l d b).core n = (s.core n).setPennant d.cwaitIdx ((s.core n).pennant d.cwaitIdx - d.cwaitThr) :=
  State.core_updCore { s with gaz := { s.gaz with blocks := b } } n (fun c => c.setPennant d.cwaitIdx (c.pennant d.cwaitIdx - d.cwaitThr))

theorem State.core_creditGranted_other (s : State) (k u l : Nat) {n m : Nat} (d : StreamDesc) (b : Tab BlockCounts) (h : m ≠ n) :
    (s.creditGranted k u n l d b).core m = s.core m :=
  State.core_updCore_other { s with gaz := { s.gaz with blocks := b } }
    (fun c => c.setPennant d.cwaitIdx (c.pennant d.cwaitIdx - d.cwaitThr)) h

/-- What a unit has come to leaves the memories and counters of every stack. -/
theorem State.mem_setUnit (s : State) (k u : Nat) (x : UnitSt) (j : Nat) :
    ((s.setUnit k u x).stack j).mem = (s.stack j).mem ∧ ((s.setUnit k u x).stack j).counters = (s.stack j).counters := by
  by_cases hj : j = k
  · rw [hj, State.stack_setUnit]
    exact ⟨rfl, rfl⟩
  · rw [State.stack_setUnit_other _ _ _ hj]
    exact ⟨rfl, rfl⟩

/-- The state once a tile has landed and its unit counts it delivered, before the core writes it. -/
def State.tileLanded (s : State) (k u : Nat) (m : TileMsg) (b : Tab BlockCounts) : State :=
  ({ s with flight := { s.flight with tiles := s.flight.tiles.erase m }, gaz := { s.gaz with blocks := b } } : State).setUnit k u
    { s.unit k u with out := (s.unit k u).out - 1 }

/-- A whole tile is written in its core's stream buffer, and raises its pennant there. -/
theorem exec_streamTileDelivered {s : State} {k u n p : Nat} {m : TileMsg} (hq : s.quiet) (hk : k < numStacks) (hu : u < 4)
    (hn : n < numCores) (hm : s.flight.tiles.find? (fun y => y.stack = k && y.unit = u && y.dst = n) = some m) (hp : m.pen = some p)
    (hlost : m.lost = []) (hf : s.coreStateOf n ≠ .fenced) (hpen : (s.core n).pennant p < 65535) :
    ∃ b v t, v = (s.tileLanded k u m b).updCore n (fun c => c.writeMem true m.addr m.data) ∧ v.Raised t n p 1
      ∧ exec (.streamTileDelivered k u n) s = .next t := by
  obtain ⟨b, hb⟩ := ({ s with flight := { s.flight with tiles := s.flight.tiles.erase m } } : State).landed_blocks m.came
  obtain ⟨b', hb'⟩ : ∃ b', (if (s.flight.tiles.erase m).any (fun y => y.stack = k && y.unit = u && y.rep = m.rep) then s.tileLanded k u m b
      else (s.tileLanded k u m b).count (blkStack k) evTILES_SENT 0 1 1) = s.tileLanded k u m b' := by
    split
    · exact ⟨b, rfl⟩
    · exact (s.tileLanded k u m b).count_blocks (by simp only [blkStack]; omega) _ _ _ _
  have hwrite : m.writeTo = fun c => c.writeMem true m.addr m.data := by
    funext c
    simp only [TileMsg.writeTo, hlost, List.isEmpty_nil, if_true]
  have hends : m.ends = true := by simp [TileMsg.ends, hlost]
  have hr : ((s.tileLanded k u m b').updCore n (fun c => c.writeMem true m.addr m.data)).Raised
      (((s.tileLanded k u m b').updCore n (fun c => c.writeMem true m.addr m.data)).raise n p 1 none) n p 1 := by
    refine State.raised_raise (by decide) ?_
    rw [State.core_updCore, CoreSt.writeMem_frame]
    exact hpen
  refine ⟨b', _, _, rfl, hr, ?_⟩
  have hfen : ((s.tileLanded k u m b').coreStateOf n = .fenced) = False := eq_false hf
  have hend : execStreamTileDelivered k u n s
      = done (((s.tileLanded k u m b').updCore n (fun c => c.writeMem true m.addr m.data)).raise n p 1 none) := by
    simp only [execStreamTileDelivered, withUnit, withCore, if_pos (And.intro hk hu), if_pos hn, hm, hb]
    refine Eq.trans (b := if (s.tileLanded k u m b').coreStateOf n = .fenced then done (s.tileLanded k u m b')
      else match m.pen with
        | some p => if m.ends then done (((s.tileLanded k u m b').updCore n m.writeTo).raise n p 1 none)
          else done ((s.tileLanded k u m b').updCore n m.writeTo)
        | none => done ((s.tileLanded k u m b').updCore n m.writeTo)) ?_ ?_
    · rw [← hb']
      rfl
    · simp only [hfen, if_false, hp, hends, if_true, hwrite]
  exact hend.trans (done_of_job_eq hq hr.only.job)

/-- Settles O15: a grant and an end change the controller's counters and then the unit; a credit and a delivery, one core and the unit. -/
theorem streamUnitsAdvance : Obligations.StreamUnitsAdvance := by
  unfold Obligations.StreamUnitsAdvance
  intro s k u x d hq hmem hk hu hx hd
  refine ⟨fun hst hthr => ?_, fun n l hn hl hst hpend hask hthr hg => ?_, fun n m p hn hm hp hlost hf hpen => ?_, fun hst ho hle => ?_⟩
  case refine_1 =>
    have hc := s.countersAt_counterTake k d.lwaitIdx d.lwaitThr
    obtain ⟨w, hw⟩ : ∃ w, (s.counterTake k d.lwaitIdx d.lwaitThr).beginRepeat k u d x = w := ⟨_, rfl⟩
    have hunit := State.unit_beginRepeat (s.counterTake k d.lwaitIdx d.lwaitThr) k u d x
    obtain ⟨honly, htraffic, hother, hstack, hctr, hunits⟩ := hc.then_unitWork (State.unitWork_beginRepeat _ k u d x)
    have hasks := fun hcw hreach => State.asks_beginRepeat (s := s.counterTake k d.lwaitIdx d.lwaitThr) (k := k) (d := d) u x hcw hreach
    rw [hw] at honly htraffic hother hstack hctr hunits hunit hasks
    refine ⟨w, (exec_lwaitGrant hq hk hu hx hd hst hthr).trans (by rw [hw]), honly, htraffic, hother, hstack, ?_, fun i hi => ?_, hunit,
      hasks, hunits⟩
    · rw [hctr, if_pos rfl]
    · rw [hctr, if_neg hi]
  case refine_2 =>
    obtain ⟨b, hexec⟩ := exec_remoteWait hq hk hu hx hd hn hl hst hpend hask hthr hg
    refine ⟨_, hexec, rfl, fun m hm => s.core_creditGranted_other k u l d b hm, ?_, ?_, fun i hi => ?_, ?_, fun j => State.mem_setUnit _ k u _ j⟩
    · rw [State.core_creditGranted]
      rfl
    · rw [State.core_creditGranted, CoreSt.pennant_setPennant, if_pos rfl]
    · rw [State.core_creditGranted, CoreSt.pennant_setPennant, if_neg hi]
    · rw [State.creditGranted, State.unit_setUnit, hx]
  case refine_3 =>
    obtain ⟨b, v, t, rfl, hr, hexec⟩ := exec_streamTileDelivered hq hk hu hn hm hp hlost hf hpen
    have hcore : ((s.tileLanded k u m b).updCore n (fun c => c.writeMem true m.addr m.data)).core n = (s.core n).writeMem true m.addr m.data :=
      State.core_updCore _ _ _
    have hsbuf : (t.core n).sbuf = ((s.core n).writeMem true m.addr m.data).sbuf := by rw [hr.core, hcore]
    obtain ⟨-, hread, houtside⟩ := (CoreSt.writeMem_reads (State.wf_core hmem n) true m.addr m.data)
    refine ⟨t, hexec, ?_, ?_, fun j hj => ?_, ?_, ?_, fun i => ?_, ?_, ?_⟩
    · rw [hr.only.1]
      rfl
    · rw [hr.core, hcore]
      rfl
    · rw [hr.only.2 j hj]
      exact State.core_updCore_other _ _ hj
    · rw [hsbuf, hread]
    · rw [hsbuf]
      exact houtside
    · rw [hr.pen, hcore, CoreSt.writeMem_frame]
      simp only [eq_comm]
      rfl
    · rw [hr.only.1, ← hx]
      exact State.unit_setUnit _ _ _ _
    · rw [hr.only.1]
      rfl
  case refine_4 =>
    have hc := State.countersAt_lraise hle
    obtain ⟨t, ht⟩ : ∃ t, (if d.lraiseInc = 0 then s else s.counterRaise k d.lraiseIdx d.lraiseInc) = t := ⟨_, rfl⟩
    rw [ht] at hc
    obtain ⟨honly, htraffic, hother, hstack, hctr, -⟩ := hc.then_unitWork (t.unitWork_enterDesc k u (x.pos + 1))
    obtain ⟨hpos, hrep, hend⟩ := t.unit_enterDesc k u (x.pos + 1)
    rw [hc.streamDesc] at hend
    exact ⟨_, exec_streamDescriptorEnd hq hk hu hx hd hst ho ht hc.job, honly, htraffic, hother, hstack, hctr, hpos, hrep, hend⟩

end Sys2Proof.Machine
end

section
/-!
A stream unit's tile goes out (R330, R334, R335, R339, R359): its packets, one copy to each receiver, and the read of the source tile.
-/

namespace Sys2Proof.Machine

/-! ### Packets of a tile (R334, R359) -/

theorem State.mem_packets {s : State} {src vc here dst : Nat} {track : List (Nat × Nat)} {l : List (List Byte)} {p : Packet}
    (h : p ∈ s.packets src vc here dst track l) : p.vc = vc ∧ p.dst = dst ∧ ∃ x ∈ l, p.flits = max 1 (ceilDiv x.length 256) := by
  simp only [State.packets, List.mem_map] at h
  obtain ⟨x, hx, rfl⟩ := h
  exact ⟨rfl, rfl, x.1, (List.of_mem_zip hx).1, rfl⟩

/-- A packet of a transfer's data has at most 32 flits. -/
theorem flits_le_of_mem_packetData {l x : List Byte} (h : x ∈ packetData l) : max 1 (ceilDiv x.length 256) ≤ 32 := by
  have := length_le_of_mem_packetData h
  unfold ceilDiv
  omega

/-- A copy of a unit's tile that is on its way to a receiver: to the descriptor's buffer slot, with its pennant, in packets on VC1. -/
def State.TileTo (s : State) (k u : Nat) (d : StreamDesc) (rep : Nat) (data : List Byte) (l : Nat) (m : TileMsg) : Prop :=
  m = { stack := k, unit := u, dst := s.phys l, addr := d.sbaddr + rep % (max 1 d.sbslots) * d.sbstep, data := data, pen := d.dpen,
        rep := rep, pkts := m.pkts, lost := [] }
    ∧ m.pkts.length = max 1 (ceilDiv data.length 8192) ∧ ∀ p ∈ m.pkts, p.vc = 1 ∧ p.dst = s.phys l ∧ p.flits ≤ 32

/-- Tiles have left: of the module nothing has changed but the tiles on their way, and of the fabric its packet numbers and counts. -/
def State.TilesGone (s t : State) (ms : List TileMsg) : Prop :=
  t = { s with flight := { s.flight with tiles := s.flight.tiles ++ ms }, fabric := { s.fabric with
    seqNo := t.fabric.seqNo, counts := t.fabric.counts, tablesFixed := t.fabric.tablesFixed } }

theorem State.TilesGone.trans {s t v : State} {ms ns : List TileMsg} (h : s.TilesGone t ms) (g : t.TilesGone v ns) :
    s.TilesGone v (ms ++ ns) := by
  unfold State.TilesGone at g ⊢
  rw [h] at g
  rw [← List.append_assoc]
  exact g

theorem State.tilesGone_of_fabricCounted {s t : State} (h : s.fabricCounted t) : s.TilesGone t [] := by
  unfold State.fabricCounted at h
  unfold State.TilesGone
  rw [List.append_nil]
  rw [h]

theorem State.TilesGone.phys {s t : State} {ms : List TileMsg} (h : s.TilesGone t ms) (l : Nat) : t.phys l = s.phys l := by
  rw [h]
  rfl

/-- The copy of a tile for a core, in packets that enter the mesh at router `here`. -/
def State.tileCopy (s : State) (k u : Nat) (d : StreamDesc) (rep : Nat) (data : List Byte) (n here : Nat) (track : List (Nat × Nat)) : TileMsg :=
  { stack := k, unit := u, dst := n, addr := d.sbaddr + rep % (max 1 d.sbslots) * d.sbstep, data := data, pen := d.dpen, rep := rep
    pkts := s.packets (stationSource (targetStation k)) 1 here n track (packetData data), lost := [] }

theorem State.tileTo_tileCopy (s t : State) (k u : Nat) (d : StreamDesc) (rep : Nat) (data : List Byte) (l here : Nat)
    (track : List (Nat × Nat)) : s.TileTo k u d rep data l (t.tileCopy k u d rep data (s.phys l) here track) := by
  refine ⟨rfl, (length_packets t _ _ here (s.phys l) track (packetData data)).trans (length_packetData data), fun p hp => ?_⟩
  obtain ⟨hvc, hdst, x, hx, hflits⟩ := State.mem_packets hp
  exact ⟨hvc, hdst, hflits ▸ flits_le_of_mem_packetData hx⟩

/-- The copy for a core has left, and its packets are numbered. -/
def State.tileSent (s : State) (k u : Nat) (d : StreamDesc) (rep : Nat) (data : List Byte) (n here : Nat) (track : List (Nat × Nat)) : State :=
  { s.numbered (stationSource (targetStation k)) 1 (packetData data).length with
    flight := { s.flight with tiles := s.flight.tiles ++ [s.tileCopy k u d rep data n here track] } }

/-- A tile with a way leaves for its receiver. -/
theorem State.tilesGone_sendTile {s : State} {k l : Nat} (h : s.reachesCore (targetStation k) (s.phys l)) (u : Nat) (d : StreamDesc) (rep : Nat)
    (data : List Byte) : ∃ m, s.TilesGone (s.sendTile k u d rep (s.phys l) data) [m] ∧ s.TileTo k u d rep data l m := by
  obtain ⟨t, ht, ⟨-, hn⟩ | ⟨here, track, hgo⟩⟩ := s.fromStation_goes (targetStation k) (s.phys l) (packetData data).length
    (fun here track t => t.tileSent k u d rep data (s.phys l) here track)
  · exact absurd h hn
  · refine ⟨_, (State.tilesGone_of_fabricCounted ht).trans ?_, s.tileTo_tileCopy t k u d rep data l here track⟩
    rw [show s.sendTile k u d rep (s.phys l) data = t.tileSent k u d rep data (s.phys l) here track from hgo]
    rfl

/-- What the copies of a tile go by is as it was while others have left. -/
theorem State.TilesGone.reachesCore {s t : State} {ms : List TileMsg} (h : s.TilesGone t ms) {j n : Nat} (hr : s.reachesCore j n) :
    t.reachesCore j n := by
  rw [h]
  exact hr

/-- The copies of a tile, one to each receiver (R335). -/
theorem State.tilesGone_sendTiles {s : State} {k : Nat} {ls : List Nat} (h : ∀ l ∈ ls, s.reachesCore (targetStation k) (s.phys l)) (u : Nat)
    (d : StreamDesc) (rep : Nat) (data : List Byte) :
    ∃ ms, s.TilesGone (ls.foldl (fun t l => t.sendTile k u d rep (t.phys l) data) s) ms ∧ ls.Forall₂ (s.TileTo k u d rep data) ms := by
  induction ls generalizing s with
  | nil => exact ⟨[], State.tilesGone_of_fabricCounted (.refl s), .nil⟩
  | cons l ls ih =>
    obtain ⟨hl, hls⟩ := List.forall_mem_cons.1 h
    obtain ⟨m, hgone, hto⟩ := State.tilesGone_sendTile hl u d rep data
    obtain ⟨ms, hms, hall⟩ := ih (s := s.sendTile k u d rep (s.phys l) data) fun j hj => hgone.phys j ▸ hgone.reachesCore (hls j hj)
    refine ⟨m :: ms, hgone.trans hms, .cons hto (hall.imp fun j n hn => ?_)⟩
    unfold State.TileTo at hn ⊢
    rwa [hgone.phys] at hn

/-! ### The source tile (R330, R335) -/

/-- The state once a unit has read its source tile for the step that runs. -/
def State.tileRead (s : State) (k : Nat) (b : Tab BlockCounts) : State :=
  { s.setStack k (s.stack k) with gaz := { s.gaz with blocks := b }, job := { s.job with reading := max s.job.reading s.stepCurrent } }

theorem State.stack_tileRead (s : State) (k : Nat) (b : Tab BlockCounts) (j : Nat) : (s.tileRead k b).stack j = s.stack j := by
  by_cases hj : j = k
  · rw [hj]
    exact s.stack_setStack k _
  · exact s.stack_setStack_other _ hj

/-- A read of a clean stack gives what has been written (R310). -/
theorem State.readHbm_tileRead {s : State} {k : Nat} (hc : s.clean k) (a n : Nat) (who : Consumer) :
    ∃ b r, s.readHbm k a n who = (r, some (s.readStack k a n))
      ∧ ({ r with job := { r.job with reading := max r.job.reading r.stepCurrent } } : State) = s.tileRead k b := by
  obtain ⟨b, hb⟩ := s.linesAt_blocks k a n who
  exact ⟨b, _, State.readHbm_clean hc a n who, by rw [hb]; rfl⟩

/-- A unit whose tile has left turns to the next repeat, or waits for its deliveries after the last (R334). -/
def State.turnTo (s : State) (k u : Nat) (d : StreamDesc) (x : UnitSt) : State :=
  if x.rep < d.rep then s.beginRepeat k u d x else s.setUnit k u { x with st := .sending }

theorem State.unitWork_turnTo (s : State) (k u : Nat) (d : StreamDesc) (x : UnitSt) : s.UnitWork (s.turnTo k u d x) k u := by
  unfold State.turnTo
  split
  · exact s.unitWork_beginRepeat k u d x
  · exact (State.UnitWork.refl s k u).setUnit _

theorem State.unit_turnTo (s : State) (k u : Nat) (d : StreamDesc) (x : UnitSt) :
    ((s.turnTo k u d x).unit k u).rep = x.rep ∧ ((s.turnTo k u d x).unit k u).out = x.out
      ∧ (d.rep ≤ x.rep → ((s.turnTo k u d x).unit k u).st = .sending) := by
  unfold State.turnTo
  split
  · next h =>
    rw [State.unit_beginRepeat]
    split <;> exact ⟨rfl, rfl, fun hle => absurd h (Nat.not_lt.2 hle)⟩
  · rw [State.unit_setUnit]
    exact ⟨rfl, rfl, fun _ => rfl⟩

/-- A ready unit on a stack that reads as written: the tile is read, its copies leave, and the unit turns to the next repeat. -/
theorem exec_streamTileSend {s : State} {k u : Nat} {x : UnitSt} {d : StreamDesc} {data : List Byte} (hq : s.quiet) (hk : k < numStacks) (hu : u < 4)
    (hc : s.clean k) (hx : s.unit k u = x) (hd : s.streamDesc k u x.pos = d) (hst : x.st = .ready) (hop : d.op ≠ 3)
    (hstale : s.staleKeep k (d.src + x.rep * d.tstride) = none) (hfull : s.stackFull k = false)
    (hway : ∀ l ∈ s.receivers d, s.reachesCore (targetStation k) (s.phys l))
    (hdata : s.readStack k (d.src + x.rep * d.tstride) d.tileBytes = data) :
    ∃ b v ms, (s.tileRead k b).TilesGone v ms ∧ (s.receivers d).Forall₂ (s.TileTo k u d x.rep data) ms
      ∧ exec (.streamTileSend k u) s = .next (v.turnTo k u d { x with rep := x.rep + 1, out := x.out + (s.receivers d).length }) := by
  obtain ⟨b, r, hr, hread⟩ := State.readHbm_tileRead hc (d.src + x.rep * d.tstride) d.tileBytes (.stream u)
  rw [hdata] at hr
  obtain ⟨ms, hgone, hto⟩ := State.tilesGone_sendTiles (s := s.tileRead k b) (k := k) (ls := s.receivers d) hway u d x.rep data
  refine ⟨b, _, ms, hgone, hto, ?_⟩
  have hcond : (x.st != .ready || (d.op != 3 && s.stackFull k)) = false := by simp [hst, hfull]
  show execStreamTileSend k u s = _
  have hrecv : r.receivers d = s.receivers d := by
    have h := congrArg (fun w : State => w.receivers d) hread
    exact h
  simp only [execStreamTileSend, withUnit, if_pos (And.intro hk hu), hx, hd, hcond, Bool.false_eq_true, if_false, if_neg hop, hstale, hr, hread, hrecv]
  refine Eq.trans ?_ (done_quiet _ (State.quiet_of_job (s := s.tileRead k b) hq ((State.unitWork_turnTo _ k u d _).job.trans (by rw [hgone]))))
  rw [State.turnTo]
  split <;> rfl

/-- Settles O16: the read of a clean stack changes no byte, the copies leave, and the unit's turn changes the unit alone. -/
theorem streamTileGoesOut : Obligations.StreamTileGoesOut := by
  unfold Obligations.StreamTileGoesOut
  intro s k u x d hq hk hu hc hx hd hst hop hstale hfull hway
  obtain ⟨b, v, ms, hgone, hto, hexec⟩ := exec_streamTileSend hq hk hu hc hx hd hst hop hstale hfull hway rfl
  obtain ⟨y, hy⟩ : ∃ y, ({ x with rep := x.rep + 1, out := x.out + (s.receivers d).length } : UnitSt) = y := ⟨_, rfl⟩
  obtain ⟨w, hwdef⟩ : ∃ w, v.turnTo k u d y = w := ⟨_, rfl⟩
  have hw := v.unitWork_turnTo k u d y
  obtain ⟨hrep, hout, hsend⟩ := v.unit_turnTo k u d y
  rw [hwdef] at hw hrep hout hsend
  rw [hy, hwdef] at hexec
  have hstack : ∀ j, v.stack j = s.stack j := fun j => by
    rw [hgone]
    exact s.stack_tileRead k b j
  refine ⟨w, ms, hexec, ?_, hto.length_eq.symm, fun i l m hl hm => ?_, by rw [hrep, ← hy], by rw [hout, ← hy],
    fun hle => hsend (by rw [← hy]; exact hle), fun j => ?_, ?_, ?_⟩
  · rw [hw.only, hgone]
    rfl
  · obtain ⟨hil, rfl⟩ := List.getElem?_eq_some_iff.1 hl
    obtain ⟨him, rfl⟩ := List.getElem?_eq_some_iff.1 hm
    obtain ⟨hmsg, hlen, hpkts⟩ := hto.get hil him
    rw [State.readStack, Memory.length_readN] at hlen
    exact ⟨hmsg, hlen, hpkts⟩
  · by_cases hj : j = k
    · rw [hj, hw.stack, ← hstack k]
      exact ⟨rfl, rfl⟩
    · rw [hw.others j hj, hstack j]
      exact ⟨rfl, rfl⟩
  · have h := hw.onlyTraffic
    unfold State.onlyTraffic at h ⊢
    rw [h, hgone]
    rfl
  · have h := hw.only
    rw [hgone] at h
    exact h.trans (by rw [h]; rfl)

end Sys2Proof.Machine
end

section
/-!
Held writes of a stream copy (R340): one item is written at its place, and a copy that still lacks items raises no arrival counter.
-/

namespace Sys2Proof.Machine

/-! ### The items of a write (R324, R427) -/

theorem chunks_length {α : Type} {l : List α} (h : l ≠ []) : chunks l.length l = [l] := by
  cases l with
  | nil => exact absurd rfl h
  | cons x l =>
    have hnil : chunksF (l.length + 1) l.length ([] : List α) = [] := by cases l.length <;> rfl
    rw [chunks, List.length_cons, chunksF, List.take_of_length_le (by simp), List.drop_of_length_le (by simp), hnil]
    exact List.cons_ne_nil x l

/-- The data of one item is that item, whatever its form. -/
theorem State.itemsOf_one (s : State) (l : PlanLayer) (part first : Nat) {data : List Byte} (h : data ≠ []) :
    s.itemsOf l part first 1 data = [data] := by
  unfold State.itemsOf
  dsimp only
  split
  · next f hf =>
    have hsize := List.find?_some hf
    simp only [upFrom, List.map_cons, List.map_nil, List.foldl_cons, List.foldl_nil, Nat.zero_add, Bool.and_eq_true, decide_eq_true_eq] at hsize
    simp only [upFrom, List.map_cons, List.map_nil, cutAt, hsize.2, List.take_length]
  · rw [if_neg (by decide), Nat.div_one, chunks_length h]
    rfl

/-! ### One write that takes effect (R340) -/

/-- Of the module, nothing but what the halyards know of the copies has changed, and of that not which items are written. -/
def State.FormNoted (s t : State) : Prop := ∃ y, t = { s with halyard := y } ∧ y.written = s.halyard.written

theorem State.writeItem_placed {s : State} {l : PlanLayer} {k part n : Nat} {p : Placement} (hp : s.copyPlace l part n = some p)
    (hk : (s.placeAddr p n).1 = k) (step : Nat) (data : List Byte) :
    s.writeItem l k step part n data = { s.writeStack k (s.copyAddr p n step) data with
      halyard := { s.halyard with written := (64 * l.layer + k, step, 2 ^ 32 * part + n) :: s.halyard.written } } := by
  simp only [State.writeItem, hp, if_pos hk]
  rfl

theorem State.formNoted_codesDone (s : State) (l : PlanLayer) (k step : Nat) : s.FormNoted (s.codesDone l k step) := by
  unfold State.codesDone
  dsimp only
  split
  · exact ⟨_, rfl, rfl⟩
  · exact ⟨_, rfl, rfl⟩

/-- A copy of which an item has not been written is not whole. -/
theorem State.copyDone_of_missing {s : State} {l : PlanLayer} {k step i : Nat} (hi : i ∈ s.copyItems l k)
    (hw : (64 * l.layer + k, step, i) ∉ s.halyard.written) : s.copyDone l k step = s := by
  have h : s.allWritten (64 * l.layer + k) step (s.copyItems l k) = false := by
    rw [State.allWritten, Bool.and_eq_false_iff]
    exact .inr (List.all_eq_false.2 ⟨i, hi, by simpa using hw⟩)
  simp only [State.copyDone, h, Bool.false_eq_true, if_false]

/-- A write of one item takes effect at its place; while another item of the copy is missing, nothing follows from it. -/
theorem State.applyCopy_one {s : State} {k : Nat} {h : HeldWrite} {l : PlanLayer} {p : Placement} (hl : s.planLayer h.layer = some l)
    (hheld : s.isHeld h.layer k h.part h.step = false) (hp : s.copyPlace l h.part h.first = some p) (hone : h.count = 1) (hdata : h.data ≠ [])
    (hk : (s.placeAddr p h.first).1 = k)
    (hmiss : (s.copyItems l k).any (fun i => i != 2 ^ 32 * h.part + h.first && !s.halyard.written.contains (64 * l.layer + k, h.step, i)) = true) :
    ∃ y, s.applyCopy k h = { s.writeStack k (s.copyAddr p h.first h.step) h.data with halyard := y } := by
  obtain ⟨i, hi, hcond⟩ := List.any_eq_true.1 hmiss
  simp only [Bool.and_eq_true, bne_iff_ne, ne_eq, Bool.not_eq_true', List.contains_eq_mem, decide_eq_false_iff_not] at hcond
  obtain ⟨hne, hnot⟩ := hcond
  obtain ⟨t, ht, happly⟩ : ∃ t, s.FormNoted t ∧ s.applyCopy k h
      = (if h.part = 2 then (t.writeItem l k h.step h.part h.first h.data).codesDone l k h.step
          else t.writeItem l k h.step h.part h.first h.data).copyDone l k h.step := by
    simp only [State.applyCopy, hl, hheld, Bool.false_eq_true, if_false, hone, State.itemsOf_one _ l h.part h.first hdata, State.writeItems]
    refine ⟨_, ?_, rfl⟩
    split
    · split
      · exact ⟨_, rfl, rfl⟩
      · exact ⟨_, rfl, rfl⟩
    · exact ⟨_, rfl, rfl⟩
  obtain ⟨y, rfl, hy⟩ := ht
  have hitem := State.writeItem_placed (s := { s with halyard := y }) hp hk h.step h.data
  obtain ⟨v, hv⟩ : ∃ v, ({ s with halyard := y } : State).writeItem l k h.step h.part h.first h.data = v := ⟨_, rfl⟩
  obtain ⟨w, hw⟩ : ∃ w, (if h.part = 2 then v.codesDone l k h.step else v) = w := ⟨_, rfl⟩
  have hvw : v.FormNoted w := by
    rw [← hw]
    split
    · exact v.formNoted_codesDone l k h.step
    · exact ⟨_, rfl, rfl⟩
  obtain ⟨z, hz, hzw⟩ := hvw
  have hitems : w.copyItems l k = s.copyItems l k := by
    rw [hz, ← hv, hitem]
    rfl
  have hwritten : w.halyard.written = (64 * l.layer + k, h.step, 2 ^ 32 * h.part + h.first) :: s.halyard.written := by
    rw [hz, hzw, ← hv, hitem, ← hy]
  have hdone : w.copyDone l k h.step = w := State.copyDone_of_missing (hitems ▸ hi) (by
    rw [hwritten, List.mem_cons, not_or]
    exact ⟨by simpa using hne, hnot⟩)
  refine ⟨z, ?_⟩
  rw [happly, hv, hw, hdone, hz, ← hv, hitem]
  rfl

/-! ### The release (R340) -/

/-- Before the release counter covers its threshold, nothing is released. -/
theorem State.releaseCopies_of_lt {s : State} {k l : Nat} {c : CopyCtr} (hc : s.copyCtr l k = some c) (h : (s.stack k).counter c.release < c.threshold) :
    s.releaseCopies k l = s := by
  simp only [State.releaseCopies, State.releaseReady, hc, ge_iff_le, if_neg (Nat.not_le.2 h)]

/-- The oldest held copy of a layer whose first write is the only one of its step. -/
theorem StackSt.heldStep_cons {x : StackSt} {h : HeldWrite} {late : List HeldWrite} (hx : x.held = h :: late)
    (hlate : ∀ y ∈ late, y.layer = h.layer ∧ h.step < y.step) : x.heldStep h.layer = some h.step := by
  have hf : (h :: late).filter (fun y => y.layer = h.layer) = h :: late :=
    List.filter_eq_self.2 (List.forall_mem_cons.2 ⟨by simp, fun y hy => by simp [(hlate y hy).1]⟩)
  have hmin : ∀ ys : List HeldWrite, (∀ y ∈ ys, h.step < y.step) → ys.foldl (fun a y => min a y.step) h.step = h.step := by
    intro ys hys
    exact foldl_eq_self fun y hy => Nat.min_eq_left (Nat.le_of_lt (hys y hy))
  rw [StackSt.heldStep, hx, hf]
  exact congrArg some (hmin late fun y hy => (hlate y hy).2)

/-- The stack once its release has been granted: the threshold is consumed, and the copy's writes are held no more. -/
def State.released (s : State) (k layer step : Nat) (c : CopyCtr) (late : List HeldWrite) : State :=
  (s.counterTake k c.release c.threshold).updStack k (fun x => { x with held := late, released := (layer, step) :: x.released })

/-- A release whose copy holds one write lets that take effect. -/
theorem State.releaseCopies_one {s : State} {k : Nat} {c : CopyCtr} {h : HeldWrite} {late : List HeldWrite} (hc : s.copyCtr h.layer k = some c)
    (hthr : c.threshold ≤ (s.stack k).counter c.release) (hx : (s.stack k).held = h :: late)
    (hlate : ∀ y ∈ late, y.layer = h.layer ∧ h.step < y.step) :
    s.releaseCopies k h.layer = (s.released k h.layer h.step c late).applyCopy k h := by
  have hmine : (h :: late).filter (fun y => decide (y.layer = h.layer) && decide (y.step = h.step)) = [h] := by
    rw [List.filter_cons_of_pos (by simp), List.filter_eq_nil_iff.2 fun y hy => ?_]
    simp [Nat.ne_of_gt (hlate y hy).2]
  have hrest : (h :: late).filter (fun y => !(decide (y.layer = h.layer) && decide (y.step = h.step))) = late := by
    rw [List.filter_cons_of_neg (by simp), List.filter_eq_self.2 fun y hy => ?_]
    simp [Nat.ne_of_gt (hlate y hy).2]
  have hheld : ((s.counterTake k c.release c.threshold).stack k).held = h :: late := by
    rw [State.counterTake, State.stack_updStack]
    exact hx
  simp only [State.releaseCopies, State.releaseReady, hc, ge_iff_le, if_pos hthr, StackSt.heldStep_cons hx hlate, hx, hmine, List.foldl_cons,
    List.foldl_nil, State.released]
  simp only [State.updStack, hheld, hrest]

/-- Settles O17: before the threshold `releaseCopies` is the identity; at it the one write of the oldest copy goes to a clean stack. -/
theorem heldWritesWaitForRelease : Obligations.HeldWritesWaitForRelease := by
  unfold Obligations.HeldWritesWaitForRelease
  intro s k l c hq hmem hk hc hclean hmerges
  have hexec : exec (.streamCopyWriteRelease k l) s = done ((s.releaseCopies k l).askAllMerges) := by
    show execStreamCopyWriteRelease k l s = _
    simp only [execStreamCopyWriteRelease, withStack, if_pos hk]
  refine ⟨fun hlt => ?_, fun h late pl p hthr hx hl hlate hpl hheld hp hone hdata hplace hmiss => ?_⟩
  · rw [hexec, State.releaseCopies_of_lt hc hlt, State.askAllMerges_of_merges_nil hmerges]
    exact done_quiet s hq
  · subst hl
    have hrel := State.releaseCopies_one hc hthr hx hlate
    obtain ⟨u, hu⟩ : ∃ u, s.released k h.layer h.step c late = u := ⟨_, rfl⟩
    have hustack : u.stack k = { s.stack k with
        counters := Tab.set (s.stack k).counters c.release ((s.stack k).counter c.release - c.threshold), held := late
        released := (h.layer, h.step) :: (s.stack k).released } := by
      rw [← hu, State.released, State.stack_updStack, State.counterTake, State.stack_updStack]
    have huother : ∀ j, j ≠ k → u.stack j = s.stack j := fun j hj => by
      rw [← hu, State.released, State.stack_updStack_other _ _ hj, State.counterTake, State.stack_updStack_other _ _ hj]
    have huhbm : u = { s with hbm := u.hbm } := by
      rw [← hu]
      rfl
    obtain ⟨y, happly⟩ := State.applyCopy_one (s := u) (k := k) (h := h) (l := pl) (p := p) (by rw [huhbm]; exact hpl) (by rw [huhbm]; exact hheld)
      (by rw [huhbm]; exact hp) hone hdata (by rw [huhbm]; exact hplace) (by rw [huhbm]; exact hmiss)
    obtain ⟨a, ha⟩ : ∃ a, s.copyAddr p h.first h.step = a := ⟨_, rfl⟩
    have hua : u.copyAddr p h.first h.step = a := by
      rw [huhbm, ← ha]
      rfl
    rw [hua] at happly
    obtain ⟨t, ht⟩ : ∃ t, u.writeStack k a h.data = t := ⟨_, rfl⟩
    have huclean : (u.stack k).clean := by
      rw [hustack]
      exact hclean
    have htstack : t.stack k = (u.stack k).write a h.data .plotter := by rw [← ht, State.stack_writeStack]
    have htother : ∀ j, j ≠ k → t.stack j = s.stack j := fun j hj => by rw [← ht, State.stack_writeStack_other _ _ _ _ hj, huother j hj]
    rw [StackSt.write_clean huclean, hustack] at htstack
    have hmg : ∀ j, (({ t with halyard := y } : State).stack j).merges = [] := fun j => by
      show (t.stack j).merges = []
      by_cases hj : j = k
      · rw [hj, htstack]
        exact hmerges k
      · rw [htother j hj]
        exact hmerges j
    have hjob : ({ t with halyard := y } : State).job = s.job := by
      rw [← ht, huhbm]
      rfl
    rw [hu, happly, ht] at hrel
    refine ⟨{ t with halyard := y }, ?_, ?_, ?_, ?_, ?_, htother, ?_⟩
    · rw [hexec, hrel, State.askAllMerges_of_merges_nil hmg]
      exact done_of_job_eq hq hjob
    · exact (congrArg StackSt.held htstack)
    · refine (congrArg (StackSt.counter · c.release) htstack).trans ?_
      exact Tab.get_set_self _ _ _ _
    · rw [ha]
      refine (congrArg (fun x : StackSt => Memory.readN x.mem a h.data.length) htstack).trans ?_
      exact Memory.readN_writeN (State.wf_stack hmem k) a h.data
    · rw [ha]
      intro b hb
      refine (congrArg (fun x : StackSt => Memory.read x.mem b) htstack).trans ?_
      exact Memory.read_writeN_outside (State.wf_stack hmem k) h.data hb
    · rw [← ht, huhbm]
      rfl

end Sys2Proof.Machine
end

section
/-!
What the sending of messages keeps (R111, R564, R570): what has left the module and what waits to leave, and that a message to a peer that
is not lost is one of these.
-/

namespace Sys2Proof.Machine

/-- What has left the module has, and what waits for a table entry still does. -/
structure State.Keeps (s t : State) : Prop where
  out : s.out ⊆ t.out
  backlog : s.net.backlog ⊆ t.net.backlog

namespace State.Keeps

variable {s t u : State}

theorem refl (s : State) : s.Keeps s := ⟨List.Subset.refl _, List.Subset.refl _⟩

theorem trans (h : s.Keeps t) (g : t.Keeps u) : s.Keeps u := ⟨fun _ ho => g.out (h.out ho), fun _ hw => g.backlog (h.backlog hw)⟩

theorem foldl {α : Type} {f : State → α → State} (h : ∀ (t : State) x, t.Keeps (f t x)) (l : List α) (s : State) : s.Keeps (l.foldl f s) := by
  induction l generalizing s with
  | nil => exact refl s
  | cons x l ih => exact (h s x).trans (ih _)

/-- An update that touches neither what has left nor what waits. -/
theorem of_eq (ho : t.out = s.out) (hb : t.net.backlog = s.net.backlog) : s.Keeps t :=
  ⟨by rw [ho]; exact List.Subset.refl _, by rw [hb]; exact List.Subset.refl _⟩

end State.Keeps

theorem State.keeps_send (s : State) (o : Out) : s.Keeps (s.send o) := ⟨List.subset_append_left _ _, List.Subset.refl _⟩

theorem State.keeps_waitSend (s : State) (w : Waiting) : s.Keeps (s.waitSend w) := ⟨List.Subset.refl _, List.subset_append_left _ _⟩

theorem State.keeps_vector (s : State) (v : Nat) : s.Keeps (s.vector v) := by
  unfold State.vector
  split
  · exact .refl s
  · split
    · exact .of_eq rfl rfl
    · exact s.keeps_send _

theorem State.keeps_copyEvents (s : State) (n : Nat) : s.Keeps (s.copyEvents n) := by
  induction n generalizing s with
  | zero => exact .refl s
  | succ n ih =>
    unfold State.copyEvents
    dsimp only
    split
    · split
      · exact .refl s
      · refine .trans (.trans ?_ (State.keeps_vector _ _)) (ih _)
        exact .of_eq rfl rfl
    · exact .refl s

theorem State.keeps_info (s : State) (name : String) (i : List Nat) : s.Keeps (s.info name i) := by
  unfold State.info State.event
  refine .trans ?_ (State.keeps_copyEvents _ _)
  exact .of_eq rfl rfl

theorem State.keeps_resolve (s : State) (i : Nat) : s.Keeps (s.resolve i) := by
  unfold State.resolve
  split
  · exact .refl s
  · refine .trans ?_ (State.keeps_send _ _)
    exact .of_eq rfl rfl

theorem State.keeps_netCount (s : State) (i : Nat) (f : NetCounts → NetCounts) : s.Keeps (s.netCount i f) := by
  unfold State.netCount
  split <;> exact .of_eq rfl rfl

theorem State.keeps_frameBytes (s : State) (i direction payload : Nat) : s.Keeps (s.frameBytes i direction payload) := by
  unfold State.frameBytes
  split
  · exact .refl s
  · obtain ⟨x, hx⟩ := s.count_blocks (b := blkPort (i / 2)) (by simp only [blkPort]; omega) evBYTES (2 ^ (i % 2) + direction) 1 (payload + 106)
    rw [hx]
    exact .of_eq rfl rfl

/-- A message on an interface has left, after all that left before it. -/
theorem State.messageOn_leaves (s : State) (p : PeerSt) (i : Nat) (m : Msg) :
    s.Keeps (s.messageOn p i m) ∧ ∃ n l, Out.message p.module n m l ∈ (s.messageOn p i m).out := by
  unfold State.messageOn
  dsimp only
  refine ⟨.trans (.trans ?_ (.foldl (fun (t : State) b => t.keeps_frameBytes i 4 (List.length b)) _ _)) (State.keeps_send _ _), _, _,
    List.mem_append_right _ (List.mem_singleton_self _)⟩
  refine .trans ?_ (State.keeps_netCount _ _ _)
  exact (s.keeps_resolve i).trans (.of_eq rfl rfl)

theorem State.keeps_message (s : State) (dst : Nat) (group port : Option Nat) (m : Msg) : s.Keeps (s.message dst group port m) := by
  unfold State.message
  split
  · exact s.keeps_info _ _
  · dsimp only
    split
    · exact s.keeps_info _ _
    · split
      · exact .refl s
      · split
        · exact s.keeps_waitSend _
        · exact (s.messageOn_leaves _ _ _).1

/-- A message has left for a module, or waits for a table entry. -/
def State.Leaves (s : State) (dst : Nat) (m : Msg) : Prop :=
  (∃ n l, Out.message dst n m l ∈ s.out) ∨ ∃ w ∈ s.net.backlog, w.dst = dst ∧ w.m = m

theorem State.Keeps.leaves {s t : State} (h : s.Keeps t) {dst : Nat} {m : Msg} (hl : s.Leaves dst m) : t.Leaves dst m := by
  rcases hl with ⟨n, l, ho⟩ | ⟨w, hw, he⟩
  · exact .inl ⟨n, l, h.out ho⟩
  · exact .inr ⟨w, h.backlog hw, he⟩

/-- A message to a module that is not lost leaves, or waits. -/
theorem State.leaves_message {s : State} {dst : Nat} (h : s.isLost dst = false) (group port : Option Nat) (m : Msg) :
    (s.message dst group port m).Leaves dst m := by
  unfold State.isLost at h
  split at h
  · next p hp =>
    obtain ⟨hlost, hpresent⟩ : p.lost = false ∧ p.present = true := by simpa using h
    unfold State.message
    rw [hp]
    dsimp only
    rw [if_neg (by simp [hpresent]), if_neg (by simp [hlost])]
    split
    · exact .inr ⟨_, List.mem_append_right _ (List.mem_singleton_self _), rfl, rfl⟩
    · obtain ⟨-, n, l, ho⟩ := s.messageOn_leaves { p with rotate := p.rotate + 1 } (s.pickIface (group.getD p.localGroup) port p.rotate) m
      exact .inl ⟨n, l, State.module_of_peer hp ▸ ho⟩
  · cases h

/-- A message to each of a list of modules leaves for those that are not lost, or waits. -/
theorem State.leaves_messages {s : State} {ms : List Nat} (m : Msg) {dst : Nat} (hd : dst ∈ ms) (h : s.isLost dst = false) :
    (ms.foldl (fun t x => t.message x none none m) s).Leaves dst m := by
  induction ms generalizing s with
  | nil => cases hd
  | cons x ms ih =>
    rcases List.mem_cons.1 hd with rfl | hd
    · exact State.Keeps.leaves (.foldl (fun (t : State) y => t.keeps_message y none none m) ms _) (State.leaves_message h none none m)
    · exact ih hd (((s.sameRun_message x none none m).lost dst).trans h)

theorem State.messaged_sendDown (s : State) (d : DownMsg) : s.Messaged (s.sendDown d) :=
  .foldl (fun (t : State) m => t.messaged_message m none none (.down d)) _ s

end Sys2Proof.Machine
end

section
/-!
Downhauls that arrive (R340, R463 to R465): what a piece brings for the first time, where it is held, and where it goes on.
-/

namespace Sys2Proof.Machine

theorem State.layer_of_planLayer {s : State} {n : Nat} {l : PlanLayer} (h : s.planLayer n = some l) : l.layer = n := by
  unfold State.planLayer at h
  split at h
  · simpa using List.find?_some h
  · cases h

/-! ### What is new of a piece (R464) -/

/-- A piece of which nothing has been forwarded is new whole. -/
theorem State.downFresh_of_new {s : State} {l : PlanLayer} {d : DownMsg}
    (h : ∀ n, d.first ≤ n → n < d.first + d.count → s.downHas d n = false) : s.downFresh l d = [d] := by
  have hany : (upFrom d.first d.count).any (s.downHas d) = false :=
    List.any_eq_false.2 fun n hn => by
      obtain ⟨hle, hlt⟩ := mem_upFrom.1 hn
      simp [h n hle hlt]
  simp only [State.downFresh, hany, Bool.not_false, if_true]

/-- A piece that has been forwarded whole brings nothing. -/
theorem State.downFresh_of_old {s : State} {l : PlanLayer} {d : DownMsg} (hc : d.count ≠ 0)
    (h : ∀ n, d.first ≤ n → n < d.first + d.count → s.downHas d n = true) : s.downFresh l d = [] := by
  have hall : ∀ n ∈ upFrom d.first d.count, s.downHas d n = true := fun n hn => by
    obtain ⟨hle, hlt⟩ := mem_upFrom.1 hn
    exact h n hle hlt
  have hany : (upFrom d.first d.count).any (s.downHas d) = true :=
    List.any_eq_true.2 ⟨d.first, mem_upFrom.2 (by omega), h _ (Nat.le_refl _) (by omega)⟩
  have hfilter : (upFrom d.first d.count).filter (fun n => !s.downHas d n) = [] :=
    List.filter_eq_nil_iff.2 fun n hn => by simp [hall n hn]
  simp only [State.downFresh, hany, Bool.not_true, Bool.false_eq_true, if_false, hfilter, runsOf, List.map_nil]

/-! ### Discards (R464) -/

theorem exec_downhaul {s : State} {src i : Nat} {d : DownMsg} (hi : i < 64) (hr : s.reaches src (.down d) = true) :
    exec (.downhaul src i d) s = done ((s.downArrives src i d).askAllMerges) := by
  show execDownhaul src i d s = _
  simp only [execDownhaul, withIface, if_pos hi, hr, Bool.not_true, Bool.false_eq_true, if_false]

/-- A piece that brings nothing new is discarded. -/
theorem State.downArrives_of_old {s : State} {d : DownMsg} {l : PlanLayer} (hl : s.planLayer d.layer = some l) (hp : d.part < 3)
    (h : (d.count ≠ 0 ∧ ∀ n, d.first ≤ n → n < d.first + d.count → s.downHas d n = true) ∨ s.copyHeld l d.part d.step = true)
    (src i : Nat) : s.downArrives src i d = s.downDiscard i := by
  have hfresh : (if s.copyHeld l d.part d.step then [] else s.downFresh l d) = [] := by
    rcases h with ⟨hc, hall⟩ | hheld
    · rw [State.downFresh_of_old hc hall, ite_self]
    · rw [hheld, if_pos rfl]
  simp only [State.downArrives, hl, if_neg (show ¬ d.part = 3 by omega), if_neg (show ¬ d.part > 3 by omega), hfresh, List.nil_eq,
    List.foldl_nil]
  rfl

/-! ### New pieces (R340, R463, R465) -/

/-- Of the module, nothing has changed but the Plotter's state and packet numbers. -/
def State.FormFerried (s t : State) : Prop := t = { s with plotter := t.plotter, fabric := t.fabric }

theorem State.formFerried_raiseRung (s : State) (layer f : Nat) : s.FormFerried (s.raiseRung layer f) := by
  unfold State.raiseRung
  split
  · dsimp only
    split
    · rfl
    · split <;> rfl
  · rfl

theorem State.formFerried_noteForm (s : State) (l : PlanLayer) (d : DownMsg) : s.FormFerried (s.noteForm l d) := by
  unfold State.noteForm
  split
  · exact s.formFerried_raiseRung _ _
  · rfl

theorem State.FormFerried.trans {s t u : State} (h : s.FormFerried t) (g : t.FormFerried u) : s.FormFerried u := by
  unfold State.FormFerried at g ⊢
  rw [h] at g
  exact g

theorem State.formFerried_ferryCopy (s : State) (g : Nat) (l : PlanLayer) (part first count bytes : Nat) :
    s.FormFerried (s.ferryCopy g l part first count bytes) := by
  have one : ∀ (t : State) k, t.FormFerried (t.ferryIn g k bytes) := fun t k => by
    unfold State.ferryIn State.ferry
    split <;> rfl
  have all : ∀ (ks : List Nat) (t : State), t.FormFerried (ks.foldl (fun t k => t.ferryIn g k bytes) t) := by
    intro ks
    induction ks with
    | nil => exact fun _ => rfl
    | cons k ks ih => exact fun t => (one t k).trans (ih _)
  exact all _ s

/-- A piece that is noted has been forwarded. -/
theorem State.downHas_of_mem {s : State} {d : DownMsg} {n : Nat} (hf : d.first < 2 ^ 32) (hle : d.first ≤ n) (hlt : n < d.first + d.count)
    (h : (d.layer, d.step, 2 ^ 32 * d.part + d.first, d.count) ∈ s.halyard.forwardedDown) : s.downHas d n = true := by
  refine List.any_eq_true.2 ⟨_, h, ?_⟩
  have hdiv : (2 ^ 32 * d.part + d.first) / 2 ^ 32 = d.part := by omega
  have hmod : (2 ^ 32 * d.part + d.first) % 2 ^ 32 = d.first := by omega
  simp only [hdiv, hmod, decide_true, Bool.true_and, Bool.and_eq_true, decide_eq_true_eq]
  exact ⟨hle, hlt⟩

/-- The held write of a piece. -/
def heldOf (d : DownMsg) : HeldWrite :=
  { layer := d.layer, step := d.step, part := d.part, first := d.first, count := d.count, data := d.data }

/-- A write for a layer of one stack, some of whose items it brings, goes to that stack. -/
theorem State.writeStacks_one {s : State} {l : PlanLayer} {k part first count : Nat} {p : Placement} (hs : s.copyStacks l = [k])
    (hp : p ∈ s.copyPlaces l) (hpart : p.part = part) (hk : (s.placeAddr p p.first).1 = k) (h1 : p.first < first + count)
    (h2 : first < p.first + p.count) : s.writeStacks l part first count = [k] := by
  have hany : (s.copyPlaces l).any (fun p => p.part = part && (s.placeAddr p p.first).1 = k && p.first < first + count
      && first < p.first + p.count) = true := List.any_eq_true.2 ⟨p, hp, by simp [hpart, hk, h1, h2]⟩
  simp only [State.writeStacks, hs, List.filter_cons, hany, if_true, List.filter_nil]

/-- A write of a copy whose release has not been granted is held (R340). -/
theorem State.copyWrite_held {s : State} {k : Nat} {h : HeldWrite} {c : CopyCtr} (hheld : s.isHeld h.layer k h.part h.step = false)
    (hc : s.copyCtr h.layer k = some c) (hr : (h.layer, h.step) ∉ (s.stack k).released) (hj : s.job.release ≠ .replay s.firstStep) :
    s.copyWrite k h = s.updStack k (fun x => { x with held := x.held ++ [h] }) := by
  have hcal : s.calibrated h = false := by simp [State.calibrated, hj]
  have hrel : (s.stack k).released.contains (h.layer, h.step) = false := by simpa using hr
  simp only [State.copyWrite, hheld, hc, hrel, hcal, Bool.or_false, Bool.false_eq_true, if_false]

/-- What arrives of a new piece, before its write goes to the stacks: room for its form, and a note of it. -/
def State.downNoted (s : State) (i : Nat) (l : PlanLayer) (d : DownMsg) : State :=
  ((s.ferryCopy (groupOfIface i) l d.part d.first d.count d.data.length).noteForm l d).noteDown d

theorem State.downArrives_of_new {s : State} {d : DownMsg} {l : PlanLayer} (hl : s.planLayer d.layer = some l) (hp : d.part < 3)
    (hheld : s.copyHeld l d.part d.step = false) (h : ∀ n, d.first ≤ n → n < d.first + d.count → s.downHas d n = false) (src i : Nat) :
    s.downArrives src i d = ((s.downNoted i l d).copyWriteAll (heldOf d)).sendDown d := by
  have hfresh : (if s.copyHeld l d.part d.step then [] else s.downFresh l d) = [d] := by
    rw [hheld, if_neg (by decide), State.downFresh_of_new h]
  simp only [State.downArrives, hl, if_neg (show ¬ d.part = 3 by omega), if_neg (show ¬ d.part > 3 by omega), hfresh, if_true,
    List.foldl_cons, List.foldl_nil]
  rfl

/-- A note changes of the halyards what has been forwarded, and the rest is its way and its form. -/
theorem State.downNoted_frame (s : State) (i : Nat) (l : PlanLayer) (d : DownMsg) :
    ∃ y, (s.downNoted i l d) = { s with plotter := (s.downNoted i l d).plotter, fabric := (s.downNoted i l d).fabric
                                        halyard := { s.halyard with forwardedDown := y } }
      ∧ (d.layer, d.step, 2 ^ 32 * d.part + d.first, d.count) ∈ y := by
  have h := (s.formFerried_ferryCopy (groupOfIface i) l d.part d.first d.count d.data.length).trans (State.formFerried_noteForm _ l d)
  obtain ⟨t, ht⟩ : ∃ t, (s.ferryCopy (groupOfIface i) l d.part d.first d.count d.data.length).noteForm l d = t := ⟨_, rfl⟩
  rw [ht] at h
  have hhal : t.halyard = s.halyard := by rw [h]
  refine ⟨((t.noteDown d).halyard).forwardedDown, ?_, List.mem_cons_self ..⟩
  rw [State.downNoted, ht]
  unfold State.FormFerried at h
  rw [State.noteDown, hhal]
  rw [h]

/-- The note, the write and the way on of a new piece for one stack. -/
theorem State.originDown_held {s t : State} {i k : Nat} {l : PlanLayer} {d : DownMsg} {p : Placement} {c : CopyCtr}
    (hl : s.planLayer d.layer = some l) (hs : s.copyStacks l = [k])
    (hp : p ∈ s.copyPlaces l) (hpart : p.part = d.part) (hk : (s.placeAddr p p.first).1 = k) (h1 : p.first < d.first + d.count)
    (h2 : d.first < p.first + p.count) (hheld : s.isHeld l.layer k d.part d.step = false) (hc : s.copyCtr l.layer k = some c)
    (hr : (d.layer, d.step) ∉ (s.stack k).released) (hj : s.job.release ≠ .replay s.firstStep) (ht : s.downNoted i l d = t) :
    t.copyWriteAll (heldOf d) = t.updStack k (fun x => { x with held := x.held ++ [heldOf d] }) := by
  obtain ⟨y, hy, -⟩ := s.downNoted_frame i l d
  rw [ht] at hy
  have hlay := State.layer_of_planLayer hl
  have hstacks : t.writeStacks l d.part d.first d.count = [k] := by
    rw [hy]
    exact State.writeStacks_one hs hp hpart hk h1 h2
  have hpl : t.planLayer d.layer = some l := by
    rw [hy]
    exact hl
  have hwrite : t.copyWrite k (heldOf d) = t.updStack k (fun x => { x with held := x.held ++ [heldOf d] }) := by
    rw [hlay] at hheld hc
    refine State.copyWrite_held (c := c) ?_ ?_ ?_ ?_
    · rw [hy]
      exact hheld
    · rw [hy]
      exact hc
    · rw [hy]
      exact hr
    · rw [hy]
      exact hj
  simp only [State.copyWriteAll, heldOf, hpl, hstacks, List.foldl_cons, List.foldl_nil]
  exact hwrite

end Sys2Proof.Machine
end

section
/-!
Copies that are asked for (R353, R463, R466, R554), and the statement about downhauls.
-/

namespace Sys2Proof.Machine

/-! ### Requests (R466, R554) -/

/-- The pieces of a request cover its items. -/
theorem exists_mem_gatherPieces {g : GatherMsg} {x : Nat} (h1 : g.first ≤ x) (h2 : x < g.first + g.count) (size : Nat) :
    ∃ q ∈ gatherPieces g size, q.kind = g.kind ∧ q.step = g.step ∧ q.first ≤ x ∧ x < q.first + q.count := by
  unfold gatherPieces
  dsimp only
  obtain ⟨n, hn⟩ : ∃ n, max 1 ((65535 * 8192 - 20) / max 1 size) = n := ⟨_, rfl⟩
  have hpos : 0 < n := by omega
  rw [hn]
  have hdiv := Nat.div_add_mod (x - g.first) n
  have hmod := Nat.mod_lt (x - g.first) hpos
  have hceil : (x - g.first) / n < ceilDiv g.count n := by
    have hle : (x - g.first + n) / n ≤ (g.count + n - 1) / n := Nat.div_le_div_right (by omega)
    rw [Nat.add_div_right _ hpos] at hle
    exact hle
  refine ⟨_, List.mem_map_of_mem (a := (x - g.first) / n) (mem_upFrom.2 ⟨Nat.zero_le _, ?_⟩), rfl, rfl, ?_, ?_⟩
  · rw [Nat.zero_add]
    exact hceil
  · dsimp only
    omega
  · dsimp only
    omega

/-- Every item of a placement that the layer has is in one of the placement's requests. -/
theorem State.exists_mem_placeRequests {s : State} {l : PlanLayer} {p : Placement} {n : Nat} (h1 : p.first ≤ n) (h2 : n < p.first + p.count)
    (ht : ∀ k, s.tilesIn l p.part = some k → n < k) :
    ∃ g ∈ s.placeRequests l p, g.kind = (if p.part = 2 then 3 else p.part) ∧ g.step = s.stepCurrent - 1
      ∧ g.first ≤ n ∧ n < g.first + g.count := by
  unfold State.placeRequests
  cases hk : s.tilesIn l p.part with
  | none => exact exists_mem_gatherPieces (by exact h1) (by exact h2) _
  | some k =>
    have hlt : n < p.first + min p.count (k - p.first) := by
      have := ht k hk
      omega
    exact exists_mem_gatherPieces (by exact h1) (by exact hlt) _

/-- Every item that a stack lacks of its layer's copy is asked for. -/
theorem State.exists_mem_copyRequests {s : State} {l : PlanLayer} {p : Placement} {n : Nat} (hp : p ∈ s.copyPlaces l)
    (hheld : s.isHeld l.layer (s.placeAddr p p.first).1 p.part (s.stepCurrent - 1) = false) (h1 : p.first ≤ n) (h2 : n < p.first + p.count)
    (ht : ∀ k, s.tilesIn l p.part = some k → n < k) :
    ∃ g ∈ s.copyRequests l, g.kind = (if p.part = 2 then 3 else p.part) ∧ g.step = s.stepCurrent - 1
      ∧ g.first ≤ n ∧ n < g.first + g.count := by
  have hsel : p ∈ (s.copyPlaces l).filter (fun p => p.count != 0 && !s.isHeld l.layer (s.placeAddr p p.first).1 p.part (s.stepCurrent - 1)) :=
    List.mem_filter.2 ⟨hp, by simp [hheld]; omega⟩
  obtain ⟨g, hg, hgs⟩ := State.exists_mem_placeRequests h1 h2 ht
  exact ⟨g, List.mem_flatMap.2 ⟨p, hsel, hg⟩, hgs⟩

theorem State.askGather_frame (s : State) (m : Nat) (g : GatherMsg) (rest : List Nat) (use : GatherUse) :
    ({ s with net := { s.net with gathers := s.net.gathers ++ [{ g := g, holder := m, rest := rest, use := use }] } } : State).Messaged
      (s.askGather m g rest use) :=
  State.messaged_message _ _ _ _ _

/-- Requests that have gone to a module are awaited, and what else they change is what messages change. -/
theorem State.askGathers_frame (s : State) (m : Nat) (gs : List GatherMsg) (rest : List Nat) (use : GatherUse) :
    ({ s with net := { s.net with gathers := s.net.gathers ++ gs.map (fun g => { g := g, holder := m, rest := rest, use := use }) } } : State).Messaged
      (gs.foldl (fun t g => t.askGather m g rest use) s) := by
  induction gs generalizing s with
  | nil =>
    rw [List.map_nil, List.append_nil]
    exact .refl s
  | cons g gs ih =>
    have h1 := s.askGather_frame m g rest use
    have h2 := ih (s.askGather m g rest use)
    rw [List.foldl_cons]
    obtain ⟨u, hu⟩ : ∃ u, s.askGather m g rest use = u := ⟨_, rfl⟩
    obtain ⟨t, ht⟩ : ∃ t, gs.foldl (fun t g => t.askGather m g rest use) (s.askGather m g rest use) = t := ⟨_, rfl⟩
    rw [ht, hu] at h2
    rw [hu] at h1
    rw [ht]
    refine ⟨?_, ?_⟩
    · have h := h2.only
      rw [h1.only] at h
      exact h
    · rw [h2.gathers]
      dsimp only
      rw [h1.gathers, List.append_assoc, List.map_cons]
      rfl

/-! ### The statement -/

/-- A piece that brings nothing new ends with its discard. -/
theorem State.exec_downhaul_of_old {s : State} {d : DownMsg} {l : PlanLayer} {src i : Nat} (hq : s.quiet) (hl : s.planLayer d.layer = some l)
    (hm : ∀ k, (s.stack k).merges = []) (hi : i < 64) (hr : s.reaches src (.down d) = true) (hp : d.part < 3)
    (h : (d.count ≠ 0 ∧ ∀ n, d.first ≤ n → n < d.first + d.count → s.downHas d n = true) ∨ s.copyHeld l d.part d.step = true) :
    exec (.downhaul src i d) s = .next (s.downDiscard i) := by
  rw [exec_downhaul hi hr, State.downArrives_of_old hl hp h]
  rw [State.askAllMerges_of_merges_nil (s := s.downDiscard i) hm]
  exact done_of_job_eq hq rfl

/-- A piece that is held leaves no line to merge, and nothing to stop. -/
theorem State.exec_downhaul_of_new {s : State} {d : DownMsg} {l : PlanLayer} {src i k : Nat} {h : HeldWrite} (hq : s.quiet)
    (hl : s.planLayer d.layer = some l) (hm : ∀ k, (s.stack k).merges = []) (hi : i < 64) (hr : s.reaches src (.down d) = true)
    (hp : d.part < 3) (hnew : ∀ n, d.first ≤ n → n < d.first + d.count → s.downHas d n = false) (hheld : s.copyHeld l d.part d.step = false)
    (hw : (s.downNoted i l d).copyWriteAll (heldOf d) = (s.downNoted i l d).updStack k (fun x => { x with held := x.held ++ [h] })) :
    exec (.downhaul src i d) s = .next (((s.downNoted i l d).updStack k (fun x => { x with held := x.held ++ [h] })).sendDown d) := by
  rw [exec_downhaul hi hr, State.downArrives_of_new hl hp hheld hnew, hw]
  obtain ⟨u, hu⟩ : ∃ u, s.downNoted i l d = u := ⟨_, rfl⟩
  obtain ⟨y, hy, -⟩ := s.downNoted_frame i l d
  rw [hu] at hy ⊢
  obtain ⟨v, hv⟩ : ∃ v, u.updStack k (fun x => { x with held := x.held ++ [h] }) = v := ⟨_, rfl⟩
  rw [hv]
  have hvm : ∀ j, (v.stack j).merges = [] := fun j => by
    have hum : (u.stack j).merges = [] := by
      rw [hy]
      exact hm j
    rw [← hv]
    by_cases hj : j = k
    · subst hj
      rw [u.stack_updStack]
      exact hum
    · rw [u.stack_updStack_other _ hj]
      exact hum
  have hvj : v.job = s.job := by
    rw [← hv, hy]
    rfl
  have ho := (v.messaged_sendDown d).only
  obtain ⟨t, ht⟩ : ∃ t, v.sendDown d = t := ⟨_, rfl⟩
  rw [ht] at ho ⊢
  rw [State.askAllMerges_of_merges_nil fun j => by rw [ho]; exact hvm j]
  exact done_of_job_eq hq (by rw [ho]; exact hvj)

/-- The time of a waiting unit has passed, and begins again (R466). -/
def State.waitedOut (s : State) (k u : Nat) : State :=
  (s.until ((s.unit k u).since + 1000 * s.halyard.downTimeout)).setUnit k u
    { s.unit k u with since := (s.until ((s.unit k u).since + 1000 * s.halyard.downTimeout)).micros }

/-- The request of a copy that a waiting unit misses (R466). -/
theorem exec_downhaulTimeout {s : State} {k u lay m : Nat} {l : PlanLayer} {rest : List Nat} (hk : k < numStacks) (hu : u < 4)
    (hw : s.waitedLayer k u = some lay) (hl : s.planLayer lay = some l)
    (hask : (if s.halyard.takenOver.contains lay then [l.mirror] else [l.owner, l.mirror]).filter s.reachable = m :: rest) :
    exec (.downhaulTimeout k u) s = done ((s.waitedOut k u).askCopy l m rest) := by
  obtain ⟨v, hv⟩ : ∃ v, s.waitedOut k u = v := ⟨_, rfl⟩
  have hask' : (if v.halyard.takenOver.contains lay then [l.mirror] else [l.owner, l.mirror]).filter v.reachable = m :: rest := by
    rw [← hv]
    exact hask
  rw [State.waitedOut] at hv
  show execDownhaulTimeout k u s = _
  simp only [execDownhaulTimeout, withUnit, if_pos (And.intro hk hu), hw, hl, State.waitedOut, hv, hask']

/-- A new piece has gone on, and waits at its stack (R111, R340, R465). -/
theorem State.pieceHeld {s v w : State} {i k : Nat} {l : PlanLayer} {d : DownMsg} (hf : d.first < 2 ^ 32) (hv : s.downNoted i l d = v)
    (hw : v.updStack k (fun x => { x with held := x.held ++ [heldOf d] }) = w) :
    (∀ n, d.first ≤ n → n < d.first + d.count → (w.sendDown d).downHas d n = true)
      ∧ (w.sendDown d).stack k = { s.stack k with held := (s.stack k).held ++ [heldOf d] }
      ∧ (∀ j, j ≠ k → (w.sendDown d).stack j = s.stack j) ∧ (w.sendDown d).cores = s.cores ∧ (w.sendDown d).job = s.job
      ∧ ∀ m ∈ s.downTargets d.layer, s.isLost m = false → (w.sendDown d).Leaves m (.down d) := by
  obtain ⟨y, hy, hmem⟩ := s.downNoted_frame i l d
  rw [hv] at hy
  have ho := (w.messaged_sendDown d).only
  have hwv : w = { v with hbm := w.hbm } := by
    rw [← hw]
    rfl
  rw [hy] at hwv
  have hsend : ∀ m ∈ s.downTargets d.layer, s.isLost m = false → (w.sendDown d).Leaves m (.down d) := fun m hm hlost => by
    refine State.leaves_messages (.down d) (ms := w.downTargets d.layer) ?_ ?_
    · rw [hwv]
      exact hm
    · rw [hwv]
      exact hlost
  obtain ⟨t, ht⟩ : ∃ t, w.sendDown d = t := ⟨_, rfl⟩
  rw [ht] at ho hsend ⊢
  refine ⟨fun n hle hlt => ?_, ?_, fun j hjk => ?_, ?_, ?_, hsend⟩
  · refine State.downHas_of_mem hf hle hlt ?_
    rw [ho, hwv]
    exact hmem
  · calc t.stack k = w.stack k := by rw [ho]; rfl
      _ = { v.stack k with held := (v.stack k).held ++ [heldOf d] } := by rw [← hw, v.stack_updStack]
      _ = _ := by rw [hy]; rfl
  · calc t.stack j = w.stack j := by rw [ho]; rfl
      _ = v.stack j := by rw [← hw, v.stack_updStack_other _ hjk]
      _ = s.stack j := by rw [hy]; rfl
  · rw [ho, hwv]
  · rw [ho, hwv]

/-- A unit has asked for its copy, and waits again (R466). -/
theorem State.copyAsked (s : State) (k u : Nat) (l : PlanLayer) (m : Nat) (rest : List Nat) {t : State}
    (ht : (s.waitedOut k u).askCopy l m rest = t) :
    t.net.gathers = s.net.gathers ++ (s.copyRequests l).map (fun g => { g := g, holder := m, rest := rest, use := .copy l.layer })
      ∧ 25 * ((s.unit k u).since + 1000 * s.halyard.downTimeout) ≤ t.aon ∧ t.unit k u = { s.unit k u with since := t.micros }
      ∧ t.cores = s.cores ∧ t.job = s.job ∧ ∀ j, (t.stack j).mem = (s.stack j).mem := by
  obtain ⟨w, hw⟩ : ∃ w, s.waitedOut k u = w := ⟨_, rfl⟩
  have hreq : w.copyRequests l = s.copyRequests l := by
    rw [← hw]
    rfl
  have hmem : ∀ j, (w.stack j).mem = (s.stack j).mem := fun j => by
    rw [← hw, State.waitedOut, (State.mem_setUnit _ _ _ _ j).1]
    rfl
  have hunit : w.unit k u = { s.unit k u with since := w.micros } := by
    rw [← hw, State.waitedOut, State.unit_setUnit]
    rfl
  have honly : w = { s with aon := w.aon, hbm := w.hbm } := by
    rw [← hw]
    rfl
  have haon : 25 * ((s.unit k u).since + 1000 * s.halyard.downTimeout) ≤ w.aon := by
    rw [← hw]
    exact Nat.le_max_right _ _
  have hask := w.askGathers_frame m (w.copyRequests l) rest (.copy l.layer)
  rw [hw] at ht
  rw [show (w.copyRequests l).foldl (fun t g => t.askGather m g rest (.copy l.layer)) w = t from ht, hreq] at hask
  obtain ⟨ho, hg⟩ := hask
  refine ⟨?_, ?_, ?_, ?_, ?_, fun j => ?_⟩
  · rw [hg, honly]
  · rw [ho]
    exact haon
  · rw [ho]
    exact hunit
  · rw [ho, honly]
  · rw [ho, honly]
  · rw [ho]
    exact hmem j

/-- Settles O31: a piece that brings nothing new is discarded, a new one is noted, held at its stack and sent on, and a copy that is missed is
asked for in requests that cover it. -/
theorem downhaulsArrive : Obligations.DownhaulsArrive := by
  intro s d l hq hl hm
  refine ⟨fun src i hi hr hp h => ?_, fun src i k p c hi hr hp hnew hheld hat _ hf hs hctr hrel hj hpl hpart hk h1 h2 => ?_,
    fun k u m rest hk hu hw hask => ?_⟩
  · refine ⟨_, State.exec_downhaul_of_old hq hl hm hi hr hp h, rfl, ?_⟩
    simp [State.downDiscard, State.halCount]
  · obtain ⟨v, hv⟩ : ∃ v, s.downNoted i l d = v := ⟨_, rfl⟩
    have hwrite := State.originDown_held hl hs hpl hpart hk h1 h2 hat hctr hrel hj hv
    have hexec := State.exec_downhaul_of_new hq hl hm hi hr hp hnew hheld (hv ▸ hwrite)
    rw [hv] at hexec
    exact ⟨_, hexec, State.pieceHeld hf hv rfl⟩
  · obtain ⟨t, ht⟩ : ∃ t, (s.waitedOut k u).askCopy l m rest = t := ⟨_, rfl⟩
    have hexec := exec_downhaulTimeout hk hu hw hl hask
    rw [ht] at hexec
    obtain ⟨hgathers, haon, hunit, hcores, hjob, hmem⟩ := s.copyAsked k u l m rest ht
    exact ⟨t, hexec.trans (done_of_job_eq hq hjob), hgathers,
      fun p hp hheld n h1 h2 hlt => State.exists_mem_copyRequests hp hheld h1 h2 hlt, haon, hunit, hcores, hjob, hmem⟩

end Sys2Proof.Machine
end

section
/-!
Cold and Warm resets (R303, R624, R682 to R692): what the end of an NV pulse changes, and what a reset that asserts keeps.
-/

namespace Sys2Proof.Machine

/-! ### The end of a pulse (R691, R692) -/

/-- What the NV store holds once a reset has ended its pulse: a write whose pulse has run past 120 µs is as if never made. -/
def State.nvKept (s : State) : NvImage :=
  match s.nv.pulse with
  | some p => if s.nv.overrun s.micros = true then p.2 else s.nvImage
  | none => s.nvImage

/-- The end of a pulse changes what the NV store holds, and nothing else. -/
theorem State.nvEnd_frame (s : State) :
    s.nvEnd = { s with reset_ := { s.reset_ with failedStarts := s.nvEnd.reset_.failedStarts }
                       fw := { s.fw with confirmStored := s.nvEnd.fw.confirmStored, authCounter := s.nvEnd.fw.authCounter
                                         authKeys := s.nvEnd.fw.authKeys, rateCap := s.nvEnd.fw.rateCap }
                       log := { s.log with nv := s.nvEnd.log.nv }
                       power := { s.power with sheetLimit := s.nvEnd.power.sheetLimit, turnOnSlew := s.nvEnd.power.turnOnSlew
                                               turnOnWait := s.nvEnd.power.turnOnWait }
                       fieldNet := s.nvEnd.fieldNet
                       nv := s.nvEnd.nv } := by
  unfold State.nvEnd
  split
  · rfl
  · split <;> rfl

theorem State.nvEnd_image {s : State} (h : s.reset_.pending ≠ none) : s.nvEnd.nvImage = s.nvKept := by
  have hp : s.reset_.pending.isSome = true := Option.isSome_iff_ne_none.2 h
  cases hn : s.nv.pulse with
  | none => simp only [State.nvEnd, State.nvKept, hn]
  | some p =>
    cases ho : s.nv.overrun s.micros with
    | false =>
      simp only [State.nvEnd, State.nvKept, hn, hp, ho, Bool.and_false, Bool.false_eq_true, if_false]
      rfl
    | true =>
      simp only [State.nvEnd, State.nvKept, hn, hp, ho, Bool.and_true, if_true]
      rfl

/-! ### The reset (R303, R682, R685) -/

/-- A Warm reset keeps the memory of every stack; no other keeps any. -/
theorem State.stack_restart (s : State) (code : Nat) (warm : Bool) (k : Nat) :
    ((s.restart code warm).stack k).mem = if warm then (s.stack k).mem else [] := by
  have h := Tab.get_map (fun x : StackSt => if warm then x.warm else x.lost) StackSt.reset s.hbm k
  cases warm with
  | true => exact (congrArg StackSt.mem h).trans rfl
  | false => exact (congrArg StackSt.mem h).trans rfl

/-- A reset of a module whose checkpoint does not run, and whose first event tells of it. -/
theorem State.assertReset_of_pending {s : State} {code : Nat} {scope : Scope} (hp : s.reset_.pending = some (code, scope))
    (hc : s.job.ckpt.st = 0) :
    s.assertReset = (s.restart code (scope = .warm && s.power.powerState != 4)).event "RESET" clsRESET srcModule 0 [code] := by
  simp only [State.assertReset, hp, State.noteAborted, hc, true_or, if_true]

/-! ### The two ways to it -/

theorem exec_resetAssert_of_pulse {s : State} (hn : s.nv.pulse ≠ none) (ho : s.nv.overrun s.micros = false) : exec .resetAssert s = .next s := by
  show execResetAssert s = _
  simp only [execResetAssert, Option.isSome_iff_ne_none.2 hn, ho, Bool.not_false, Bool.and_self, if_true, ite_self]

/-- A reset that waits asserts outside a pulse, after one that has run past 120 µs, and at the end of one. -/
theorem exec_of_assert {s : State} {i : Instr} (hp : s.reset_.pending ≠ none)
    (hi : i = .resetAssert ∧ s.power.cartouche = true ∧ (s.nv.pulse = none ∨ s.nv.overrun s.micros = true)
      ∨ i = .nvPulseEnd ∧ s.nv.pulse ≠ none) : exec i s = done s.nvEnd.assertReset := by
  rcases hi with ⟨rfl, hcart, hn⟩ | ⟨rfl, hn⟩
  · show execResetAssert s = _
    have hpend : (s.reset_.pending.isNone || !s.power.cartouche) = false := by
      rw [hcart, Option.isNone_eq_false_iff.2 (Option.isSome_iff_ne_none.2 hp)]
      rfl
    have hpulse : (s.nv.pulse.isSome && !s.nv.overrun s.micros) = false := by
      rcases hn with h | h <;> simp [h]
    simp only [execResetAssert, hpend, hpulse, Bool.false_eq_true, if_false]
  · show execNvPulseEnd s = _
    rw [execNvPulseEnd, Option.isNone_eq_false_iff.2 (Option.isSome_iff_ne_none.2 hn), if_neg (by decide)]

/-- Settles O48: a reset that asserts ends the pulse, and starts the module again from what its scope keeps. -/
theorem resetsStartAgain : Obligations.ResetsStartAgain := by
  intro s code scope _ hp hc
  refine ⟨exec_resetAssert_of_pulse, fun i v hi hv => ?_⟩
  have hpend : s.reset_.pending ≠ none := by simp [hp]
  have hframe := s.nvEnd_frame
  have himage : s.nvEnd.nvImage = v := (State.nvEnd_image hpend).trans hv.symm
  have hexec := exec_of_assert hpend hi
  obtain ⟨w, hw⟩ : ∃ w, s.nvEnd = w := ⟨_, rfl⟩
  rw [hw] at hframe himage hexec
  have hpw : w.reset_.pending = some (code, scope) := by
    rw [hframe]
    exact hp
  have hcw : w.job.ckpt.st = 0 := by
    rw [hframe]
    exact hc
  have hpower : w.power.powerState = s.power.powerState := by rw [hframe]
  have hmem : ∀ k, (w.stack k).mem = (s.stack k).mem := fun k => by
    rw [hframe]
    rfl
  rw [State.assertReset_of_pending hpw hcw, hpower] at hexec
  obtain ⟨warm, hwarm⟩ : ∃ warm : Bool, (decide (scope = .warm) && s.power.powerState != 4) = warm := ⟨_, rfl⟩
  rw [hwarm] at hexec
  obtain ⟨t, ht⟩ : ∃ t, (w.restart code warm).event "RESET" clsRESET srcModule 0 [code] = t := ⟨_, rfl⟩
  have hreset : t.reset_ = (w.restart code warm).reset_ := by rw [← ht, State.event_reset]
  have hjob : t.job = (w.restart code warm).job := by rw [← ht, State.event_job]
  have hfw : t.fw = w.fw.restart := by
    rw [← ht, State.event_fw]
    rfl
  have hstack : ∀ k, (t.stack k).mem = if warm then (s.stack k).mem else [] := fun k => by
    rw [← hmem, ← w.stack_restart code warm k, ← ht, State.stack, State.event_hbm, State.stack]
  rw [ht] at hexec
  refine ⟨t, hexec.trans (done_quiet t (by rw [State.quiet, hjob]; exact ⟨rfl, rfl, rfl⟩)), by rw [hreset]; rfl, by rw [hreset]; rfl,
    by rw [hreset]; rfl, by rw [hreset]; rfl, by rw [hjob]; rfl, by rw [hjob]; rfl, ?_, ?_, ?_, ?_, by rw [hfw, hframe]; rfl,
    by rw [hfw, hframe]; rfl, by rw [hfw, ← himage]; rfl, by rw [hfw, ← himage]; rfl, by rw [hreset, ← himage]; rfl, ?_, fun hs hps => ?_,
    fun hs => ?_⟩
  · rw [← ht, State.event_cores]
    rfl
  · rw [← ht, State.event_flight]
    rfl
  · rw [← ht, State.event_log]
    rfl
  · rw [← ht, State.event_wafer, hframe]
    rfl
  · rw [← ht, State.event_pending, hframe]
    rfl
  · have hw1 : warm = true := by simp [← hwarm, hs, hps]
    subst hw1
    exact ⟨by rw [hreset]; rfl, hstack⟩
  · have hw0 : warm = false := by simp [← hwarm, hs]
    subst hw0
    exact ⟨by rw [hreset]; rfl, hstack⟩

end Sys2Proof.Machine
end

section
/-!
Merge areas (R439, R442 to R444, R796): the words of a block that the stream buffer holds.
-/

namespace Sys2Proof.Machine

/-! ### Lists of fixed-size parts -/

theorem map_upFrom_getD {α : Type} (l : List α) (d : α) : (upFrom 0 l.length).map (fun i => l.getD i d) = l := by
  refine List.ext_getElem? fun i => ?_
  rw [List.getElem?_map]
  by_cases hi : i < l.length
  · rw [getElem?_upFrom.2 ⟨hi, rfl⟩]
    simp [hi]
  · rw [List.getElem?_eq_none (by simpa using hi), List.getElem?_eq_none (by simpa using hi), Option.map_none]

theorem getD_mem {α : Type} {l : List α} {i : Nat} (h : i < l.length) (d : α) : l.getD i d ∈ l := by
  rw [List.getD_eq_getElem _ _ h]
  exact List.getElem_mem h

/-- The parts of a list of bytes that are of one size lie one after the other. -/
theorem slice_flatMap {α : Type} {f : α → List Byte} {n : Nat} (hf : ∀ x, (f x).length = n) {l : List α} {k : Nat} (d : α)
    (hk : k < l.length) : slice (l.flatMap f) (n * k) n = f (l.getD k d) := by
  induction l generalizing k with
  | nil => cases hk
  | cons x l ih =>
    rw [slice, List.flatMap_cons]
    cases k with
    | zero => rw [Nat.mul_zero, List.drop_zero, List.take_append_of_le_length (by rw [hf]), List.take_of_length_le (by rw [hf]), List.getD_cons_zero]
    | succ k =>
      have hdrop : n * (k + 1) = (f x).length + n * k := by rw [hf, Nat.mul_succ, Nat.add_comm]
      rw [hdrop, List.drop_length_add_append, List.getD_cons_succ]
      exact ih (Nat.lt_of_succ_lt_succ hk)

/-- The rows of a list of rows of one length lie one after the other. -/
theorem getD_flatten {α : Type} {l : List (List α)} {c i j : Nat} (d : α) (h : ∀ r ∈ l, r.length = c) (hi : i < l.length) (hj : j < c) :
    l.flatten.getD (c * i + j) d = (l.getD i []).getD j d := by
  induction l generalizing i with
  | nil => cases hi
  | cons r l ih =>
    obtain ⟨hr, hl⟩ := List.forall_mem_cons.1 h
    rw [List.flatten_cons]
    cases i with
    | zero => rw [Nat.mul_zero, Nat.zero_add, List.getD_append _ _ _ _ (by omega), List.getD_cons_zero]
    | succ i =>
      have hat : c * (i + 1) + j = r.length + (c * i + j) := by rw [hr, Nat.mul_succ]; omega
      rw [hat, List.getD_append_right _ _ _ _ (Nat.le_add_right _ _), Nat.add_sub_cancel_left, List.getD_cons_succ]
      exact ih hl (Nat.lt_of_succ_lt_succ hi)

/-! ### Words of 48 bits (R442) -/

/-- A 48-bit word comes back from its six bytes. -/
theorem signed_leNat_leBytes {w : Int} (h1 : -2 ^ 47 ≤ w) (h2 : w < 2 ^ 47) : signed (leNat (leBytes ((w % 2 ^ 48).toNat) 6)) 48 = w := by
  rw [leNat_leBytes, signed]
  norm_num at h1 h2 ⊢
  split <;> omega

theorem DexBlock.length_data {b : DexBlock} {n : Nat} (h : ∀ r ∈ b.rows, r.length = n) : b.data.length = 6 * n * b.rows.length := by
  rw [DexBlock.data, List.length_flatMap, List.map_congr_left (g := fun _ => 6) (fun w _ => leBytes_length _ 6), List.map_const',
    List.sum_replicate, length_flatten_const h, smul_eq_mul]
  ring

/-- The bytes of a word of a block (R442). -/
theorem DexBlock.slice_data {b : DexBlock} {n i j : Nat} (h : ∀ r ∈ b.rows, r.length = n) (hi : i < b.rows.length) (hj : j < n) :
    slice b.data (6 * (n * i + j)) 6 = leBytes ((((b.rows.getD i []).getD j 0) % 2 ^ 48).toNat) 6 := by
  have hk : n * i + j < b.rows.flatten.length := by
    rw [length_flatten_const h]
    nlinarith
  rw [DexBlock.data, slice_flatMap (fun w => leBytes_length _ 6) 0 hk, getD_flatten 0 h hi hj]

/-! ### The stream buffer -/

/-- Bytes that do not reach past the stream buffer's end are written in their order. -/
theorem foldl_write_zip {m : Memory} {a size : Nat} {l : List Byte} (h : a + l.length ≤ size) :
    (l.zip (upFrom a l.length)).foldl (fun m x => Memory.write m (x.2 % size) x.1) m = Memory.writeN m a l := by
  induction l generalizing a m with
  | nil => rfl
  | cons b l ih =>
    rw [List.length_cons] at h
    rw [List.length_cons, upFrom, List.zip_cons_cons, List.foldl_cons, Nat.mod_eq_of_lt (by omega : a < size), Memory.writeN]
    exact ih (by omega)

theorem map_read_upFrom {m : Memory} {a size n : Nat} (h : a + n ≤ size) :
    (upFrom a n).map (fun i => Memory.read m (i % size)) = Memory.readN m a n := by
  induction n generalizing a with
  | zero => rfl
  | succ n ih => rw [upFrom, List.map_cons, ih (by omega), Nat.mod_eq_of_lt (by omega : a < size), Memory.readN]

/-- A block that has been written within the stream buffer is read back (R443). -/
theorem CoreSt.mergeWords_of_data {c : CoreSt} {u : MergeBlk} {b : DexBlock} {n : Nat} (hrows : u.rows = b.rows.length)
    (hcols : u.cols = (b.rows.headD []).length) (hb : ∀ r ∈ b.rows, r.length = n ∧ ∀ w ∈ r, -2 ^ 47 ≤ w ∧ w < 2 ^ 47)
    (hend : u.addr + 6 * n * b.rows.length ≤ memBytes true) (hread : Memory.readN c.sbuf u.addr (6 * n * b.rows.length) = b.data) :
    c.mergeWords u = b.rows := by
  have hlen : ∀ r ∈ b.rows, r.length = n := fun r hr => (hb r hr).1
  have hword : ∀ i < b.rows.length, ∀ j < n, signed (leNat (c.sbufRead (u.addr + 6 * (n * i + j)) 6)) 48 = (b.rows.getD i []).getD j 0 := by
    intro i hi j hj
    have hmem := getD_mem hi ([] : List Int)
    have hfit : 6 * (n * i + j) + 6 ≤ 6 * n * b.rows.length := by nlinarith
    rw [CoreSt.sbufRead, map_read_upFrom (by omega), ← Memory.slice_readN _ _ hfit, hread, DexBlock.slice_data hlen hi hj]
    obtain ⟨h1, h2⟩ := (hb _ hmem).2 _ (getD_mem (show j < (b.rows.getD i []).length by rw [hlen _ hmem]; exact hj) 0)
    exact signed_leNat_leBytes h1 h2
  refine Eq.trans ?_ (map_upFrom_getD b.rows [])
  rw [CoreSt.mergeWords, hrows]
  refine List.map_congr_left fun i hi => ?_
  obtain ⟨-, hi⟩ := mem_upFrom.1 hi
  rw [Nat.zero_add] at hi
  have hmem := getD_mem hi ([] : List Int)
  have hc : u.cols = n := by
    rw [hcols]
    cases hr : b.rows with
    | nil => rw [hr] at hi; cases hi
    | cons r l => exact hlen r (hr ▸ List.mem_cons_self)
  refine Eq.trans ?_ (map_upFrom_getD (b.rows.getD i []) 0)
  rw [hc, hlen _ hmem]
  refine List.map_congr_left fun j hj => ?_
  obtain ⟨-, hj⟩ := mem_upFrom.1 hj
  exact hword i hi j (by omega)

/-! ### A block that arrives (R442 to R444) -/

/-- A block as the merge area of its entry holds it. -/
def heldBlk (m : ContribMsg) (e : HalEntry) (b : DexBlock) : MergeBlk :=
  { htab := m.htab, layer := m.layer, tile := m.tile, addr := e.slotAddr (b.idx % e.mergeSlots), rows := b.rows.length,
    cols := (b.rows.headD []).length, blk := { b with rows := [] } }

/-- A block enters its merge slot. -/
def CoreSt.takeBlk (c : CoreSt) (u : MergeBlk) (data : List Byte) : CoreSt := { c.sbufWrite u.addr data with merge := c.merge ++ [u] }

/-- A block within the stream buffer is written in its place. -/
theorem CoreSt.takeBlk_of_le {u : MergeBlk} {data : List Byte} (h : u.addr + data.length ≤ memBytes true) (c : CoreSt) :
    c.takeBlk u data = { c with merge := c.merge ++ [u], sbuf := Memory.writeN c.sbuf u.addr data, sramErr := (c.takeBlk u data).sramErr } := by
  rw [← foldl_write_zip h]
  rfl

/-- Nothing is merged at a core whose DEXITs have none that waits. -/
theorem State.mergeAll_of_dexits_nil {s : State} {n : Nat} (h : (s.core n).dexits = []) (f : Nat) : s.mergeAll n f = s := by
  cases f with
  | zero => rfl
  | succ f => simp only [State.mergeAll, State.mergeStep, h]

/-- A block has landed, and its message has left the way or goes on with `l`. -/
def State.blkLanded (s : State) (m : ContribMsg) (l : List ContribMsg) : State :=
  ({ s with flight := { s.flight with contribs := l } } : State).landed (m.pkts.take 1)

theorem exec_halyardMergeBlock {s : State} {n : Nat} {m : ContribMsg} {b : DexBlock} {bs : List DexBlock} {e : HalEntry} (hn : n < numCores)
    (hm : s.nextMerge n [] s.flight.contribs = some m) (hb : m.blocks = b :: bs) (he : s.entryOf n m.htab = some e) :
    ∃ l t, (s.blkLanded m l).updCore n (fun c => c.takeBlk (heldBlk m e b) b.data) = t
      ∧ exec (.halyardMergeBlock n) s = done (t.mergeAll n (t.core n).merge.length) ∧ (bs = [] → l = s.flight.contribs.erase m) := by
  cases bs with
  | nil =>
    refine ⟨s.flight.contribs.erase m, _, rfl, ?_, fun _ => rfl⟩
    show execHalyardMergeBlock n s = _
    simp only [execHalyardMergeBlock, withCore, if_pos hn, hm, he, hb, List.head?_cons, State.blkLanded, CoreSt.takeBlk, heldBlk]
  | cons b' bs =>
    refine ⟨s.flight.contribs.map (fun x => if x = m then { x with blocks := x.blocks.drop 1, pkts := x.pkts.drop 1 } else x), _, rfl, ?_,
      fun h => nomatch h⟩
    show execHalyardMergeBlock n s = _
    simp only [execHalyardMergeBlock, withCore, if_pos hn, hm, he, hb, List.head?_cons, State.blkLanded, CoreSt.takeBlk, heldBlk]

/-- The next block for a core none of whose DEXITs waits is held in the stream buffer (R443). -/
theorem State.blockHeld {s : State} {n : Nat} {m : ContribMsg} {b : DexBlock} {bs : List DexBlock} {e : HalEntry} (hq : s.quiet) (hok : s.memOk)
    (hn : n < numCores) (hm : s.nextMerge n [] s.flight.contribs = some m) (hb : m.blocks = b :: bs) (he : s.entryOf n m.htab = some e)
    (hd : (s.core n).dexits = []) (hrows : ∀ r ∈ b.rows, r.length = e.n ∧ ∀ w ∈ r, -2 ^ 47 ≤ w ∧ w < 2 ^ 47)
    (hend : e.slotAddr (b.idx % e.mergeSlots) + 6 * e.n * b.rows.length ≤ memBytes true) :
    ∃ t, exec (.halyardMergeBlock n) s = .next t ∧ (∀ k, k ≠ n → t.core k = s.core k)
      ∧ t.core n = { s.core n with merge := (s.core n).merge ++ [heldBlk m e b], sbuf := (t.core n).sbuf, sramErr := (t.core n).sramErr }
      ∧ (t.core n).mergeWords (heldBlk m e b) = b.rows
      ∧ Memory.sameOutside (s.core n).sbuf (t.core n).sbuf (e.slotAddr (b.idx % e.mergeSlots)) (6 * e.n * b.rows.length)
      ∧ t = { s with cores := t.cores, flight := { s.flight with contribs := t.flight.contribs }
                     gaz := { s.gaz with blocks := t.gaz.blocks } }
      ∧ (bs = [] → t.flight.contribs = s.flight.contribs.erase m) := by
  obtain ⟨l, t, ht, hexec, hl⟩ := exec_halyardMergeBlock hn hm hb he
  obtain ⟨x, hx⟩ := ({ s with flight := { s.flight with contribs := l } } : State).landed_blocks (m.pkts.take 1)
  rw [State.blkLanded, hx] at ht
  have hlen : b.data.length = 6 * e.n * b.rows.length := DexBlock.length_data fun r hr => (hrows r hr).1
  obtain ⟨-, hwf, -⟩ := State.wf_core hok n
  have hcore : t.core n = (s.core n).takeBlk (heldBlk m e b) b.data := by
    rw [← ht, State.core_updCore]
    rfl
  rw [CoreSt.takeBlk_of_le (by rw [hlen]; exact hend)] at hcore
  have hsbuf : (t.core n).sbuf = Memory.writeN (s.core n).sbuf (heldBlk m e b).addr b.data := by rw [hcore]
  refine ⟨t, ?_, fun k hk => ?_, ?_, ?_, ?_, ?_, fun hbs => ?_⟩
  · rw [hexec, State.mergeAll_of_dexits_nil (by rw [hcore]; exact hd)]
    exact done_of_job_eq hq (by rw [← ht]; rfl)
  · rw [← ht, State.core_updCore_other _ _ hk]
    rfl
  · rw [hcore]
  · refine CoreSt.mergeWords_of_data rfl rfl hrows hend ?_
    rw [hsbuf, ← hlen]
    exact Memory.readN_writeN hwf _ _
  · rw [hsbuf, ← hlen]
    exact fun a ha => Memory.read_writeN_outside hwf _ ha
  · rw [← ht]
    rfl
  · rw [← ht]
    exact hl hbs

end Sys2Proof.Machine
end

section
/-!
The ledger (R343 to R346): the header area, and a contribution that takes a tile's place.
-/

namespace Sys2Proof.Machine

/-! ### The header area (R344) -/

theorem LedgerHdr.length_bytes (h : LedgerHdr) (expect : Nat) : (h.bytes expect).length = 576 := by
  simp [LedgerHdr.bytes, zeros]

/-- The step, the attempt and the count of a header area. -/
theorem LedgerHdr.of_bytes (h : LedgerHdr) (expect : Nat) :
    (ledgerHdrOf (h.bytes expect)).step = h.step % 2 ^ 32 ∧ (ledgerHdrOf (h.bytes expect)).attempt = h.attempt % 256
      ∧ (ledgerHdrOf (h.bytes expect)).count = h.count % 256 := by
  refine ⟨?_, ?_, ?_⟩
  · exact leNat_leBytes h.step 4
  · exact leNat_leBytes h.attempt 1
  · exact leNat_leBytes h.count 1

/-! ### A contribution of another step (R345, R346) -/

/-- The header area of a tile that a contribution has taken over (R346). -/
def ContribMsg.hdr (c : ContribMsg) : LedgerHdr :=
  { step := c.step, attempt := c.attempt, count := 1, tokens := (ownOfBlocks c.blocks).tokens, sat := (ownOfBlocks c.blocks).saturations,
    nonfin := (ownOfBlocks c.blocks).nonfinite, amax := (ownOfBlocks c.blocks).codes }

/-- What a contribution writes in the place of another step's (R346). -/
def ContribMsg.tileData (c : ContribMsg) (expect : Nat) : List Byte :=
  c.hdr.bytes expect ++ ledgerRows c.m ((c.blocks.mergeSort (fun x y => x.idx ≤ y.idx)).flatMap (fun b => b.rows))

/-- The header area that has been written is read back. -/
theorem ContribMsg.readN_tileData (c : ContribMsg) {mem : Memory} (h : Memory.wf mem = true) (a expect : Nat) :
    Memory.readN (Memory.writeN mem a (c.tileData expect)) a 576 = c.hdr.bytes expect := by
  have hlen := c.hdr.length_bytes expect
  have hle : 576 ≤ (c.tileData expect).length := by
    rw [ContribMsg.tileData, List.length_append, hlen]
    exact Nat.le_add_right _ _
  rw [← Memory.take_readN _ _ hle, Memory.readN_writeN h, ContribMsg.tileData, ← hlen, List.take_left]

/-- The contribution has been read with its tile, and is on its way no more. -/
def State.ledgerRead (s : State) (k a : Nat) (c : ContribMsg) : State :=
  ({ (s.readHbm k a (576 + 4096 * ceilDiv c.m 8) .adder).1 with
     flight := { s.flight with contribs := s.flight.contribs.erase c } } : State).landed c.pkts

/-- One more contribution has been added. -/
def StackSt.ledgerAdded (x : StackSt) : StackSt := { x with counts := { x.counts with ledgerAdds := satAdd32 x.counts.ledgerAdds 1 } }

/-- A contribution has been added, and is counted (R756). -/
def State.ledgerCounted (s : State) (k n : Nat) : State := (s.updStack k StackSt.ledgerAdded).count (blkStack k) evLEDGER_ELEMENTS 0 64 n

theorem exec_ledgerContribution {s : State} {k : Nat} {c : ContribMsg} {e : HalEntry} {tile : LedgerTile} (hk : k < numStacks) (hc : s.clean k)
    (hm : s.flight.contribs.find? (fun m => decide (m.dest = .ledger k) && m.blocks.any (fun b => b.last)) = some c)
    (he : s.entryOf c.src c.htab = some e) (ht : s.ledgerTile ((s.logicalOf c.src).getD 0) c.htab (c.tile - e.tileFirst) = some tile)
    (hrows : c.m = tile.m) (hcols : c.n = tile.n) (hx : tile.expect ≠ 1)
    (hd : (ledgerHdrOf (s.readStack k (s.ledgerPlace tile).2 576)).step ≠ c.step
      ∨ (ledgerHdrOf (s.readStack k (s.ledgerPlace tile).2 576)).attempt ≠ c.attempt) :
    exec (.ledgerContribution k) s
      = done (((s.ledgerRead k (s.ledgerPlace tile).2 c).writeHbm k (s.ledgerPlace tile).2 (c.tileData tile.expect) .adder).ledgerCounted k
          (c.m * c.n / 64)) := by
  obtain ⟨a, ha⟩ : ∃ a, (s.ledgerPlace tile).2 = a := ⟨_, rfl⟩
  rw [ha] at hd ⊢
  have hread : (s.readHbm k a (576 + 4096 * ceilDiv c.m 8) .adder).2 = some (Memory.readN (s.stack k).mem a (576 + 4096 * ceilDiv c.m 8)) := by
    rw [State.readHbm_clean hc]
  have htake : (Memory.readN (s.stack k).mem a (576 + 4096 * ceilDiv c.m 8)).take 576 = s.readStack k a 576 :=
    Memory.take_readN _ _ (Nat.le_add_right _ _)
  have hsame : (decide ((ledgerHdrOf (s.readStack k a 576)).step = c.step)
      && decide ((ledgerHdrOf (s.readStack k a 576)).attempt = c.attempt)) = false := by
    rcases hd with h | h <;> simp [h]
  have hm' : (c.m != tile.m) = false := by simp [hrows]
  have hn' : (c.n != tile.n) = false := by simp [hcols]
  show execLedgerContribution k s = _
  simp only [execLedgerContribution, withStack, if_pos hk, hm, he, ht, Option.bind_some, ha, hread, htake, hsame, hm', hn', Bool.false_and,
    Bool.or_self, Bool.false_eq_true, if_false, decide_eq_false (Ne.symm hx), if_neg (Ne.symm hx)]
  rfl

theorem State.ledgerRead_frame {s : State} {k : Nat} (hc : s.clean k) (a : Nat) (c : ContribMsg) :
    ∃ x, s.ledgerRead k a c = { s.setStack k (s.stack k) with flight := { s.flight with contribs := s.flight.contribs.erase c }
                                                              gaz := { s.gaz with blocks := x } } := by
  obtain ⟨x, hx⟩ := s.linesAt_blocks k a (576 + 4096 * ceilDiv c.m 8) .adder
  obtain ⟨y, hy⟩ := ({ s.setStack k (s.stack k) with flight := { s.flight with contribs := s.flight.contribs.erase c }
                                                     gaz := { s.gaz with blocks := x } } : State).landed_blocks c.pkts
  refine ⟨y, ?_⟩
  rw [State.ledgerRead, State.readHbm_clean hc, hx]
  exact hy

/-- A stack's own record is what it was. -/
theorem State.stack_setStack_stack (s : State) (k j : Nat) : (s.setStack k (s.stack k)).stack j = s.stack j := by
  by_cases hj : j = k
  · subst hj
    exact s.stack_setStack _ _
  · exact s.stack_setStack_other _ hj

/-- What a contribution leaves that has taken a tile's place: its header area and rows in the tile, and one addition more. -/
theorem State.ledgerTaken {s t : State} {k a n : Nat} {c : ContribMsg} {data : List Byte} (hc : s.clean k)
    (ht : ((s.ledgerRead k a c).writeHbm k a data .adder).ledgerCounted k n = t) :
    (∀ j, j ≠ k → t.stack j = s.stack j) ∧ (t.stack k).mem = Memory.writeN (s.stack k).mem a data
      ∧ (t.stack k).counts.ledgerAdds = satAdd32 (s.stack k).counts.ledgerAdds 1
      ∧ t = { s with hbm := t.hbm, flight := { s.flight with contribs := s.flight.contribs.erase c }, gaz := t.gaz } := by
  obtain ⟨x, hx⟩ := State.ledgerRead_frame hc a c
  obtain ⟨v, hv⟩ : ∃ v, s.ledgerRead k a c = v := ⟨_, rfl⟩
  rw [hv] at hx ht
  have hstack : ∀ j, v.stack j = s.stack j := fun j => by
    rw [hx]
    exact s.stack_setStack_stack k j
  have hcv : v.clean k := by
    rw [State.clean, hstack]
    exact hc
  obtain ⟨y, hy⟩ := v.linesAt_blocks k a data.length .adder
  rw [State.writeHbm_clean hcv, hy] at ht
  obtain ⟨w, hw⟩ : ∃ w, ({ v with gaz := { v.gaz with blocks := y } } : State).writeStack k a data .adder = w := ⟨_, rfl⟩
  rw [hw, State.ledgerCounted] at ht
  obtain ⟨z, hz⟩ := (w.updStack k StackSt.ledgerAdded).count_blocks (b := blkStack k) (by simp only [blkStack]; omega)
    evLEDGER_ELEMENTS 0 64 n
  rw [hz] at ht
  have hwk : w.stack k = (s.stack k).write a data .adder := by
    rw [← hw, State.stack_writeStack, ← hstack]
    rfl
  rw [StackSt.write_clean hc] at hwk
  have htk : t.stack k = (w.stack k).ledgerAdded := by
    rw [← ht]
    exact w.stack_updStack k StackSt.ledgerAdded
  refine ⟨fun j hj => ?_, ?_, ?_, ?_⟩
  · calc t.stack j = w.stack j := by
          rw [← ht]
          exact w.stack_updStack_other StackSt.ledgerAdded hj
      _ = v.stack j := by
          rw [← hw]
          exact State.stack_writeStack_other _ a data .adder hj
      _ = s.stack j := hstack j
  · rw [htk, hwk]
    rfl
  · rw [htk, hwk]
    rfl
  · rw [← ht, ← hw, hx]
    rfl

end Sys2Proof.Machine
end

section
/-!
The module's own partial (R447 to R450), and the statement about contributions.
-/

namespace Sys2Proof.Machine

/-! ### Open sums (R448, R449) -/

/-- A sum that has been put stands open. -/
theorem State.openSum_putSum (s : State) (o : OpenSum) : (s.putSum o).openSum o.group o.layer o.tile o.step o.round = some o := by
  have hnone : (s.halyard.sums.filter (fun x => !(x.is o.group o.layer o.tile o.step o.round))).find?
      (fun x => x.is o.group o.layer o.tile o.step o.round) = none := List.find?_eq_none.2 fun x hx => by simpa using (List.mem_filter.1 hx).2
  show (s.halyard.sums.filter _ ++ [o]).find? _ = some o
  rw [List.find?_append, hnone]
  simp [OpenSum.is]

/-- An own partial within the bound of R434 waits for its upstream sums. -/
theorem State.tryForward_of_own {s : State} {c : ChainEntry} {o : OpenSum} {v : SumVal} (ho : o.own = some v) (hup : o.up = none)
    (hcount : o.upCount = 0) (hc : c.upstream ≠ 0) (hr : s.roleOf o.layer ≠ 3) (hv : v.contributors ≤ maxContributors) :
    s.tryForward c o = s.putSum o := by
  have hcontribs : ¬ o.contribs > maxContributors := by
    simp only [OpenSum.contribs, OpenSum.total, ho, hup, if_true, Option.map_some, Option.getD_some]
    omega
  have hups : (o.own.isSome && decide (o.upCount ≥ c.upstream)) = false := by
    rw [hcount, decide_eq_false (by omega), Bool.and_false]
  have hrole : (decide (s.roleOf o.layer = 3) && decide (o.round = 1)) = false := by
    rw [decide_eq_false hr, Bool.false_and]
  rw [State.tryForward, if_neg hcontribs, if_neg (by rw [hrole]; decide), if_neg (by rw [hups]; decide), if_neg (by simp [ho])]

/-- A read of the module's chain table corrects an entry at most. -/
theorem State.tableRead_chain (s : State) (c : Nat) :
    ∃ x, s.tableRead (.chain c) = { s with fabric := { s.fabric with tablesFixed := x } } := by
  unfold State.tableRead
  split
  · exact ⟨_, rfl⟩
  · exact ⟨_, rfl⟩

/-! ### The own partial (R447, R449, R450) -/

/-- The open sum of an own partial that has no upstream sum yet. -/
def State.ownSum (s : State) (c : ChainEntry) (layer tile step round chain m n : Nat) (v : SumVal) : OpenSum :=
  { OpenSum.fresh c.group layer tile step round chain m n with own := some v, tOwn := s.micros }

/-- The own partial of a tile with upstream sums to come opens its sum. -/
theorem State.ownComplete_opens {s : State} {c : ChainEntry} {layer tile step round chain : Nat} {v : SumVal} (hc : s.chainEntry chain = some c)
    (hup : c.upstream ≠ 0) (hr : s.roleOf layer ≠ 3) (hsent : s.ownSent layer tile (stampOf step round) = false)
    (hlate : s.isLate layer tile (stampOf step round) = false) (hopen : s.openSum c.group layer tile step round = none)
    (hv : v.contributors ≤ maxContributors) (m n : Nat) :
    ∃ x, s.ownComplete layer tile step round chain m n v
      = ({ s with fabric := { s.fabric with tablesFixed := x } } : State).putSum (s.ownSum c layer tile step round chain m n v) := by
  obtain ⟨x, hx⟩ := s.tableRead_chain chain
  obtain ⟨u, hu⟩ : ∃ u, ({ s with fabric := { s.fabric with tablesFixed := x } } : State) = u := ⟨_, rfl⟩
  have hsent' : u.ownSent layer tile (stampOf step round) = false := by rw [← hu]; exact hsent
  have hlate' : u.isLate layer tile (stampOf step round) = false := by rw [← hu]; exact hlate
  have hopen' : u.openSum c.group layer tile step round = none := by rw [← hu]; exact hopen
  have hr' : u.roleOf layer ≠ 3 := by rw [← hu]; exact hr
  have hmicros : u.micros = s.micros := by rw [← hu]; rfl
  refine ⟨x, ?_⟩
  rw [hu] at hx ⊢
  simp only [State.ownComplete, hc, hx, hsent', hlate', Bool.false_eq_true, if_false, State.ownJoin, hopen', Option.getD_none, OpenSum.fresh,
    Option.isSome_none, hmicros]
  exact State.tryForward_of_own rfl rfl rfl hup hr' hv

/-- A message of the module's own partial of a tile. -/
def ContribMsg.isOwn (g layer tile step : Nat) (x : ContribMsg) : Bool :=
  decide (x.dest = .unit g) && x.layer = layer && x.tile = tile && x.step = step

/-- The blocks of one message, which is the only one of its tile on its way, are the module's partial. -/
theorem exec_halyardOwnPartial {s : State} {g layer tile step : Nat} {m : ContribMsg} {c : ChainEntry} (hg : g < 4)
    (hone : s.flight.contribs.filter (ContribMsg.isOwn g layer tile step) = [m])
    (hblocks : ceilDiv m.m 8 ≤ m.blocks.length) (hc : s.chainEntry m.chain = some c) (hroom : s.openCount c.group < 1024) :
    ∃ l, exec (.halyardOwnPartial g layer tile step) s
      = done ((({ s with flight := { s.flight with contribs := l } } : State).landed m.pkts).ownComplete layer tile step m.round m.chain m.m m.n
          (ownOfBlocks m.blocks)) := by
  have hfind : s.flight.contribs.find? (ContribMsg.isOwn g layer tile step) = some m := by
    rw [← List.head?_filter, hone]
    rfl
  have hmine : s.flight.contribs.filter (fun x => ContribMsg.isOwn g layer tile step x && decide (some m.round = some x.round)) = [m] := by
    have h := congrArg (List.filter (fun x => decide (some m.round = some x.round))) hone
    rw [List.filter_filter] at h
    simpa [Bool.and_comm] using h
  have hfull : (decide (m.blocks.length < ceilDiv m.m 8) || !s.unitTakes (s.unitOf g m.chain)) = false := by
    simp [State.unitTakes, State.unitOf, hc, maxOpen]
    omega
  refine ⟨s.flight.contribs.filter (fun x => !(ContribMsg.isOwn g layer tile step x && decide (some m.round = some x.round))), ?_⟩
  show execHalyardOwnPartial g layer tile step s = _
  unfold ContribMsg.isOwn at hfind hmine ⊢
  simp only [execHalyardOwnPartial, withGroup, if_pos hg, hfind, Option.map_some, hmine, List.head?_cons, List.flatMap_cons, List.flatMap_nil,
    List.append_nil, hfull, Bool.false_eq_true, if_false]

/-- Settles O14: a block is held in its merge slot, a contribution takes a tile of another step, and the own partial opens its tile's sum. -/
theorem contributionsArrive : Obligations.ContributionsArrive := by
  intro s hq hok
  refine ⟨fun n m b bs e hn hm hb he hd hrows _ hend => ?_, fun k c e tile hk hc hm he ht hrows hcols hx hdiff => ?_,
    fun g layer tile step m c hg hone hblocks hc hup hr hsent hlate hopen hroom hv => ?_⟩
  · obtain ⟨t, hexec, hother, hcore, hwords, hout, hframe, hl⟩ := State.blockHeld hq hok hn hm hb he hd hrows hend
    exact ⟨t, _, hexec, hother, hcore, rfl, rfl, rfl, rfl, hwords, hout, hframe, hl⟩
  · obtain ⟨t, hw⟩ : ∃ t, ((s.ledgerRead k (s.ledgerPlace tile).2 c).writeHbm k (s.ledgerPlace tile).2 (c.tileData tile.expect)
        .adder).ledgerCounted k (c.m * c.n / 64) = t := ⟨_, rfl⟩
    obtain ⟨hother, hmem, hadds, hframe⟩ := State.ledgerTaken hc hw
    have hexec := exec_ledgerContribution hk hc hm he ht hrows hcols hx hdiff
    rw [hw] at hexec
    have hread : t.readStack k (s.ledgerPlace tile).2 576 = c.hdr.bytes tile.expect := by
      rw [State.readStack, hmem]
      exact c.readN_tileData (State.wf_stack hok k) _ tile.expect
    obtain ⟨hstep, hattempt, hcount⟩ := c.hdr.of_bytes tile.expect
    exact ⟨t, hexec.trans (done_of_job_eq hq (by rw [hframe])), hother, by rw [hframe], hread ▸ hstep, hread ▸ hattempt, hread ▸ hcount,
      hadds, by rw [hframe]⟩
  · obtain ⟨l, hexec⟩ := exec_halyardOwnPartial hg hone hblocks hc hroom
    obtain ⟨x, hx⟩ := ({ s with flight := { s.flight with contribs := l } } : State).landed_blocks m.pkts
    rw [hx] at hexec
    obtain ⟨y, hy⟩ := State.ownComplete_opens (s := { s with flight := { s.flight with contribs := l }, gaz := { s.gaz with blocks := x } })
      hc hup hr hsent hlate hopen hv m.m m.n
    rw [hy] at hexec
    exact ⟨_, _, hexec.trans (done_of_job_eq hq rfl), State.openSum_putSum _ _, rfl, rfl, rfl, rfl⟩

end Sys2Proof.Machine
end

section
/-!
Tables that may list a key out of order or twice: a key that is listed once at most, where a search for it finds it, is set and erased as in
an ordered table.
-/

namespace Sys2Proof.Machine

namespace Tab

variable {α : Type}

/-- No entry of a table has key `k`. -/
def absent (t : Tab α) (k : Nat) : Prop := ∀ p ∈ t, p.1 ≠ k

/-- A table lists key `k` at most once, and where a search for it comes by. -/
def tidy : Tab α → Nat → Prop
  | [], _ => True
  | (k', _) :: t, k => if k' < k then tidy t k else absent t k

theorem get_of_absent {t : Tab α} {k : Nat} (h : absent t k) (d : α) : Tab.get d t k = d := by
  induction t with
  | nil => rfl
  | cons p t ih =>
    obtain ⟨hp, ht⟩ := List.forall_mem_cons.1 h
    rw [Tab.get, if_neg (Ne.symm hp), ih ht, ite_self]

theorem tidy_of_absent {t : Tab α} {k : Nat} (h : absent t k) : tidy t k := by
  induction t with
  | nil => trivial
  | cons p t ih =>
    obtain ⟨-, ht⟩ := List.forall_mem_cons.1 h
    unfold tidy
    split
    · exact ih ht
    · exact ht

theorem tidy_tail {t : Tab α} {p : Nat × α} {k : Nat} (h : tidy (p :: t) k) : tidy t k := by
  unfold tidy at h
  split at h
  · exact h
  · exact tidy_of_absent h

/-- Every key of an ordered table stands so. -/
theorem tidy_of_pairwise {t : Tab α} (h : (t.map (fun p => p.1)).Pairwise (fun a b => a < b)) (k : Nat) : tidy t k := by
  induction t with
  | nil => trivial
  | cons p t ih =>
    obtain ⟨hp, ht⟩ := List.pairwise_cons.1 h
    unfold tidy
    split
    · exact ih ht
    · exact fun q hq => Nat.ne_of_gt (Nat.lt_of_le_of_lt (Nat.le_of_not_lt ‹_›) (hp _ (List.mem_map_of_mem hq)))

/-- A key that a search finds, and that is listed once, stands so. -/
theorem tidy_of_get {t : Tab α} {d : α} {k : Nat} (h : Tab.get d t k ≠ d) (hc : (t.map (fun p => p.1)).count k ≤ 1) : tidy t k := by
  induction t with
  | nil => trivial
  | cons p t ih =>
    rw [Tab.get] at h
    rw [List.map_cons, List.count_cons] at hc
    unfold tidy
    split
    · rw [if_neg (by omega), if_neg (by omega)] at h
      exact ih h (by omega)
    · by_cases hk : k = p.1
      · rw [if_pos (by simp [hk])] at hc
        intro q hq hqk
        have hpos := List.count_pos_iff.2 (List.mem_map_of_mem (f := fun p : Nat × α => p.1) hq)
        rw [hqk] at hpos
        omega
      · rw [if_neg hk, if_pos (by omega)] at h
        exact absurd rfl h

/-- Fewer entries leave a key so. -/
theorem tidy_of_sublist {t u : Tab α} {k : Nat} (hs : u.Sublist t) (h : tidy t k) : tidy u k := by
  induction hs with
  | slnil => trivial
  | cons p hs ih => exact ih (tidy_tail h)
  | cons_cons p hs ih =>
    unfold tidy at h ⊢
    split at h
    · rw [if_pos ‹_›]
      exact ih h
    · rw [if_neg ‹_›]
      exact fun q hq => h q (hs.subset hq)

theorem erase_sublist (t : Tab α) (k : Nat) : (Tab.erase t k).Sublist t := by
  induction t with
  | nil => exact List.Sublist.refl _
  | cons p t ih =>
    unfold Tab.erase
    split
    · exact List.sublist_cons_self _ _
    · split
      · exact List.Sublist.refl _
      · exact ih.cons_cons _

theorem mem_set {t : Tab α} {k : Nat} {v : α} {p : Nat × α} (h : p ∈ Tab.set t k v) : p = (k, v) ∨ p ∈ t := by
  induction t with
  | nil => exact .inl (List.mem_singleton.1 h)
  | cons q t ih =>
    unfold Tab.set at h
    split at h
    · exact (List.mem_cons.1 h).imp_right (List.mem_cons_of_mem _)
    · split at h
      · exact List.mem_cons.1 h
      · rcases List.mem_cons.1 h with rfl | h
        · exact .inr List.mem_cons_self
        · exact (ih h).imp_right (List.mem_cons_of_mem _)

/-- A key that is set, or another one, leaves a key so. -/
theorem tidy_set {t : Tab α} {k m : Nat} (h : tidy t m) (v : α) : tidy (Tab.set t k v) m := by
  induction t with
  | nil => simp [Tab.set, tidy, absent]
  | cons p t ih =>
    have htail := tidy_tail h
    unfold Tab.set
    split
    · subst_vars
      exact h
    · split
      · unfold tidy
        split
        · exact h
        · unfold tidy at h
          rw [if_neg (by omega)] at h
          exact List.forall_mem_cons.2 ⟨by omega, h⟩
      · unfold tidy at h ⊢
        split at h
        · rw [if_pos ‹_›]
          exact ih htail
        · rw [if_neg ‹_›]
          intro q hq
          rcases mem_set hq with rfl | hq
          · dsimp only
            omega
          · exact h q hq

theorem get_erase_self {t : Tab α} {k : Nat} (h : tidy t k) (d : α) : Tab.get d (Tab.erase t k) k = d := by
  induction t with
  | nil => rfl
  | cons p t ih =>
    unfold Tab.erase
    unfold tidy at h
    split
    · rw [if_neg (by omega)] at h
      exact get_of_absent h d
    · split
      · rw [Tab.get, if_neg ‹_›, if_pos ‹_›]
      · rw [if_pos (by omega)] at h
        rw [Tab.get, if_neg ‹_›, if_neg ‹_›, ih h]

theorem get_erase_other {t : Tab α} {k m : Nat} (h : tidy t m) (hm : m ≠ k) (d : α) : Tab.get d (Tab.erase t k) m = Tab.get d t m := by
  induction t with
  | nil => rfl
  | cons p t ih =>
    have htail := tidy_tail h
    unfold Tab.erase
    split
    · subst_vars
      rw [Tab.get, if_neg hm]
      split
      · unfold tidy at h
        rw [if_neg (by omega)] at h
        exact get_of_absent h d
      · rfl
    · split
      · rfl
      · rw [Tab.get, Tab.get, ih htail]

/-- Entries that say what no entry says can go. -/
theorem get_filter {t : Tab α} {d : α} {f : Nat × α → Bool} {m : Nat} (h : tidy t m) (hf : ∀ p ∈ t, f p = false → p.2 = d) :
    Tab.get d (t.filter f) m = Tab.get d t m := by
  induction t with
  | nil => rfl
  | cons p t ih =>
    have htail := tidy_tail h
    obtain ⟨hp, ht⟩ := List.forall_mem_cons.1 hf
    rw [List.filter_cons]
    split
    · rw [Tab.get, Tab.get, ih htail ht]
    · rw [Tab.get, ih htail ht, hp (by simpa using ‹¬ f p = true›)]
      unfold tidy at h
      split at h
      · rw [if_neg (by omega), if_neg (by omega)]
      · rw [get_of_absent h, ite_self, ite_self]

end Tab

end Sys2Proof.Machine
end

section
/-!
Lines that are written back (R306, R311, R316): what they hold, and the errors that remain.
-/

namespace Sys2Proof.Machine

/-! ### Lines in memory -/

/-- Lines are written with new data. -/
def Memory.putLines (m : Memory) (ps : List (Nat × List Byte)) : Memory := ps.foldl (fun m p => Memory.writeN m (64 * p.1) p.2) m

theorem Memory.wf_putLines {m : Memory} (h : Memory.wf m = true) (ps : List (Nat × List Byte)) : Memory.wf (Memory.putLines m ps) = true := by
  induction ps generalizing m with
  | nil => exact h
  | cons p ps ih => exact ih (Memory.wf_writeN h _ _)

/-- Bytes of other lines read as before. -/
theorem Memory.read_putLines_outside {m : Memory} (h : Memory.wf m = true) {ps : List (Nat × List Byte)}
    (hlen : ∀ p ∈ ps, p.2.length = 64) {a : Nat} (ha : ∀ p ∈ ps, p.1 ≠ a / 64) :
    Memory.read (Memory.putLines m ps) a = Memory.read m a := by
  induction ps generalizing m with
  | nil => rfl
  | cons p ps ih =>
    obtain ⟨hp, hps⟩ := List.forall_mem_cons.1 hlen
    obtain ⟨hap, haps⟩ := List.forall_mem_cons.1 ha
    refine (ih (Memory.wf_writeN h _ _) hps haps).trans (Memory.read_writeN_outside h _ ?_)
    rw [hp]
    omega

/-- The same of a whole line. -/
theorem Memory.readN_putLines_outside {m : Memory} (h : Memory.wf m = true) {ps : List (Nat × List Byte)}
    (hlen : ∀ p ∈ ps, p.2.length = 64) {l : Nat} (hl : ∀ p ∈ ps, p.1 ≠ l) :
    Memory.readN (Memory.putLines m ps) (64 * l) 64 = Memory.readN m (64 * l) 64 := by
  induction ps generalizing m with
  | nil => rfl
  | cons p ps ih =>
    obtain ⟨hp, hps⟩ := List.forall_mem_cons.1 hlen
    obtain ⟨hlp, hlps⟩ := List.forall_mem_cons.1 hl
    refine (ih (Memory.wf_writeN h _ _) hps hlps).trans (Memory.readN_writeN_outside h _ ?_)
    rw [hp]
    omega

/-- A line reads back as it was written. -/
theorem Memory.readN_putLines {m : Memory} (h : Memory.wf m = true) {ps : List (Nat × List Byte)} (hlen : ∀ p ∈ ps, p.2.length = 64)
    (hnd : (ps.map (fun p => p.1)).Nodup) {p : Nat × List Byte} (hp : p ∈ ps) : Memory.readN (Memory.putLines m ps) (64 * p.1) 64 = p.2 := by
  induction ps generalizing m with
  | nil => cases hp
  | cons q ps ih =>
    obtain ⟨hq, hps⟩ := List.forall_mem_cons.1 hlen
    obtain ⟨hnot, hnd⟩ := List.nodup_cons.1 hnd
    rcases List.mem_cons.1 hp with rfl | hp
    · refine (Memory.readN_putLines_outside (Memory.wf_writeN h _ _) hps fun r hr he => hnot (List.mem_map.2 ⟨r, hr, he⟩)).trans ?_
      have hread := Memory.readN_writeN h (64 * p.1) p.2
      rw [hq] at hread
      exact hread
    · exact ih (Memory.wf_writeN h _ _) hps hnd hp

/-! ### Errors of lines that have been written (R306) -/

/-- What a line's cells do to it. -/
def StackSt.cellErr (x : StackSt) (line : Nat) : LineErr := ⟨Tab.get [] x.stuck line, []⟩

/-- A line that has been written has the errors of its cells. -/
theorem StackSt.bad_wrote {x : StackSt} {l : Nat} (h : Tab.tidy x.bad l) : Tab.get ⟨[], []⟩ (x.wrote l).bad l = x.cellErr l := by
  unfold StackSt.cellErr
  cases hk : Tab.get [] x.stuck l with
  | nil => simp only [StackSt.wrote, hk, List.isEmpty_nil, if_true, Tab.get_erase_self h]
  | cons e es => simp only [StackSt.wrote, hk, List.isEmpty_cons, Bool.false_eq_true, if_false, Tab.get_set_self]

/-- Other lines have theirs. -/
theorem StackSt.bad_wrote_other {x : StackSt} {l m : Nat} (h : Tab.tidy x.bad m) (hm : m ≠ l) :
    Tab.get ⟨[], []⟩ (x.wrote l).bad m = Tab.get ⟨[], []⟩ x.bad m := by
  cases hk : Tab.get [] x.stuck l with
  | nil => simp only [StackSt.wrote, hk, List.isEmpty_nil, if_true, Tab.get_erase_other h hm]
  | cons e es => simp only [StackSt.wrote, hk, List.isEmpty_cons, Bool.false_eq_true, if_false, Tab.get_set_other _ _ _ hm]

theorem StackSt.tidy_wrote {x : StackSt} {m : Nat} (h : Tab.tidy x.bad m) (l : Nat) : Tab.tidy (x.wrote l).bad m := by
  cases hk : Tab.get [] x.stuck l with
  | nil =>
    simp only [StackSt.wrote, hk, List.isEmpty_nil, if_true]
    exact Tab.tidy_of_sublist (Tab.erase_sublist _ _) h
  | cons e es =>
    simp only [StackSt.wrote, hk, List.isEmpty_cons, Bool.false_eq_true, if_false]
    exact Tab.tidy_set h _

/-! ### Write-back (R311, R316) -/

/-- A line is written back. -/
def StackSt.putLine (x : StackSt) (p : Nat × List Byte) : StackSt := { x.wrote p.1 with mem := Memory.writeN x.mem (64 * p.1) p.2 }

/-- Lines are written back. -/
def StackSt.putLines (x : StackSt) (ps : List (Nat × List Byte)) : StackSt := ps.foldl StackSt.putLine x

theorem StackSt.putLines_frame (x : StackSt) (ps : List (Nat × List Byte)) :
    x.putLines ps = { x with mem := Memory.putLines x.mem ps, bad := (x.putLines ps).bad, inner := (x.putLines ps).inner
                             merges := (x.putLines ps).merges } := by
  induction ps generalizing x with
  | nil => rfl
  | cons p ps ih => exact ih (x.putLine p)

/-- Lines that have been written back have the errors of their cells, and no others change. -/
theorem StackSt.bad_putLines {x : StackSt} {ps : List (Nat × List Byte)} {m : Nat} (h : Tab.tidy x.bad m) :
    Tab.get ⟨[], []⟩ (x.putLines ps).bad m = if m ∈ ps.map (fun p => p.1) then x.cellErr m else Tab.get ⟨[], []⟩ x.bad m := by
  induction ps generalizing x with
  | nil => rfl
  | cons p ps ih =>
    refine (ih (x := x.putLine p) (StackSt.tidy_wrote h p.1)).trans ?_
    rw [List.map_cons]
    by_cases hin : m ∈ ps.map (fun p => p.1)
    · rw [if_pos hin, if_pos (List.mem_cons_of_mem _ hin)]
      rfl
    · rw [if_neg hin]
      by_cases hm : m = p.1
      · subst hm
        rw [if_pos List.mem_cons_self]
        exact StackSt.bad_wrote h
      · rw [if_neg (fun hc => (List.mem_cons.1 hc).elim hm hin)]
        exact StackSt.bad_wrote_other h hm

/-! ### Good data of a group (R311 steps 3 and 4) -/

/-- The lines of a group that its mirror has given, with their data. -/
def goodLines (g : Nat) (f : FetchSt) (good : List Byte) : List (Nat × List Byte) :=
  ((upFrom (8 * g) 8).filter (fun l => f.covers l && !f.overwritten.contains l)).map (fun l => (l, slice good (64 * (l % 8)) 64))

/-- The stack whose fetch has ended, with the reports of what is read back. -/
def StackSt.readBack (x : StackSt) (g : Nat) (ps : List (Nat × List Byte)) : StackSt :=
  { x with counts := ((x.putLines ps).innerReports (fun l => l / 8 = g)).counts }

theorem State.verifyLine_of_good {s : State} {k line : Nat} {f : FetchSt} {good : List Byte} (hf : s.fetchOf k line = some f)
    (hg : f.good = some good) (hv : (s.stack k).verifies (line / 8) good f.covers = true) :
    s.verifyLine k line true = (((s.dropFetch k line).updStack k (fun x => x.readBack (line / 8) (goodLines (line / 8) f good))).updStack k
      (fun x => x.putLines (goodLines (line / 8) f good))) := by
  simp only [State.verifyLine, hf, hg, hv, Bool.and_self, if_true, StackSt.readBack, StackSt.putLines, goodLines, List.foldl_map]
  rfl

/-- Each line of the group that is written back is one of the lines that the mirror has given, with its part of the data. -/
theorem mem_goodLines {g : Nat} {f : FetchSt} {good : List Byte} (hw : f.overwritten = []) {p : Nat × List Byte} :
    p ∈ goodLines g f good ↔ (p.1 / 8 = g ∧ f.covers p.1 = true) ∧ p.2 = slice good (64 * (p.1 % 8)) 64 := by
  simp only [goodLines, hw, List.contains_nil, Bool.not_false, Bool.and_true, List.mem_map, List.mem_filter, mem_upFrom]
  constructor
  · rintro ⟨l, ⟨⟨h1, h2⟩, hc⟩, rfl⟩
    exact ⟨⟨by dsimp only; omega, hc⟩, rfl⟩
  · rintro ⟨⟨h1, hc⟩, h2⟩
    exact ⟨p.1, ⟨⟨by omega, by omega⟩, hc⟩, by rw [← h2]⟩

theorem nodup_goodLines (g : Nat) (f : FetchSt) (good : List Byte) : ((goodLines g f good).map (fun p => p.1)).Nodup := by
  rw [goodLines, List.map_map]
  exact (List.map_id _).symm ▸ ((upFrom_pairwise _ _).imp Nat.ne_of_lt).filter _

theorem length_goodLines {g : Nat} {f : FetchSt} {good : List Byte} (hw : f.overwritten = []) (hg : good.length = 512) :
    ∀ p ∈ goodLines g f good, p.2.length = 64 := by
  intro p hp
  rw [((mem_goodLines hw).1 hp).2, slice, List.length_take, List.length_drop, hg]
  omega

theorem State.fetchOf_of_filter {s : State} {k line : Nat} {l : List FetchSt} (h : (s.stack k).fetches = l.filter (fun g => g.line != line)) :
    s.fetchOf k line = none := by
  rw [State.fetchOf, h, List.find?_eq_none]
  intro f hf
  simpa using (List.mem_filter.1 hf).2

/-- The stack whose fetch has ended. -/
def StackSt.fetchEnded (x : StackSt) (line : Nat) : StackSt := { x with fetches := x.fetches.filter (fun g => g.line != line) }

/-- A write-back that is verified: the lines hold the good data with the errors of their cells, and nothing else of the memory changes. -/
theorem State.verifyLine_ok {s t : State} {k line : Nat} {f : FetchSt} {good : List Byte} (hok : s.memOk) (hf : s.fetchOf k line = some f)
    (hg : f.good = some good) (hlen : good.length = 512) (hw : f.overwritten = [])
    (hb : ((s.stack k).bad.map (fun p => p.1)).Pairwise (fun a b => a < b)) (hv : (s.stack k).verifies (line / 8) good f.covers = true)
    (ht : s.verifyLine k line true = t) :
    s.onlyStack t k ∧ t.fetchOf k line = none
      ∧ (∀ l, l / 8 = line / 8 → f.covers l = true → t.readStack k (64 * l) 64 = slice good (64 * (l % 8)) 64
          ∧ Tab.get ⟨[], []⟩ (t.stack k).bad l = ⟨Tab.get [] (s.stack k).stuck l, []⟩)
      ∧ (∀ a, ¬ (a / 512 = line / 8 ∧ f.covers (a / 64) = true) → Memory.read (t.stack k).mem a = Memory.read (s.stack k).mem a)
      ∧ (t.stack k).badLines = (s.stack k).badLines := by
  obtain ⟨ps, hps⟩ : ∃ ps, goodLines (line / 8) f good = ps := ⟨_, rfl⟩
  rw [State.verifyLine_of_good hf hg hv, hps] at ht
  have hmem : ∀ p, p ∈ ps ↔ (p.1 / 8 = line / 8 ∧ f.covers p.1 = true) ∧ p.2 = slice good (64 * (p.1 % 8)) 64 := fun p => by
    rw [← hps]
    exact mem_goodLines hw
  have hnd : (ps.map (fun p => p.1)).Nodup := hps ▸ nodup_goodLines _ _ _
  have hpl : ∀ p ∈ ps, p.2.length = 64 := hps ▸ length_goodLines hw hlen
  have hwf := State.wf_stack hok k
  obtain ⟨x, hx⟩ : ∃ x, ((s.stack k).fetchEnded line).readBack (line / 8) ps = x := ⟨_, rfl⟩
  have hstack : t.stack k = x.putLines ps := by
    rw [← ht, ← hx, State.stack_updStack, State.stack_updStack, State.dropFetch, State.stack_updStack]
    rfl
  have hframe := x.putLines_frame ps
  rw [← hstack] at hframe
  refine ⟨⟨?_, fun j hj => ?_⟩, ?_, fun l hl hc => ⟨?_, ?_⟩, fun a ha => ?_, ?_⟩
  · rw [← ht]
    rfl
  · rw [← ht, State.stack_updStack_other _ _ hj, State.stack_updStack_other _ _ hj, State.dropFetch, State.stack_updStack_other _ _ hj]
  · refine State.fetchOf_of_filter (l := (s.stack k).fetches) ?_
    rw [hframe, ← hx]
    rfl
  · rw [State.readStack, hframe, ← hx]
    exact Memory.readN_putLines hwf hpl hnd ((hmem (l, _)).2 ⟨⟨hl, hc⟩, rfl⟩)
  · rw [hstack, StackSt.bad_putLines (by rw [← hx]; exact Tab.tidy_of_pairwise hb l),
      if_pos (List.mem_map.2 ⟨(l, slice good (64 * (l % 8)) 64), (hmem _).2 ⟨⟨hl, hc⟩, rfl⟩, rfl⟩), ← hx]
    rfl
  · rw [hframe, ← hx]
    refine Memory.read_putLines_outside hwf hpl fun p hp he => ha ?_
    obtain ⟨⟨hpg, hpc⟩, -⟩ := (hmem p).1 hp
    rw [he] at hpg hpc
    exact ⟨by omega, hpc⟩
  · rw [hframe, ← hx]
    rfl

/-- The group is in the bad-line map, and its good data in memory. -/
def StackSt.giveUp (x : StackSt) (g : Nat) (ps : List (Nat × List Byte)) : StackSt :=
  if g ∈ x.badLines then x.putLines ps else { x.putLines ps with badLines := x.badLines ++ [g] }

theorem State.verifyLine_of_bad {s : State} {k line : Nat} {f : FetchSt} {good : List Byte} (hf : s.fetchOf k line = some f)
    (hg : f.good = some good) (hfull : (s.stack k).badLines.length < 4096) :
    s.verifyLine k line false = (((s.dropFetch k line).updStack k (fun x => x.readBack (line / 8) (goodLines (line / 8) f good))).updStack k
      (fun x => x.giveUp (line / 8) (goodLines (line / 8) f good))) := by
  obtain ⟨v, hv⟩ : ∃ v, (s.dropFetch k line).updStack k (fun x => x.readBack (line / 8) (goodLines (line / 8) f good)) = v := ⟨_, rfl⟩
  have hbad : (v.stack k).badLines = (s.stack k).badLines := by
    rw [← hv, State.stack_updStack, State.dropFetch, State.stack_updStack]
    rfl
  rw [hv, State.updStack, StackSt.giveUp, hbad]
  by_cases hin : line / 8 ∈ (s.stack k).badLines
  · rw [if_pos hin, ← hv]
    simp only [State.verifyLine, hf, hg, Bool.false_and, Bool.false_eq_true, if_false, List.contains_iff_mem.2 hin, if_true, StackSt.readBack,
      StackSt.putLines, goodLines, List.foldl_map]
    rfl
  · have hcont : (s.stack k).badLines.contains (line / 8) = false := by simpa using hin
    rw [if_neg hin, ← hbad, ← hv]
    simp only [State.verifyLine, hf, hg, Bool.false_and, Bool.false_eq_true, if_false, hcont, if_neg (Nat.not_le_of_lt hfull),
      StackSt.readBack, StackSt.putLines, goodLines, List.foldl_map]
    rfl

/-- A write-back that is not verified: its group enters the bad-line map, once. -/
theorem State.verifyLine_fail {s t : State} {k line : Nat} {f : FetchSt} {good : List Byte} (hf : s.fetchOf k line = some f)
    (hg : f.good = some good) (hfull : (s.stack k).badLines.length < 4096) (ht : s.verifyLine k line false = t) :
    s.onlyStack t k ∧ t.fetchOf k line = none
      ∧ (t.stack k).badLines = if line / 8 ∈ (s.stack k).badLines then (s.stack k).badLines else (s.stack k).badLines ++ [line / 8] := by
  obtain ⟨ps, hps⟩ : ∃ ps, goodLines (line / 8) f good = ps := ⟨_, rfl⟩
  rw [State.verifyLine_of_bad hf hg hfull, hps] at ht
  obtain ⟨x, hx⟩ : ∃ x, ((s.stack k).fetchEnded line).readBack (line / 8) ps = x := ⟨_, rfl⟩
  have hstack : t.stack k = x.giveUp (line / 8) ps := by
    rw [← ht, ← hx, State.stack_updStack, State.stack_updStack, State.dropFetch, State.stack_updStack]
    rfl
  have hbad : x.badLines = (s.stack k).badLines := by rw [← hx]; rfl
  have hfetch : x.fetches = (s.stack k).fetches.filter (fun g => g.line != line) := by rw [← hx]; rfl
  have hframe := x.putLines_frame ps
  have hboth : (t.stack k).fetches = x.fetches
      ∧ (t.stack k).badLines = if line / 8 ∈ x.badLines then x.badLines else x.badLines ++ [line / 8] := by
    rw [hstack, StackSt.giveUp]
    split
    · exact ⟨by rw [hframe], by rw [hframe]⟩
    · exact ⟨by rw [hframe], rfl⟩
  obtain ⟨hfetches, hbads⟩ := hboth
  refine ⟨⟨?_, fun j hj => ?_⟩, State.fetchOf_of_filter (hfetches.trans hfetch), by rw [hbads, hbad]⟩
  · rw [← ht]
    rfl
  · rw [← ht, State.stack_updStack_other _ _ hj, State.stack_updStack_other _ _ hj, State.dropFetch, State.stack_updStack_other _ _ hj]

theorem exec_hbmWritebackVerify {s : State} {k line : Nat} {ok : Bool} (hq : s.quiet) (hk : k < numStacks)
    (h : s.onlyStack (s.verifyLine k line ok) k) : exec (.hbmWritebackVerify k line ok) s = .next (s.verifyLine k line ok) := by
  obtain ⟨hframe, -⟩ := h
  exact (if_pos hk).trans (done_of_job_eq hq (by rw [hframe]))

/-! ### A mirror that does not answer (R311, R315) -/

/-- No mirror has given a line: what was to be merged into it is lost, and no read waits for it. -/
def StackSt.mirrorFails (x : StackSt) (line : Nat) : StackSt :=
  { x with counts := { x.counts with mirrorFailed := satAdd32 x.counts.mirrorFailed 1 }
           merges := x.merges.filter (fun m => m.line != line)
           reads := x.reads.filter (fun p => !p.2.need.contains line) }

/-- A line that only the scrub wanted is logged. -/
theorem State.noData_scrub (s : State) (k line : Nat) :
    s.noData k line [.scrub] = (s.updStack k (fun x => x.mirrorFails line)).event "SCRUB_UNCORRECTABLE" clsINFO srcStack k [line] := rfl

/-- A fetch ends when its time has passed, its requests awaited no more. -/
def State.timedOut (s : State) (k line : Nat) (f : FetchSt) : State :=
  (({ s with net := { s.net with gathers := s.net.gathers.filter (fun o => o.use != GatherUse.mirror k line) } } : State).until
    (f.start + s.job.mirrorTimeout)).dropFetch k line

theorem exec_mirrorTimeout {s : State} {k line : Nat} {f : FetchSt} (hk : k < numStacks) (hf : s.fetchOf k line = some f) (hg : f.good = none)
    (hcame : f.came = false) (hw : f.overwritten = []) :
    exec (.mirrorTimeout k line) s = done ((s.timedOut k line f).noData k line f.consumers) := by
  have hnone : ∀ t : State, t.overtaken k f = none := fun t => by simp [State.overtaken, hw]
  show execMirrorTimeout k line s = _
  simp only [execMirrorTimeout, withStack, if_pos hk, hf, hg, Option.isSome_none, Bool.false_eq_true, if_false, hnone, hcame]
  rfl

/-- A fetch of the scrub that times out: it ends, MIRROR_FAILED goes up, and the line is logged. -/
theorem State.fetchTimesOut {s : State} {k line : Nat} {f : FetchSt} (hq : s.quiet) (hk : k < numStacks) (hf : s.fetchOf k line = some f)
    (hg : f.good = none) (hcame : f.came = false) (hc : f.consumers = [.scrub]) (hw : f.overwritten = []) :
    ∃ t, exec (.mirrorTimeout k line) s = .next t ∧ t.fetchOf k line = none
      ∧ (t.stack k).counts.mirrorFailed = satAdd32 (s.stack k).counts.mirrorFailed 1 ∧ (t.stack k).mem = (s.stack k).mem
      ∧ s.aon ≤ t.aon ∧ 25 * (f.start + s.job.mirrorTimeout) ≤ t.aon ∧ t.log.seq = (s.log.seq + 1) % 2 ^ 32
      ∧ (∀ j, j ≠ k → t.stack j = s.stack j) ∧ t.cores = s.cores ∧ t.job = s.job := by
  have hexec := exec_mirrorTimeout hk hf hg hcame hw
  rw [hc, State.noData_scrub] at hexec
  obtain ⟨v, hv⟩ : ∃ v, s.timedOut k line f = v := ⟨_, rfl⟩
  rw [hv] at hexec
  obtain ⟨w, hw'⟩ : ∃ w, v.updStack k (fun x => x.mirrorFails line) = w := ⟨_, rfl⟩
  rw [hw'] at hexec
  have hvk : v.stack k = (s.stack k).fetchEnded line := by
    rw [← hv, State.timedOut, State.dropFetch, State.stack_updStack]
    rfl
  have hwk : w.stack k = ((s.stack k).fetchEnded line).mirrorFails line := by rw [← hw', State.stack_updStack, hvk]
  have hother : ∀ j, j ≠ k → w.stack j = s.stack j := fun j hj => by
    rw [← hw', State.stack_updStack_other _ _ hj, ← hv, State.timedOut, State.dropFetch, State.stack_updStack_other _ _ hj]
    rfl
  have hframe : w = { s with net := w.net, hbm := w.hbm, aon := max s.aon (25 * (f.start + s.job.mirrorTimeout)) } := by
    rw [← hw', ← hv]
    rfl
  obtain ⟨t, ht⟩ : ∃ t, w.event "SCRUB_UNCORRECTABLE" clsINFO srcStack k [line] = t := ⟨_, rfl⟩
  have hstack : ∀ j, t.stack j = w.stack j := fun j => by rw [← ht, State.stack, State.event_hbm, State.stack]
  have hjob : t.job = s.job := by rw [← ht, State.event_job, hframe]
  have haon : t.aon = max s.aon (25 * (f.start + s.job.mirrorTimeout)) := by rw [← ht, State.event_aon, hframe]
  rw [ht] at hexec
  refine ⟨t, hexec.trans (done_of_job_eq hq hjob), State.fetchOf_of_filter (l := (s.stack k).fetches) ?_, ?_, ?_, ?_, ?_, ?_, fun j hj => ?_, ?_,
    hjob⟩
  · rw [hstack, hwk]
    rfl
  · rw [hstack, hwk]
    rfl
  · rw [hstack, hwk]
    rfl
  · rw [haon]
    exact Nat.le_max_left _ _
  · rw [haon]
    exact Nat.le_max_right _ _
  · rw [← ht, State.event_log, hframe]
  · rw [hstack, hother j hj]
  · rw [← ht, State.event_cores, hframe]

end Sys2Proof.Machine
end

section
/-!
The patrol scrub (R310, R316): what its scan makes of lines that can be read, and the statement about repairs.
-/

namespace Sys2Proof.Machine

/-! ### Reads of a line (R310) -/

/-- The data of a read; none of a line that is lost. -/
def LineRead.bytes : LineRead → List Byte
  | .data d _ _ => d
  | .lost => []

/-- The outer code has corrected some. -/
def LineRead.cor : LineRead → Bool
  | .data _ cor _ => cor
  | .lost => false

/-- A line reads by its bytes, its errors, its group's place in the bad-line map, and the fetches. -/
theorem StackSt.readLine_congr {x y : StackSt} {l : Nat} (hm : y.mem = x.mem) (hb : y.badLines = x.badLines) (hf : y.fetches = x.fetches)
    (he : Tab.get ⟨[], []⟩ y.bad l = Tab.get ⟨[], []⟩ x.bad l) : y.readLine l = x.readLine l := by
  simp only [StackSt.readLine, StackSt.wordOf, StackSt.lineData, StackSt.lineErr, hm, hb, hf, he]

theorem length_rsApply (w : List Nat) (errs : List (Nat × Nat)) : (rsApply w errs).length = w.length := by
  induction errs generalizing w with
  | nil => rfl
  | cons e errs ih => exact (ih _).trans List.length_set

theorem StackSt.length_wordOf (x : StackSt) (l : Nat) (errs : List (Nat × Nat)) : 64 ≤ (x.wordOf l errs).length := by
  rw [StackSt.wordOf, length_rsApply, rsWord, List.length_append, List.length_map, StackSt.lineData, Memory.length_readN]
  exact Nat.le_add_right _ _

theorem length_decodeWord {w : List Nat} {d : List Byte × Bool} (hw : 64 ≤ w.length) (h : decodeWord w = some d) : d.1.length = 64 := by
  obtain ⟨errs, -, rfl⟩ := Option.map_eq_some_iff.1 h
  rw [List.length_map, List.length_take, length_rsApply, Nat.min_eq_left hw]

/-- A line that can be read gives 64 bytes. -/
theorem StackSt.length_readLine {x : StackSt} {l : Nat} (h : x.readLine l ≠ .lost) : (x.readLine l).bytes.length = 64 := by
  unfold StackSt.readLine at h ⊢
  dsimp only at h ⊢
  split
  · exact length_decodeWord (x.length_wordOf _ _) ‹_›
  · rw [‹decodeWord _ = none›] at h
    dsimp only at h
    split
    · exact length_decodeWord (x.length_wordOf _ _) ‹_›
    · rw [‹decodeWord (x.wordOf l (x.lineErr l).hard) = none›] at h
      exact absurd rfl h

/-! ### One line of the scan (R308, R311 step 1) -/

/-- The inner code's reports change its own counts. -/
theorem StackSt.noteInner_frame (x : StackSt) (l : List (Nat × Nat)) :
    ∃ c, x.noteInner l = { x with counts := c } ∧ c.corrected = x.counts.corrected := by
  unfold StackSt.noteInner
  split <;> exact ⟨_, rfl, rfl⟩

theorem StackSt.innerAgain_frame (x : StackSt) (l : Nat) : ∃ c, x.innerAgain l = { x with counts := c } ∧ c.corrected = x.counts.corrected := by
  unfold StackSt.innerAgain
  split
  · exact ⟨_, rfl, rfl⟩
  · exact x.noteInner_frame _

/-- Errors that only one read has met are gone. -/
def softGone (bad : Tab LineErr) (l : Nat) : Tab LineErr :=
  (Tab.upd ⟨[], []⟩ bad l (fun e => { e with soft := [] })).filter (fun p => p.2 != ⟨[], []⟩)

theorem tidy_softGone {bad : Tab LineErr} {m : Nat} (h : Tab.tidy bad m) (l : Nat) : Tab.tidy (softGone bad l) m :=
  Tab.tidy_of_sublist List.filter_sublist (Tab.tidy_set h _)

theorem get_softGone_other {bad : Tab LineErr} {l m : Nat} (h : Tab.tidy bad m) (hm : m ≠ l) :
    Tab.get ⟨[], []⟩ (softGone bad l) m = Tab.get ⟨[], []⟩ bad m :=
  (Tab.get_filter (Tab.tidy_set h _) fun p _ hp => by simpa using hp).trans (Tab.get_set_other _ _ _ hm)

/-- What the reading of a line comes to, when the stack `x` that its last read leaves gives data. -/
theorem Scan.line_of_reads {r : Scan} {l : Nat} {x : StackSt} {d : List Byte} {cor again : Bool} (hd : r.after.readLine l = .data d cor again)
    (hx : (if (!again) = true then r.after else r.after.innerAgain l) = x) (hdx : x.readLine l = .data d cor again) :
    ∃ c, r.line l = { after := { x with bad := softGone x.bad l, counts := c }, lost := r.lost, fixed := r.fixed ++ [(l, d)] }
      ∧ c.corrected = if cor then satAdd32 x.counts.corrected 1 else x.counts.corrected := by
  unfold Scan.line
  rw [hd]
  dsimp only
  rw [hx, hdx]
  exact ⟨_, rfl, rfl⟩

/-- A line that can be read joins those that are written back, and is counted when the outer code has corrected it. -/
theorem Scan.line_of_data {r : Scan} {l : Nat} (h : r.after.readLine l ≠ .lost) :
    ∃ c, r.line l = { after := { r.after with bad := softGone r.after.bad l, counts := c }, lost := r.lost
                      fixed := r.fixed ++ [(l, (r.after.readLine l).bytes)] }
      ∧ c.corrected = if (r.after.readLine l).cor then satAdd32 r.after.counts.corrected 1 else r.after.counts.corrected := by
  cases hd : r.after.readLine l with
  | lost => exact absurd hd h
  | data d cor again =>
    cases again with
    | false => exact Scan.line_of_reads hd rfl hd
    | true =>
      obtain ⟨c, hc, hcor⟩ := r.after.innerAgain_frame l
      have hread : ({ r.after with counts := c } : StackSt).readLine l = .data d cor true := (StackSt.readLine_congr rfl rfl rfl rfl).trans hd
      obtain ⟨c', hline, hcor'⟩ := Scan.line_of_reads hd hc hread
      exact ⟨c', hline, hcor'.trans (by rw [hcor]; rfl)⟩

/-! ### The scan (R310) -/

/-- A scan that has read the lines `done` of `x`, each of which can be read. -/
structure Scan.Has (x : StackSt) (done : List Nat) (r : Scan) : Prop where
  frame : r.after = { x with bad := r.after.bad, counts := r.after.counts }
  lost : r.lost = []
  fixed : r.fixed = done.map (fun l => (l, (x.readLine l).bytes))
  tidy : ∀ m, Tab.tidy x.bad m → Tab.tidy r.after.bad m
  bad : ∀ m, m ∉ done → Tab.tidy x.bad m → Tab.get ⟨[], []⟩ r.after.bad m = Tab.get ⟨[], []⟩ x.bad m
  corrected : r.after.counts.corrected = satAdd32 x.counts.corrected (done.filter (fun l => (x.readLine l).cor)).length

theorem satAdd32_satAdd32 (c m n : Nat) : satAdd32 (satAdd32 c m) n = satAdd32 c (m + n) := by
  simp only [satAdd32]
  omega

namespace Scan.Has

variable {x : StackSt} {done ls : List Nat} {r : Scan} {l : Nat}

theorem line (h : Scan.Has x done r) (hl : l ∉ done) (ht : Tab.tidy x.bad l) (hr : x.readLine l ≠ .lost) :
    Scan.Has x (done ++ [l]) (r.line l) := by
  have hread : r.after.readLine l = x.readLine l := by
    refine StackSt.readLine_congr ?_ ?_ ?_ (h.bad l hl ht)
    · rw [h.frame]
    · rw [h.frame]
    · rw [h.frame]
  obtain ⟨c, hc, hcor⟩ := Scan.line_of_data (r := r) (l := l) (by rw [hread]; exact hr)
  rw [hread] at hc hcor
  refine ⟨?_, ?_, ?_, fun m hm => ?_, fun m hm htm => ?_, ?_⟩
  · rw [hc, h.frame]
  · rw [hc]
    exact h.lost
  · rw [hc, h.fixed, List.map_append]
    rfl
  · rw [hc]
    exact tidy_softGone (h.tidy m hm) l
  · rw [hc]
    rw [List.mem_append, List.mem_singleton, not_or] at hm
    exact (get_softGone_other (h.tidy m htm) hm.2).trans (h.bad m hm.1 htm)
  · rw [hc]
    refine hcor.trans ?_
    rw [h.corrected, List.filter_append, List.length_append, List.filter_singleton]
    cases (x.readLine l).cor with
    | true => exact satAdd32_satAdd32 _ _ 1
    | false => rfl

theorem lines (h : Scan.Has x done r) (hnd : (done ++ ls).Nodup) (ht : ∀ l ∈ ls, Tab.tidy x.bad l) (hr : ∀ l ∈ ls, x.readLine l ≠ .lost) :
    Scan.Has x (done ++ ls) (ls.foldl Scan.line r) := by
  induction ls generalizing done r with
  | nil =>
    rw [List.append_nil]
    exact h
  | cons l ls ih =>
    obtain ⟨htl, hts⟩ := List.forall_mem_cons.1 ht
    obtain ⟨hrl, hrs⟩ := List.forall_mem_cons.1 hr
    have hl : l ∉ done := fun hd => (List.nodup_append.1 hnd).2.2 l hd l List.mem_cons_self rfl
    rw [List.append_cons] at hnd ⊢
    exact ih (h.line hl htl hrl) hnd hts hrs

end Scan.Has

/-- A line that the scan comes by once is listed once, where a search finds it. -/
theorem StackSt.tidy_of_mem_errLines {x : StackSt} {l : Nat} (hnd : (x.errLines (fun _ => true)).Nodup) (hl : l ∈ x.errLines (fun _ => true)) :
    Tab.tidy x.bad l := by
  have herr : x.errs l = true := (List.mem_filter.1 hl).2
  refine Tab.tidy_of_get (d := ⟨[], []⟩) (fun hd => ?_) ?_
  · have : x.lineErr l = ⟨[], []⟩ := by
      rw [StackSt.lineErr, hd, ite_self]
    simp [StackSt.errs, this] at herr
  · have hcount := List.nodup_iff_count_le_one.1 hnd l
    rw [StackSt.errLines, List.count_filter herr, List.count_filter rfl] at hcount
    exact hcount

/-- The scan of a stack all of whose lines can be read. -/
theorem StackSt.scan_has {x : StackSt} (hnd : (x.errLines (fun _ => true)).Nodup) (hr : ∀ l ∈ x.errLines (fun _ => true), x.readLine l ≠ .lost)
    (hc : x.counts.corrected < 2 ^ 32) : Scan.Has x (x.errLines (fun _ => true)) (x.scan (fun _ => true)) := by
  obtain ⟨c, hx, hcor⟩ := x.noteInner_frame (x.inner.filter (fun p => !x.badLines.contains (p.1 / 9) &&
    (if p.1 % 9 = 8 then (upFrom (8 * (p.1 / 9)) 8).any (fun _ => true) else true)))
  have hstart : Scan.Has x [] { after := x.innerReports (fun _ => true), lost := [], fixed := [] } := by
    have hi : x.innerReports (fun _ => true) = { x with counts := c } := hx
    rw [hi]
    refine ⟨rfl, rfl, rfl, fun _ h => h, fun _ _ _ => rfl, hcor.trans ?_⟩
    simp only [List.filter_nil, List.length_nil, satAdd32]
    omega
  exact hstart.lines hnd (fun l hl => StackSt.tidy_of_mem_errLines hnd hl) hr

/-! ### The patrol scrub (R316) -/

theorem State.afterRead_frame (s : State) (k : Nat) (x : StackSt) :
    (s.afterRead k x).stack k = x ∧ (∀ j, j ≠ k → (s.afterRead k x).stack j = s.stack j)
      ∧ s.afterRead k x = { s with hbm := (s.afterRead k x).hbm, gaz := (s.afterRead k x).gaz } := by
  unfold State.afterRead
  dsimp only
  split
  · exact ⟨s.stack_setStack k x, fun j hj => s.stack_setStack_other x hj, rfl⟩
  · obtain ⟨y, hy⟩ := (s.setStack k x).count_blocks (b := blkStack k) (by simp only [blkStack]; omega) evOUTER_CORRECTED 0 1
      (x.counts.corrected - (s.stack k).counts.corrected)
    rw [hy]
    exact ⟨s.stack_setStack k x, fun j hj => s.stack_setStack_other x hj, rfl⟩

/-- The stack after the scrub of lines that can all be read. -/
def StackSt.scrubbed (x : StackSt) : StackSt := (x.scan (fun _ => true)).after.putLines (x.scan (fun _ => true)).fixed

theorem exec_patrolScrub {s : State} {k : Nat} (hk : k < numStacks) (hp : s.job.scrubPeriod ≠ 0) (hs : s.power.powerState ≤ 1)
    (hl : ((s.stack k).scan (fun _ => true)).lost = []) :
    exec (.patrolScrub k) s = done (s.afterRead k (s.stack k).scrubbed) := by
  have hgo : (decide (s.job.scrubPeriod = 0) || decide (s.power.powerState > 1)) = false := by
    rw [decide_eq_false hp, decide_eq_false (by omega)]
    rfl
  show execPatrolScrub k s = _
  simp only [execPatrolScrub, withStack, if_pos hk, hgo, Bool.false_eq_true, if_false, hl, List.foldl_nil]
  rfl

/-- A scrub of a stack all of whose lines can be read: they hold what the reads gave, with the errors of their cells. -/
theorem State.scrubbed {s t : State} {k : Nat} (hok : s.memOk) (hnd : ((s.stack k).errLines (fun _ => true)).Nodup)
    (hr : ∀ l ∈ (s.stack k).errLines (fun _ => true), (s.stack k).readLine l ≠ .lost) (hc : (s.stack k).counts.corrected < 2 ^ 32)
    (ht : s.afterRead k (s.stack k).scrubbed = t) :
    (∀ l ∈ (s.stack k).errLines (fun _ => true), t.readStack k (64 * l) 64 = ((s.stack k).readLine l).bytes
        ∧ Tab.get ⟨[], []⟩ (t.stack k).bad l = ⟨Tab.get [] (s.stack k).stuck l, []⟩)
      ∧ (∀ a, a / 64 ∉ (s.stack k).errLines (fun _ => true) → Memory.read (t.stack k).mem a = Memory.read (s.stack k).mem a)
      ∧ (t.stack k).counts.corrected = satAdd32 (s.stack k).counts.corrected
          (((s.stack k).errLines (fun _ => true)).filter (fun l => ((s.stack k).readLine l).cor)).length := by
  have hscan := StackSt.scan_has hnd hr hc
  obtain ⟨r, hscanned⟩ : ∃ r, (s.stack k).scan (fun _ => true) = r := ⟨_, rfl⟩
  obtain ⟨hstack, -, -⟩ := s.afterRead_frame k (s.stack k).scrubbed
  rw [ht, StackSt.scrubbed, hscanned] at hstack
  rw [hscanned] at hscan
  obtain ⟨hframe, -, hfixed, htidy, -, hcorrected⟩ := hscan
  have hput := r.after.putLines_frame r.fixed
  rw [← hstack] at hput
  have hkeys : r.fixed.map (fun p => p.1) = (s.stack k).errLines (fun _ => true) := by
    rw [hfixed, List.map_map]
    exact List.map_id _
  have hmem : (t.stack k).mem = Memory.putLines (s.stack k).mem r.fixed := by rw [hput, hframe]
  have hlen : ∀ p ∈ r.fixed, p.2.length = 64 := fun p hp => by
    rw [hfixed] at hp
    obtain ⟨l, hl, rfl⟩ := List.mem_map.1 hp
    exact StackSt.length_readLine (hr l hl)
  refine ⟨fun l hl => ⟨?_, ?_⟩, fun a ha => ?_, ?_⟩
  · rw [State.readStack, hmem]
    refine Memory.readN_putLines (p := (l, ((s.stack k).readLine l).bytes)) (State.wf_stack hok k) hlen (hkeys ▸ hnd) ?_
    rw [hfixed]
    exact List.mem_map_of_mem hl
  · rw [hstack, StackSt.bad_putLines (htidy l (StackSt.tidy_of_mem_errLines hnd hl)), hkeys, if_pos hl, StackSt.cellErr, hframe]
  · rw [hmem]
    refine Memory.read_putLines_outside (State.wf_stack hok k) hlen fun p hp he => ha ?_
    rw [← he, ← hkeys]
    exact List.mem_map_of_mem hp
  · rw [hput]
    exact hcorrected

/-- Settles O18: a fetch that times out ends, a verified write-back leaves good lines and no other change, one that fails marks its group, and
the scrub writes back what the outer code gives. -/
theorem linesAreRepaired : Obligations.LinesAreRepaired := by
  intro s k line f hq hok hk
  refine ⟨fun hf hg hcame hc hw _ => State.fetchTimesOut hq hk hf hg hcame hc hw, fun good hf hg hlen hw hb hv => ?_,
    fun good hf hg hfull => ?_, fun ls hls hnd hp hs hc hr => ?_⟩
  · obtain ⟨honly, hlines⟩ := State.verifyLine_ok hok hf hg hlen hw hb hv rfl
    exact ⟨_, exec_hbmWritebackVerify hq hk honly, honly, hlines⟩
  · obtain ⟨honly, hmap⟩ := State.verifyLine_fail hf hg hfull rfl
    exact ⟨_, exec_hbmWritebackVerify hq hk honly, honly, hmap⟩
  · subst hls
    obtain ⟨t, ht⟩ : ∃ t, s.afterRead k (s.stack k).scrubbed = t := ⟨_, rfl⟩
    have hexec := exec_patrolScrub hk hp hs (StackSt.scan_has hnd hr hc).lost
    obtain ⟨-, hother, honly⟩ := s.afterRead_frame k (s.stack k).scrubbed
    rw [ht] at hexec hother honly
    obtain ⟨hlines, houtside, hcor⟩ := State.scrubbed hok hnd hr hc ht
    refine ⟨t, hexec.trans (done_of_job_eq hq (by rw [honly])), fun l d cor again hl hd => ?_, houtside, hcor, hother, honly⟩
    obtain ⟨hdata, hbad⟩ := hlines l hl
    rw [hd] at hdata
    exact ⟨hdata, hbad⟩

end Sys2Proof.Machine
end

section
/-!
Links of the mesh (R372 to R376): what a write of one leaves alone, retransmissions and self-tests, and the spares that failed data wires take.
-/

namespace Sys2Proof.Machine

/-! ### One link -/

@[simp] theorem State.link_setLink (s : State) (l : Nat) (x : LinkSt) : (s.setLink l x).link l = x :=
  Tab.get_set_self _ _ _ _

theorem State.link_setLink_other (s : State) {l m : Nat} (x : LinkSt) (h : m ≠ l) : (s.setLink l x).link m = s.link m :=
  Tab.get_set_other _ _ _ h

/-! ### Retransmissions and the start of a self-test (R374, R375) -/

/-- The link after a retransmission at `now` µs: it is one of those of the last millisecond (R375). -/
def LinkSt.retried (x : LinkSt) (now : Nat) : LinkSt := { x with retryAt := x.retryAt.filter (fun a => now < a + 1000) ++ [now] }

/-- A retransmission writes its link alone, and counts at the link's receiver. -/
theorem State.countRetry_frame (s : State) (l : Nat) :
    ∃ c b, s.countRetry l = { s with
          fabric := { s.fabric with links := Tab.set s.fabric.links l ((s.link l).retried s.micros), counts := c }
          gaz := { s.gaz with blocks := b } }
      ∧ ∀ n, linkReceiver l = some n →
          (Tab.get .zero c n).crcRetries = satAdd32 (Tab.get .zero s.fabric.counts n).crcRetries 1 := by
  unfold State.countRetry
  cases hr : linkReceiver l with
  | none => exact ⟨s.fabric.counts, s.gaz.blocks, rfl, nofun⟩
  | some n =>
    obtain ⟨b, hb⟩ := ((s.setLink l ((s.link l).retried s.micros)).routerCount n
      (fun c => { c with crcRetries := satAdd32 c.crcRetries 1 })).count_blocks (b := blkRouter n) (by simp only [blkRouter]; omega)
      evCRC_RETRY 0 1 1
    refine ⟨_, b, hb, fun m hm => ?_⟩
    obtain rfl := Option.some.inj hm
    exact congrArg RouterCounts.crcRetries (Tab.get_set_self ..)

/-- A flit that has not failed its eighth retransmission is requested again (R374). -/
theorem exec_linkCrcMismatch_retry {s : State} {l : Nat} {again : Bool} (hl : linkExists l = true) (hup : (s.link l).st = .up)
    (hfew : again = true → (s.link l).fails < 7) :
    exec (.linkCrcMismatch l again) s
      = done ((s.setLink l { s.link l with fails := if again then (s.link l).fails + 1 else 0 }).countRetry l) := by
  have hn : ¬ (if again then (s.link l).fails + 1 else 0) ≥ maxRetransmissions := by
    cases again with
    | false => simp [maxRetransmissions]
    | true =>
      have := hfew rfl
      simp only [if_true, maxRetransmissions]
      omega
  show execLinkCrcMismatch l again s = _
  simp only [execLinkCrcMismatch, withLink, hl, if_true, hup, bne_self_eq_false, Bool.false_eq_true, if_false, if_neg hn]

/-- A link whose retransmissions reach the trigger is under self-test, and its receiver counts it (R375, R395). -/
theorem exec_selftestTrigger_starts {s : State} {l : Nat} (hq : s.quiet) (hl : linkExists l = true) (hup : (s.link l).st = .up)
    (hmany : s.fabric.selftestTrigger ≤ (s.link l).retryAt.length) :
    ∃ c, exec (.selftestTrigger l) s = .next { s with fabric := { s.fabric with
          links := Tab.set s.fabric.links l { s.link l with st := .selfTest, retryAt := [] }, counts := c } }
      ∧ ∀ n, linkReceiver l = some n →
          (Tab.get .zero c n).selfTests = satAdd32 (Tab.get .zero s.fabric.counts n).selfTests 1 := by
  have hgo : ((s.link l).st != .up || decide ((s.link l).retryAt.length < s.fabric.selftestTrigger)) = false := by
    rw [hup, decide_eq_false (by omega)]
    rfl
  have hexec : exec (.selftestTrigger l) s = execSelftestTrigger l s := rfl
  simp only [hexec, execSelftestTrigger, withLink, hl, if_true, hgo, Bool.false_eq_true, if_false]
  cases hr : linkReceiver l with
  | none => exact ⟨s.fabric.counts, done_of_job_eq hq rfl, nofun⟩
  | some n =>
    refine ⟨_, done_of_job_eq hq rfl, fun m hm => ?_⟩
    obtain rfl := Option.some.inj hm
    exact congrArg RouterCounts.selfTests (Tab.get_set_self ..)

/-! ### Spares (R372, R373, R376) -/

/-- A link whose failed data wires, as far as they are in `l`, have taken spares: what had been steered stays so, and no spare that one wire
has is given to another. -/
structure LinkSt.Steered (x y : LinkSt) (l : List Nat) : Prop where
  only : y = { x with wires := y.wires }
  kept : ∀ p ∈ x.wires, p ∈ y.wires
  taken : ∀ w ∈ l, ∃ p ∈ y.wires, p.1 = w
  apart : (x.wires.map (fun p => p.2)).Nodup → (y.wires.map (fun p => p.2)).Nodup
  within : y.spares ≤ x.spares + l.length

theorem LinkSt.Steered.nil (x : LinkSt) : x.Steered x [] := ⟨rfl, fun _ h => h, nofun, id, Nat.le_refl _⟩

theorem LinkSt.Steered.cons {x y z : LinkSt} {w : Nat} {l : List Nat} (h : x.Steered y [w]) (g : y.Steered z l) : x.Steered z (w :: l) where
  only := by
    have hg := g.only
    rw [h.only] at hg
    exact hg
  kept p hp := g.kept p (h.kept p hp)
  taken v hv := by
    rcases List.mem_cons.1 hv with rfl | hv
    · obtain ⟨p, hp, hw⟩ := h.taken v (List.mem_singleton_self v)
      exact ⟨p, g.kept p hp, hw⟩
    · exact g.taken v hv
  apart hx := g.apart (h.apart hx)
  within := by
    have hw := h.within
    have hl := g.within
    simp only [List.length_cons, List.length_nil] at hw ⊢
    omega

/-- Fewer wires than spares leave a spare free. -/
theorem LinkSt.exists_free_spare {x : LinkSt} (h : x.spares < numSpares) :
    ∃ k, (upFrom 0 numSpares).find? (fun k => !x.wires.any (fun p => p.2 = k)) = some k ∧ k ∉ x.wires.map (fun p => p.2) := by
  cases hf : (upFrom 0 numSpares).find? (fun k => !x.wires.any (fun p => p.2 = k)) with
  | some k =>
    have hfree := List.find?_some hf
    refine ⟨k, rfl, fun hk => ?_⟩
    obtain ⟨p, hp, rfl⟩ := List.mem_map.1 hk
    exact absurd hfree (by simpa using ⟨p.1, hp⟩)
  | none =>
    have hall : upFrom 0 numSpares ⊆ x.wires.map (fun p => p.2) := fun k hk => by
      simpa using List.find?_eq_none.1 hf k hk
    have hnd : (upFrom 0 numSpares).Nodup := (upFrom_pairwise 0 numSpares).imp Nat.ne_of_lt
    have hle := (List.subperm_of_subset hnd hall).length_le
    rw [upFrom_length, List.length_map] at hle
    exact absurd h (Nat.not_lt.2 hle)

theorem LinkSt.steered_steer {x : LinkSt} (w : Nat) (h : x.spares < numSpares) : ∃ y, x.steer w = some y ∧ x.Steered y [w] := by
  unfold LinkSt.steer
  split
  · next hw =>
    refine ⟨x, rfl, rfl, fun _ hp => hp, fun v hv => ?_, id, Nat.le_succ _⟩
    obtain rfl := List.mem_singleton.1 hv
    simpa using hw
  · obtain ⟨k, hk, hfree⟩ := LinkSt.exists_free_spare h
    refine ⟨_, by rw [hk]; rfl, rfl, fun p hp => List.mem_append_left _ hp, fun v hv => ?_, fun hnd => ?_, ?_⟩
    · obtain rfl := List.mem_singleton.1 hv
      exact ⟨(v, k), List.mem_append_right _ (List.mem_singleton_self _), rfl⟩
    · rw [List.map_append]
      exact List.nodup_append.2 ⟨hnd, List.nodup_singleton _, fun a ha b hb => by
        obtain rfl := List.mem_singleton.1 hb
        exact fun e => hfree (e ▸ ha)⟩
    · exact (List.length_append ..).le

theorem LinkSt.steered_steerAll {x : LinkSt} (l : List Nat) (h : x.spares + l.length ≤ numSpares) :
    ∃ y, x.steerAll l = some y ∧ x.Steered y l := by
  induction l generalizing x with
  | nil => exact ⟨x, rfl, .nil x⟩
  | cons w l ih =>
    rw [List.length_cons] at h
    obtain ⟨y, hy, hxy⟩ := x.steered_steer w (by omega)
    have hroom := hxy.within
    rw [List.length_singleton] at hroom
    obtain ⟨z, hz, hyz⟩ := ih (x := y) (by omega)
    refine ⟨z, ?_, hxy.cons hyz⟩
    rw [← hz, LinkSt.steerAll, List.foldl_cons, Option.bind_some, hy, LinkSt.steerAll]

/-- A self-test within the spares and the sideband's one brings the link up (R375, R376). -/
theorem exec_linkSelftestComplete_up {s : State} {l side : Nat} {wires : List Nat} {y : LinkSt} (hq : s.quiet) (hl : linkExists l = true)
    (hst : (s.link l).st = .selfTest) (hside : side ≤ 1) (hy : (s.link l).steerAll wires = some y) :
    exec (.linkSelftestComplete l wires side) s = .next (s.setLink l { y with st := .up, fails := 0, retryAt := [] }) := by
  show execLinkSelftestComplete l wires side s = _
  simp only [execLinkSelftestComplete, withLink, hl, if_true, hst, bne_self_eq_false, Bool.false_eq_true, if_false,
    if_neg (show ¬ side > 1 by omega), hy]
  exact done_of_job_eq hq rfl

end Sys2Proof.Machine
end

section
/-!
The escape sub-channel (R379, R386): a head that has waited ESCAPE_WAIT; and what a link and a router do, put together.
-/

namespace Sys2Proof.Machine

theorem State.flitsOut_blocks (s : State) (p : Packet) (l : List Nat) :
    ∃ b, s.flitsOut p l = { s with gaz := { s.gaz with blocks := b } } := by
  induction l generalizing s with
  | nil => exact ⟨_, rfl⟩
  | cons n l ih =>
    obtain ⟨b, hb⟩ := s.count_blocks (b := blkRouter n) (by simp only [blkRouter]; omega) evFLITS_OUT
      (2 ^ p.vc + (if p.escape then 64 else 32)) 1 p.flits
    obtain ⟨c, hc⟩ := ih (s.count (blkRouter n) evFLITS_OUT (2 ^ p.vc + (if p.escape then 64 else 32)) 1 p.flits)
    refine ⟨c, hc.trans ?_⟩
    rw [hb]

theorem State.cameTo_blocks (s : State) (router dest chan : Nat) :
    ∃ b, s.cameTo router dest chan = { s with gaz := { s.gaz with blocks := b } } := by
  unfold State.cameTo
  split
  · exact s.flitsOut_blocks _ _
  · exact ⟨_, rfl⟩

/-- The packet that waits at a router stands on the escape sub-channel; where the ESCAPE ports end (`stop`), it is discarded and counted there.
The counts of blocks are `b`. -/
def State.escaped (s : State) (router dest chan : Nat) (stop : Option Nat) (b : Tab BlockCounts) : State :=
  let t := { s with flight := (s.moveFlight router dest chan stop.isNone).getD s.flight, gaz := { s.gaz with blocks := b } }
  match stop with
  | none => t
  | some x => t.discarded x 1

theorem State.escaped_job (s : State) (router dest chan : Nat) (stop : Option Nat) (b : Tab BlockCounts) :
    (s.escaped router dest chan stop b).job = s.job := by
  cases stop <;> rfl

/-- A head that has waited ESCAPE_WAIT escapes when a credit is there (R379, R386). -/
theorem exec_escapeWaitExpiry_escapes {s : State} {r d c w : Nat} (hq : s.quiet) (hr : r < numCores) (hd : d < numCores) (hc : c ≤ 4)
    (hw : s.fabric.escapeWait ≤ w) :
    ∃ b, exec (.escapeWaitExpiry r d ⟨c, w, true⟩) s = .next (s.escaped r d c (escapeEnd s.fabric.routing.hop numCores r d) b) := by
  obtain ⟨stop, hstop⟩ : ∃ stop, escapeEnd s.fabric.routing.hop numCores r d = stop := ⟨_, rfl⟩
  obtain ⟨a, ha⟩ := s.cameTo_blocks r d c
  obtain ⟨b, hb⟩ := ({ s.cameTo r d c with flight := (s.moveFlight r d c stop.isNone).getD s.flight } : State).count_blocks
    (b := blkRouter r) (by simp only [blkRouter]; omega) evESCAPE_MOVES (2 ^ c) 1 1
  have hgo : (decide (w < s.fabric.escapeWait) || !true) = false := by
    rw [decide_eq_false (by omega)]
    rfl
  refine ⟨b, Eq.trans ?_ (done_of_job_eq hq (State.escaped_job ..))⟩
  show execEscapeWaitExpiry r d ⟨c, w, true⟩ s = _
  simp only [execEscapeWaitExpiry, withCore, hr, hd, if_true, if_neg (show ¬ c > 4 by omega), hgo, Bool.false_eq_true, if_false, hstop, hb]
  rw [ha]
  cases stop <;> rfl

/-- Before that it waits (R379). -/
theorem exec_escapeWaitExpiry_waits {s : State} {r d c w : Nat} {credit : Bool} (hr : r < numCores) (hd : d < numCores) (hc : c ≤ 4)
    (hw : w < s.fabric.escapeWait ∨ credit = false) : exec (.escapeWaitExpiry r d ⟨c, w, credit⟩) s = .next s := by
  have hwait : (decide (w < s.fabric.escapeWait) || !credit) = true := by simpa using hw
  show execEscapeWaitExpiry r d ⟨c, w, credit⟩ s = _
  simp only [execEscapeWaitExpiry, withCore, hr, hd, if_true, if_neg (show ¬ c > 4 by omega), hwait]

/-- Settles O19: a retransmission and a self-test's start count at the receiver, the failed wires of a test take free spares
(`LinkSt.steered_steerAll`), and a head escapes by where its ESCAPE ports end. -/
theorem linksRetryAndTest : Obligations.LinksRetryAndTest := by
  intro s l hq hl
  refine ⟨fun again hfew hup => ?_, fun hup hmany => ?_, fun wires side hst hroom hside => ?_, fun r d c w hr hd hc hw => ?_,
    fun r d c w credit hr hd hc hw => exec_escapeWaitExpiry_waits hr hd hc hw⟩
  · obtain ⟨counts, b, ht, hcount⟩ :=
      (s.setLink l { s.link l with fails := if again then (s.link l).fails + 1 else 0 }).countRetry_frame l
    rw [State.link_setLink] at ht
    have hexec := exec_linkCrcMismatch_retry hl hup hfew
    rw [ht] at hexec
    refine ⟨_, hexec.trans (done_of_job_eq hq rfl), ?_, fun m hm => ?_, rfl, rfl, hcount⟩
    · exact State.link_setLink ..
    · exact (State.link_setLink_other _ _ hm).trans (State.link_setLink_other _ _ hm)
  · obtain ⟨counts, hexec, hcount⟩ := exec_selftestTrigger_starts hq hl hup hmany
    exact ⟨_, hexec, State.link_setLink .., fun m hm => State.link_setLink_other _ _ hm, rfl, hcount⟩
  · obtain ⟨y, hy, hsteered⟩ := LinkSt.steered_steerAll (x := s.link l) wires hroom
    obtain ⟨honly, hkept, htaken, hapart, -⟩ := hsteered
    have hlink : (s.setLink l { y with st := .up, fails := 0, retryAt := [] }).link l = { y with st := .up, fails := 0, retryAt := [] } :=
      State.link_setLink ..
    refine ⟨_, exec_linkSelftestComplete_up hq hl hst hside hy, ?_, ?_, ?_, ?_, fun m hm => State.link_setLink_other _ _ hm, rfl⟩
    · rw [hlink, honly]
    · rw [hlink]
      exact hkept
    · rw [hlink]
      exact htaken
    · rw [hlink]
      exact hapart
  · obtain ⟨b, hexec⟩ := exec_escapeWaitExpiry_escapes hq hr hd hc hw
    refine ⟨_, hexec, fun x hx => ?_, fun hend => ?_⟩
    · rw [hx]
      exact ⟨rfl, congrArg RouterCounts.noRoute (Tab.get_set_self ..)⟩
    · rw [hend]
      rfl

end Sys2Proof.Machine
end

section
/-!
The state after reset (R424, R541, R624, R685, R695).
-/

namespace Sys2Proof.Machine

/-- Power-on leaves no core and no stack in use, so that only Window C holds a byte memory. -/
theorem State.reset_memOk : State.reset.memOk := ⟨List.forall_mem_nil _, List.forall_mem_nil _, HostSt.reset_memOk⟩

theorem State.reset_quiet : State.reset.quiet := ⟨rfl, rfl, rfl⟩

theorem State.core_reset (n : Nat) : State.reset.core n = .reset := Tab.get_nil ..

theorem CoreSt.reset_queue_idle (q : QName) : (CoreSt.reset.queue q).st = .idle := by
  cases q <;> rfl

/-- Settles O60: both invariants hold of the state after reset, whose cores are all as reset leaves them. -/
theorem resetIsSound : Obligations.ResetIsSound := by
  refine ⟨State.reset_memOk, State.reset_quiet, rfl, rfl, rfl, rfl, rfl, rfl, fun n q => ?_⟩
  rw [State.core_reset]
  exact CoreSt.reset_queue_idle q

end Sys2Proof.Machine
end

section
/-!
Responses through the mailbox (R600, R602, R605, R616): every value that a READ returns in its response is short, and a piece of a byte string
fits into a message, so that no response leaves its area of Window C.
-/

namespace Sys2Proof.Machine

/-! ### The entries (R615, R616) -/

/-- An entry that is no byte string reads as at most 64 bytes. -/
def OdEntry.Brief (e : OdEntry) : Prop := e.type ≠ .blob → ∀ s, (e.get s).length ≤ 64

namespace OdEntry.Brief

@[simp] theorem ro {index sub type scope name fields get} (h : ∀ s, (get s).length ≤ 64) : (ro index sub type scope name fields get).Brief :=
  fun _ => h

@[simp] theorem roU8 {index sub scope name get} : (roU8 index sub scope name get).Brief :=
  .ro fun _ => by simp

@[simp] theorem roU16 {index sub scope name get} : (roU16 index sub scope name get).Brief :=
  .ro fun _ => by simp

@[simp] theorem roU32 {index sub scope name get} : (roU32 index sub scope name get).Brief :=
  .ro fun _ => by simp

@[simp] theorem roU64 {index sub scope name get} : (roU64 index sub scope name get).Brief :=
  .ro fun _ => by simp

@[simp] theorem roBlob {index sub scope name get} : (roBlob index sub scope name get).Brief :=
  fun h => absurd rfl h

@[simp] theorem blobRw {index sub access scope name get set} : (blobRw index sub access scope name get set).Brief :=
  fun h => absurd rfl h

@[simp] theorem of_blob {index sub access scope name fields get set} :
    (OdEntry.mk index sub .blob access scope name fields get set).Brief :=
  fun h => absurd rfl h

@[simp] theorem num {index sub access scope name type size get ok set} (h : size ≤ 64) :
    (num index sub access scope name type size get ok set).Brief :=
  fun _ _ => (leBytes_length ..).trans_le h

@[simp] theorem cmdRec {index sub name fields act} : (cmdRec index sub name fields act).Brief :=
  fun _ _ => by simp [Machine.cmdRec]

@[simp] theorem cmd {index sub name act} : (cmd index sub name act).Brief := cmdRec

@[simp] theorem cmdStatus {index sub name fields get act} : (cmdStatus index sub name fields get act).Brief :=
  fun _ _ => by simp [Machine.cmdStatus]

end OdEntry.Brief


theorem State.length_ckptState (s : State) : s.ckptState.length = 25 := by simp [State.ckptState]

theorem State.length_feedBytes (s : State) (f : Feed) : (s.feedBytes f).length = 9 := by
  unfold State.feedBytes
  dsimp only
  split <;> simp [word32, State.freeWord]

theorem SlotTally.length_account (t : SlotTally) : t.account.length = 32 := by simp [SlotTally.account]

theorem State.length_plotterState (s : State) (k : Nat) : (s.plotterState k).length = 7 := by
  unfold State.plotterState
  split <;> simp

theorem State.length_halyardUnit (s : State) (k : Nat) : (s.halyardUnit k).length = 8 := by simp [State.halyardUnit]

theorem odIdentity_brief : ∀ e ∈ odIdentity, e.Brief := by
  have hserial : (Config.moduleSerial.take 16).length ≤ 64 := (List.length_take_le ..).trans (by decide)
  simp only [odIdentity, List.forall_mem_cons]
  exact ⟨.ro fun _ => by decide, .ro fun _ => by decide, .roU16, .ro fun _ => hserial, .roU64, .roU64, .roU32, List.forall_mem_nil _⟩

theorem odSurvey_brief : ∀ e ∈ odSurvey, e.Brief := by simp [odSurvey]

theorem odPorts_brief : ∀ e ∈ odPorts, e.Brief := by simp [odPorts]

theorem odField_brief : ∀ e ∈ odField, e.Brief := by simp [odField]

theorem odFirmware_brief : ∀ e ∈ odFirmware, e.Brief := by simp [odFirmware]

theorem odWafer_brief : ∀ e ∈ odWafer, e.Brief := by simp [odWafer]

theorem odStacks_brief : ∀ e ∈ odStacks, e.Brief := by simp [odStacks]

theorem odFabric_brief : ∀ e ∈ odFabric, e.Brief := by simp [odFabric]

theorem odFormats_brief : ∀ e ∈ odFormats, e.Brief := by simp [odFormats]

theorem odHalyard_brief : ∀ e ∈ odHalyard, e.Brief := by simp [odHalyard]

theorem odPlotter_brief : ∀ e ∈ odPlotter, e.Brief := by simp [odPlotter]

theorem odReset_brief : ∀ e ∈ odReset, e.Brief := by simp [odReset]

theorem odEvents_brief : ∀ e ∈ odEvents, e.Brief := by simp [odEvents]

theorem odKeys_brief : ∀ e ∈ odKeys, e.Brief := by simp [odKeys]

theorem odAttest_brief : ∀ e ∈ odAttest, e.Brief := by simp [odAttest]

theorem odAuth_brief : ∀ e ∈ odAuth, e.Brief := by simp [odAuth]

theorem odJob_brief : ∀ e ∈ odJob, e.Brief := by simp [odJob, State.length_ckptState]

theorem odPower_brief : ∀ e ∈ odPower, e.Brief := by simp [odPower, State.length_feedBytes, word32]

theorem odGaz_brief : ∀ e ∈ odGaz, e.Brief := by
  have hconsumer : ∀ access name fields (f : State → Nat) set, (OdEntry.mk 0x5000 4 .u32 access scSTART name fields (fun s => leBytes (f s) 4) set).Brief :=
    fun _ _ _ _ _ _ _ => by simp
  simp [odGaz, SlotTally.length_account, hconsumer]

theorem odSheet_brief (k : Nat) : ∀ e ∈ odSheet k, e.Brief := by
  simp only [odSheet, List.forall_mem_append, List.forall_mem_cons]
  exact ⟨⟨⟨⟨.roU8, .roU8, .ro fun _ => by simp [State.sheetCount], .roBlob, .ro fun _ => by simp [word32], .roBlob, .roBlob, .roBlob,
    .ro fun s => by simp [s.length_plotterState k], .roBlob, List.forall_mem_nil _⟩, forall_mem_ite_singleton .roBlob⟩, .roBlob,
    List.forall_mem_nil _⟩, forall_mem_ite_singleton (.ro fun s => by simp [s.length_halyardUnit k])⟩

theorem odFrom1010_brief : ∀ e ∈ odFrom1010, e.Brief := by
  simp only [odFrom1010, List.forall_mem_append, and_assoc]
  refine ⟨odSurvey_brief, odPorts_brief, odField_brief, odFirmware_brief, odJob_brief, odWafer_brief, odStacks_brief, odFabric_brief,
    odFormats_brief, odHalyard_brief, odPlotter_brief, odPower_brief, odReset_brief, odEvents_brief, odGaz_brief, odKeys_brief,
    odAttest_brief, odAuth_brief, fun e he => ?_⟩
  obtain ⟨k, -, hk⟩ := List.mem_flatMap.1 he
  exact odSheet_brief k e hk

theorem withHighest_brief {all l : List OdEntry} {n : Nat} (h : ∀ e ∈ l, e.Brief) : ∀ e ∈ withHighest all n l, e.Brief := by
  induction l generalizing n with
  | nil => exact List.forall_mem_nil _
  | cons e l ih =>
    obtain ⟨he, hl⟩ := List.forall_mem_cons.1 h
    unfold withHighest
    split
    · exact List.forall_mem_cons.2 ⟨he, ih hl⟩
    · exact List.forall_mem_cons.2 ⟨.roU8, List.forall_mem_cons.2 ⟨he, ih hl⟩⟩

theorem odStubbed_brief : ∀ e ∈ odStubbed, e.Brief :=
  withHighest_brief (List.forall_mem_append.2 ⟨odIdentity_brief, List.forall_mem_cons.2 ⟨.roBlob, odFrom1010_brief⟩⟩)

theorem odFind_brief {index sub : Nat} {e : OdEntry} (h : odFind index sub = some e) : e.Brief := by
  unfold odFind at h
  split at h
  · cases h
    exact .roBlob
  · exact odStubbed_brief e (List.mem_of_find?_eq_some h)

/-! ### Responses -/

/-- What an access answers when it does not reach its entry is its status alone. -/
theorem State.access_reply {P : Reply → Prop} {s : State} {index sub : Nat} {f : OdEntry → State × Reply} (hof : ∀ st, P (.of st))
    (hf : ∀ e, odFind index sub = some e → P (f e).2) : P (s.access index sub f).2 := by
  unfold State.access
  split
  · exact hof _
  · next e he =>
    split
    · exact hof _
    · exact hf e he

/-- A reply whose body fits into a message of the host's paths (R600). -/
def Reply.Fits (r : Reply) : Prop := r.body.length ≤ 4064

namespace Reply.Fits

theorem of (st : Status) : (Reply.of st).Fits := Nat.zero_le _

theorem ite {p : Prop} [Decidable p] {x y : State × Reply} (hx : x.2.Fits) (hy : ¬ p → y.2.Fits) : (if p then x else y).2.Fits := by
  split
  · exact hx
  · next h => exact hy h

/-- A piece of a byte string that a READ_BLOCK returns. -/
theorem piece (l : List Byte) (o n : Nat) : Reply.Fits ⟨.ok, slice l o (min n (maxBody .mailbox))⟩ :=
  (List.length_take_le ..).trans (Nat.min_le_right ..)

end Reply.Fits

theorem State.odRead_fits (s : State) (index sub : Nat) : (s.odRead .mailbox index sub).2.Fits :=
  State.access_reply .of fun _ he => .ite (.of _) fun _ => .ite ((leBytes_length ..).trans_le (by decide)) fun hblob =>
    (odFind_brief he hblob s).trans (by decide)

theorem State.odReadBlock_fits (s : State) (client index sub offset : Nat) (body : List Byte) :
    (s.odReadBlock .mailbox client index sub offset body).2.Fits := by
  refine State.access_reply .of fun e _ => .ite (.of _) fun _ => .ite (.of _) fun _ => ?_
  dsimp only
  split
  · exact .piece ..
  · exact .ite (.piece ..) fun _ => .piece ..

theorem State.odWrite_fits (s : State) (path : Path) (index sub : Nat) (body : List Byte) : (s.odWrite path index sub body).2.Fits :=
  State.access_reply .of fun _ _ => .ite (.of _) fun _ => .ite (.of _) fun _ => .ite (.of _) fun _ => .ite (.of _) fun _ => .of _

theorem State.joinSession_fits (s : State) (client index sub chunk offset : Nat) (data : List Byte) (last : Bool)
    (finish : State → List Byte → Wrote) : (s.joinSession client index sub chunk offset data last finish).2.Fits := by
  refine .ite (.of _) fun _ => ?_
  dsimp only
  split <;> exact .of _

theorem State.bundlePiece_fits (s : State) (path : Path) (client offset : Nat) (data : List Byte) (last : Bool) :
    (s.bundlePiece path client offset data last).2.Fits := by
  refine .ite (.of _) fun _ => ?_
  split
  · exact .of _
  · split
    · exact .of _
    · exact State.joinSession_fits ..

theorem State.odWriteBlock_fits (s : State) (path : Path) (client index sub offset : Nat) (data : List Byte) (last : Bool) :
    (s.odWriteBlock path client index sub offset data last).2.Fits :=
  State.access_reply .of fun _ _ => .ite (.of _) fun _ => .ite (.of _) fun _ => .ite (State.bundlePiece_fits ..) fun _ => .ite (.of _) fun _ =>
    State.joinSession_fits ..

/-- Every message through the mailbox is answered with a body that fits into a message. -/
theorem State.hostMessage_fits (s : State) (client : Nat) (m : List Byte) : (s.hostMessage .mailbox client m).2.Fits :=
  .ite (.of _) fun _ => .ite (State.odRead_fits ..) fun _ => .ite (State.odWrite_fits ..) fun _ => .ite (State.odReadBlock_fits ..) fun _ =>
    .ite (State.odWriteBlock_fits ..) fun _ => .ite (by simp [Reply.Fits, State.discoverBody]) fun _ => .of _

theorem length_hostResponse (m : List Byte) (r : Reply) : (hostResponse m r).length = 20 + r.body.length := by
  simp [hostResponse, fit]
  omega

end Sys2Proof.Machine
end

section
/-!
An event and what its copies touch (R541, R542, R592, R593, R599).
-/

namespace Sys2Proof.Machine

theorem State.copyEvents_frame (s : State) (n : Nat) :
    s.copyEvents n = { s with host := (s.copyEvents n).host, out := (s.copyEvents n).out } := by
  induction n generalizing s with
  | zero => rfl
  | succ n ih =>
    unfold State.copyEvents
    dsimp only
    split
    · split
      · rfl
      · rw [ih, State.vector_frame]
    · rfl

/-- While EVT_EN is not 1 nothing is copied (R592). -/
theorem State.copyEvents_of_off {s : State} (h : s.host.evtEn ≠ .on) (n : Nat) : s.copyEvents n = s := by
  cases n with
  | zero => rfl
  | succ n => exact if_neg fun hon => h hon.1

/-- The newest record stands last in its ring. -/
theorem getLast?_ringPush (cap : Nat) (l : List Event) (e : Event) : (ringPush cap l e).getLast? = some e := by
  unfold ringPush
  split <;> exact List.getLast?_concat

/-- The record that an event of a name logs next. -/
def State.nextRecord (s : State) (name : String) (cls kind src : Nat) (i : List Nat) : Event :=
  { seq := s.log.seq, step := s.stepCurrent, time := s.micros, name := name, cls := cls, kind := kind, source := src, info := i }

/-- An event's record, with the notice that its class calls for (R599). -/
def State.noted (s : State) (e : Event) : State := if e.kept && s.awake then (s.logged e).notifyEvent e else s.logged e

theorem State.noted_frame (s : State) (e : Event) :
    s.noted e = { s.logged e with fieldNet := (s.noted e).fieldNet, out := (s.noted e).out } := by
  unfold State.noted
  split <;> rfl

theorem State.event_eq (s : State) (name : String) (cls kind src : Nat) (i : List Nat) :
    s.event name cls kind src i = (s.noted (s.nextRecord name cls kind src i)).copyEvents (copyFuel (s.noted (s.nextRecord name cls kind src i))) :=
  rfl

theorem State.told_event (s : State) (name : String) (cls kind src : Nat) (i : List Nat) : s.told (s.event name cls kind src i) name := by
  have hlog : (s.event name cls kind src i).log = (s.logged (s.nextRecord name cls kind src i)).log := by
    rw [State.event_eq, State.copyEvents_log, State.noted_frame]
  refine ⟨?_, s.event_log .., s.nextRecord name cls kind src i, ?_, rfl, rfl⟩
  · rw [State.event_eq, State.copyEvents_frame, State.noted_frame]
    rfl
  · rw [hlog]
    exact getLast?_ringPush ..

/-- An event is not copied to the host while EVT_EN is not 1. -/
theorem State.event_host_of_off {s : State} (h : s.host.evtEn ≠ .on) (name : String) (cls kind src : Nat) (i : List Nat) :
    (s.event name cls kind src i).host = s.host := by
  have hnoted : (s.noted (s.nextRecord name cls kind src i)).host = s.host := by
    rw [State.noted_frame]
    rfl
  rw [State.event_eq, State.copyEvents_of_off (by rwa [hnoted]), hnoted]

end Sys2Proof.Machine
end

section
/-!
Window D (R419, R594), the mailbox (R605), PERST (R682, R686, R688) and the link to the host (R581).
-/

namespace Sys2Proof.Machine

/-! ### Window D -/

/-- Below the firmware area a read is answered with the bytes that it has read. -/
theorem State.answerRead_below {s : State} {w : LineWait} (h : w.addr + w.data.length ≤ planSpace) : s.answerRead w = s.send (.windowData w.data) := by
  unfold State.answerRead
  dsimp only
  rw [if_pos (by simp [h])]

theorem State.windowRead_clean {s : State} {k a n : Nat} (h : s.clean k) (ha : a + n ≤ planSpace) :
    s.windowRead k a n = (s.setStack k (s.stack k)).send (.windowData (s.readStack k a n)) := by
  have hlen : (s.readStack k a n).length = n := Memory.length_readN ..
  unfold State.windowRead
  rw [State.readStart_clean h]
  exact State.answerRead_below (by rwa [hlen])

theorem exec_windowDRead {s : State} {a n : Nat} (hq : s.quiet) (hup : s.hostUp = true) (hr : s.wdRefused a n = false)
    (hf : s.stackFull s.host.wdStack = false) (ha : a + n ≤ planSpace) (hc : s.clean s.host.wdStack) :
    exec (.windowDRead a n) s
      = .next ((s.setStack s.host.wdStack (s.stack s.host.wdStack)).send (.windowData (s.readStack s.host.wdStack a n))) := by
  show execWindowDRead a n s = _
  simp only [execWindowDRead, hup, hr, hf, Bool.not_true, Bool.false_eq_true, if_false, State.windowRead_clean hc ha]
  exact done_of_job_eq hq rfl

theorem exec_windowDRead_refused {s : State} {a n : Nat} (hq : s.quiet) (hup : s.hostUp = true) (hr : s.wdRefused a n = true) :
    exec (.windowDRead a n) s = .next { s with host := { s.host with wdRefused := satAdd32 s.host.wdRefused 1 }
                                               out := s.out ++ [.windowData (List.replicate n 0xFF)] } := by
  show execWindowDRead a n s = _
  simp only [execWindowDRead, hup, hr, Bool.not_true, Bool.false_eq_true, if_false, if_true]
  exact done_of_job_eq hq rfl

/-- A write that meets no input slot is a write of the host to a stack that serves it. -/
theorem exec_windowDWrite {s : State} {a : Nat} {data : List Byte} (hq : s.quiet) (hup : s.hostUp = true)
    (hr : s.wdRefused a data.length = false) (ha : a + data.length ≤ planSpace) (hs : s.slotsMet s.host.wdStack a data.length = [])
    (hc : s.clean s.host.wdStack) : exec (.windowDWrite a data) s = .next (s.writeStack s.host.wdStack a data .host) := by
  have hwrite : s.writeHbm s.host.wdStack a data .host = s.writeStack s.host.wdStack a data .host := by
    rw [State.writeHbm_clean hc]
    exact congrArg (fun t : State => t.writeStack s.host.wdStack a data .host) (if_pos (.inr rfl))
  show execWindowDWrite a data s = _
  simp only [execWindowDWrite, hup, hr, decide_eq_false (Nat.not_lt.2 ha), Bool.not_true, Bool.or_self, Bool.false_eq_true, if_false, hs,
    State.slotBusy, State.freeSlots, List.any_nil, List.foldl_nil, hwrite]
  exact done_of_job_eq hq rfl

theorem exec_windowDWrite_beyond {s : State} {a : Nat} {data : List Byte} (hq : s.quiet) (hup : s.hostUp = true)
    (ha : planSpace < a + data.length) :
    exec (.windowDWrite a data) s
      = .next { s with host := { s.host with wdBlocked := true, wdDiscarded := satAdd32 s.host.wdDiscarded 1 } } := by
  show execWindowDWrite a data s = _
  simp only [execWindowDWrite, hup, decide_eq_true ha, Bool.not_true, Bool.or_true, Bool.false_eq_true, if_false, if_true]
  exact done_of_job_eq hq rfl

/-- What a write to a clean stack writes, and what it leaves. -/
theorem State.wroteStack {s : State} {k : Nat} (hm : s.memOk) (hc : s.clean k) (a : Nat) (data : List Byte) (who : Consumer) :
    (s.writeStack k a data who).readStack k a data.length = data
      ∧ Memory.sameOutside (s.stack k).mem ((s.writeStack k a data who).stack k).mem a data.length
      ∧ s.onlyStack (s.writeStack k a data who) k := by
  have hmem : ((s.writeStack k a data who).stack k).mem = Memory.writeN (s.stack k).mem a data := by
    rw [State.stack_writeStack, StackSt.write_clean hc]
  refine ⟨?_, fun b hb => ?_, rfl, fun j hj => State.stack_writeStack_other s a data who hj⟩
  · rw [State.readStack, hmem]
    exact Memory.readN_writeN hm.stack a data
  · rw [hmem]
    exact Memory.read_writeN_outside hm.stack data hb

/-! ### The mailbox -/

/-- The state in which the mailbox's message is served. -/
def State.mailed (s : State) : State := { s with host := { s.host with mbBusy := true } }

/-- The response lies in its area of Window C, with its status, and the mailbox is free again. -/
def HostSt.answered (h : HostSt) (r : List Byte) (st : Status) : HostSt :=
  { h with windowC := Memory.writeN h.windowC 0x11000 r, mbStatus := st.code, mbBusy := false }

theorem exec_mbDoorbell {s : State} {x : State × Reply} (hup : s.hostUp = true) (hb : s.host.mbBusy = false)
    (hx : s.mailed.hostMessage .mailbox mailboxClient (Memory.readN s.host.windowC 0x10000 0x1000) = x) (hq : x.1.quiet) :
    exec .mbDoorbell s = .next (State.vector { x.1 with
      host := x.1.host.answered (hostResponse (Memory.readN s.host.windowC 0x10000 0x1000) x.2) x.2.status } 3) := by
  subst hx
  show s.writeMbDoorbell = _
  simp only [State.writeMbDoorbell, hup, hb, Bool.not_true, Bool.false_eq_true, if_false]
  exact done_of_job_eq hq (State.vector_job ..)

/-- A response is shorter than what lies between its area and the MSI-X table (R582), so that it masks no vector. -/
theorem HostSt.masked_answered {h : HostSt} (hw : Memory.wf h.windowC = true) {r : List Byte} (hr : r.length ≤ 0x1000) (st : Status) (v : Nat) :
    (h.answered r st).masked v = h.masked v := by
  unfold HostSt.masked HostSt.answered
  rw [Memory.read_writeN_outside hw r (by omega)]

theorem State.out_vector (s : State) (v : Nat) : (s.vector v).out = if s.host.linkUp && !s.host.masked v then s.out ++ [.vector v] else s.out := by
  unfold State.vector
  cases s.host.linkUp with
  | false => rfl
  | true => cases s.host.masked v <;> rfl

/-- A vector changes of the host's side at most what is pending. -/
theorem State.host_vector (s : State) (v : Nat) : (s.vector v).host = { s.host with msixPending := (s.vector v).host.msixPending } := by
  unfold State.vector
  split
  · rfl
  · split <;> rfl

/-- What stands once the response to the mailbox's message has been made. -/
theorem State.mailboxAnswered {x : State} {m : List Byte} {r : Reply} (hfits : r.Fits) (hw : Memory.wf x.host.windowC = true) {t : State}
    (ht : ({ x with host := x.host.answered (hostResponse m r) r.status } : State).vector 3 = t) :
    t.host.mbBusy = false ∧ t.host.mbStatus = r.status.code
      ∧ Memory.readN t.host.windowC 0x11000 (hostResponse m r).length = hostResponse m r
      ∧ t.out = (if x.host.linkUp && !x.host.masked 3 then x.out ++ [.vector 3] else x.out) ∧ t = { x with host := t.host, out := t.out } := by
  have hlen : (hostResponse m r).length ≤ 0x1000 := by
    have hbody : r.body.length ≤ 4064 := hfits
    rw [length_hostResponse]
    omega
  have hmask := HostSt.masked_answered hw hlen r.status 3
  have hhost := State.host_vector { x with host := x.host.answered (hostResponse m r) r.status } 3
  rw [ht] at hhost
  refine ⟨by rw [hhost]; rfl, by rw [hhost]; rfl, ?_, ?_, ?_⟩
  · rw [hhost]
    exact Memory.readN_writeN hw _ _
  · rw [← ht, State.out_vector]
    dsimp only
    rw [hmask]
    rfl
  · rw [← ht, State.vector_frame]

/-! ### The statement -/

/-- Settles O41: each access by its equation; the mailbox's response stays below the MSI-X table, and the event of a PERST is not copied. -/
theorem windowsAndMailboxServe : Obligations.WindowsAndMailboxServe := by
  intro s hq hm
  refine ⟨fun a n hup hr hf ha hc => ?_, fun a n hup hr => exec_windowDRead_refused hq hup hr, fun a data hup hr ha hs hc => ?_,
    fun a data hup ha => exec_windowDWrite_beyond hq hup ha, fun m x hup hb hread hx hqx hw => ?_, ?_, ?_⟩
  · exact ⟨_, exec_windowDRead hq hup hr hf ha hc, rfl, s.stack_setStack_stack s.host.wdStack, rfl⟩
  · exact ⟨_, exec_windowDWrite hq hup hr ha hs hc, State.wroteStack hm hc a data .host⟩
  · subst hread
    have hfits : x.2.Fits := hx ▸ State.hostMessage_fits ..
    exact ⟨_, exec_mbDoorbell hup hb hx hqx, State.mailboxAnswered hfits hw rfl⟩
  · obtain ⟨t, ht⟩ : ∃ t, ({ s with host := s.host.perst s.hostReachable } : State).event "HOST_RESET" clsRESET srcModule 0 [] = t := ⟨_, rfl⟩
    have htold := State.told_event { s with host := s.host.perst s.hostReachable } "HOST_RESET" clsRESET srcModule 0 []
    have hhost : t.host = s.host.perst s.hostReachable := ht ▸ State.event_host_of_off (show Drain.off ≠ .on by decide) ..
    rw [ht] at htold
    have hexec : exec .perst s = .next t := by
      show execPerst s = _
      rw [execPerst, ht]
      exact done_of_job_eq hq (ht ▸ State.event_job ..)
    exact ⟨t, hexec, htold, by rw [hhost]; rfl, by rw [hhost]; rfl, by rw [hhost]; rfl, by rw [hhost]; rfl, by rw [hhost]; rfl, by rw [hhost]; rfl⟩
  · exact done_of_job_eq hq rfl

end Sys2Proof.Machine
end

section
/-!
A plan image is checked (R401, R403): what the end of a load writes, and PLAN_LOAD of an image whose lines can all be read.
-/

namespace Sys2Proof.Machine

/-! ### The action records of a load (R403, R622) -/

/-- An action that runs ends with a status; one that does not run stays as it was. -/
def Action.ended (a : Action) (status : Nat) : Action := if a.busy then { a with busy := false, status := status } else a

theorem Action.ended_busy (a : Action) (status : Nat) : (a.ended status).busy = false := by
  unfold Action.ended
  split
  · rfl
  · next h => exact Bool.eq_false_iff.2 h

theorem Action.ended_count (a : Action) (status : Nat) : (a.ended status).count = a.count := by
  unfold Action.ended
  split <;> rfl

theorem Action.ended_status {a : Action} (h : a.busy = true) (status : Nat) : (a.ended status).status = status := by
  rw [Action.ended, if_pos h]

@[simp] theorem State.action_actionEnd_self (s : State) (i j st : Nat) :
    (s.actionEnd i j st).action i j = { s.action i j with busy := false, status := st } := by
  simp [State.action, State.actionEnd]

theorem State.action_actionEnd_other (s : State) {i j k l : Nat} (st : Nat) (h : odKey k l ≠ odKey i j) :
    (s.actionEnd i j st).action k l = s.action k l := by
  simp only [State.action, State.actionEnd, Tab.get_upd_other _ _ _ h]

@[simp] theorem State.action_actionStart_self (s : State) (i j : Nat) :
    (s.actionStart i j).action i j = { s.action i j with busy := true, count := satAdd32 (s.action i j).count 1 } := by
  simp [State.action, State.actionStart]

/-- The end of a load, without the action records that it ends. -/
theorem State.endLoad_only (s : State) (status : Status) (detail : Nat) :
    s.endLoad status detail = { s with
      job := { s.job with loading := none, planStatus := status.code, planDetail := detail }
      actions := (s.endLoad status detail).actions } := by
  simp only [State.endLoad]
  split <;> split <;> rfl

@[simp] theorem State.endLoad_job (s : State) (status : Status) (detail : Nat) :
    (s.endLoad status detail).job = { s.job with loading := none, planStatus := status.code, planDetail := detail } := by
  rw [State.endLoad_only]

@[simp] theorem State.endLoad_stack (s : State) (status : Status) (detail j : Nat) : (s.endLoad status detail).stack j = s.stack j := by
  rw [State.endLoad_only]
  rfl

theorem State.endLoad_quiet {s : State} (h : s.quiet) (status : Status) (detail : Nat) : (s.endLoad status detail).quiet := by
  unfold State.quiet
  rw [State.endLoad_job]
  exact h

theorem State.action_endIfBusy_self (s : State) (i status : Nat) :
    (if (s.action i 1).busy then s.actionEnd i 1 status else s).action i 1 = (s.action i 1).ended status := by
  unfold Action.ended
  split
  · exact s.action_actionEnd_self i 1 status
  · rfl

theorem State.action_endIfBusy_other (s : State) {i k : Nat} (status : Nat) (h : odKey k 1 ≠ odKey i 1) :
    (if (s.action i 1).busy then s.actionEnd i 1 status else s).action k 1 = s.action k 1 := by
  split
  · exact s.action_actionEnd_other status h
  · rfl

/-- The end of a load ends the action of PLAN_LOAD and that of SPARE_ADOPT (R424, R529). -/
theorem State.action_endLoad (s : State) (status : Status) (detail : Nat) {i : Nat} (hi : i = 0x2010 ∨ i = 0x2015) :
    (s.endLoad status detail).action i 1 = (s.action i 1).ended status.code := by
  have hne : odKey 0x2010 1 ≠ odKey 0x2015 1 := by decide
  simp only [State.endLoad]
  obtain rfl | rfl := hi
  · rw [State.action_endIfBusy_other _ _ hne, State.action_endIfBusy_self]
    rfl
  · rw [State.action_endIfBusy_self, State.action_endIfBusy_other _ _ hne.symm]
    rfl

/-! ### A hardware error ends the load (R403) -/

theorem exec_planLoadComplete_fault {s : State} {l : Loading} {p : Plan} (hq : s.quiet) (hl : s.job.loading = some l)
    (hp : l.plan = some p) :
    exec (.planLoadComplete true) s = .next ((s.endLoad .planLoadFault 0).info "PLAN_LOAD_FAULT" []) := by
  have e : execPlanLoadComplete true s = done ((s.endLoad .planLoadFault 0).info "PLAN_LOAD_FAULT" []) := by
    simp only [execPlanLoadComplete, hl, hp, if_true]
  exact e.trans (done_quiet _ (State.quiet_of_job (State.endLoad_quiet hq _ _) (State.info_job _ _ _)))

/-! ### The check of an image (R403) -/

/-- The check of an image in stack memory that can be read changes no byte: it leaves the checked plan or ends the load with PLAN_INVALID. -/
theorem State.checkLoad_clean {s : State} {k : Nat} (h : s.clean k) (a n : Nat) (old : Option Plan) :
    (∃ p, s.checkLoad ⟨k, a, n, old⟩
        = { s.setStack k (s.stack k) with job := { s.job with loading := some ⟨k, a, n, some p⟩ } })
    ∨ ∃ d, s.checkLoad ⟨k, a, n, old⟩ = (s.setStack k (s.stack k)).endLoad .planInvalid d := by
  have hlines : s.linesAt k a n .firmware = s := if_pos (.inr rfl)
  unfold State.checkLoad
  rw [State.readHbm_clean h, hlines]
  dsimp only
  split
  · next d _ => exact .inr ⟨d, rfl⟩
  · next p _ => exact .inl ⟨p, rfl⟩

theorem exec_planLoad {s : State} {k a n : Nat} (hc : s.closed = none) (hpow : s.power.powerState = 0)
    (hb : (s.action 0x2010 1).busy = false) (hl : s.job.loading = none) (hp : s.job.plan = none) (hf : imageFits k a n = true) :
    exec (.planLoad k a n) s = done ((s.actionStart 0x2010 1).checkLoad ⟨k, a, n, none⟩) := by
  show execPlanLoad k a n s = _
  unfold execPlanLoad State.opPlanLoad State.beginLoad
  rw [State.opened_of_closed_eq_none hc]
  simp [hb, hl, hp, hf, hpow]

/-- A PLAN_LOAD that is not refused leaves the checked plan, or PLAN_INVALID without one (R401, R403). -/
theorem planLoad_checks {s : State} {k a n : Nat} (hq : s.quiet) (hc : s.closed = none) (hpow : s.power.powerState = 0)
    (hb : (s.action 0x2010 1).busy = false) (hl : s.job.loading = none) (hp : s.job.plan = none) (hf : imageFits k a n = true)
    (hk : s.clean k) :
    ∃ t, exec (.planLoad k a n) s = .next t ∧ t = { s with job := t.job, hbm := t.hbm, actions := t.actions }
      ∧ (∀ j, t.stack j = s.stack j)
      ∧ ((∃ p, t.job = { s.job with loading := some ⟨k, a, n, some p⟩ } ∧ (t.action 0x2010 1).busy = true)
        ∨ t.job = { s.job with planStatus := 0x10, planDetail := t.job.planDetail } ∧ (t.action 0x2010 1).busy = false
          ∧ (t.action 0x2010 1).status = 0x10)
      ∧ (t.action 0x2010 1).count = satAdd32 (s.action 0x2010 1).count 1 := by
  have hrun := s.action_actionStart_self 0x2010 1
  rw [exec_planLoad hc hpow hb hl hp hf]
  obtain ⟨p, h⟩ | ⟨d, h⟩ := State.checkLoad_clean (s := s.actionStart 0x2010 1) (show s.clean k from hk) a n none
  · rw [h]
    exact ⟨_, done_quiet _ hq, rfl, s.stack_setStack_stack k, .inl ⟨p, rfl, congrArg Action.busy hrun⟩, congrArg Action.count hrun⟩
  · rw [h]
    generalize hu : (s.actionStart 0x2010 1).setStack k ((s.actionStart 0x2010 1).stack k) = u
    have hact : (u.endLoad .planInvalid d).action 0x2010 1
        = Action.ended { s.action 0x2010 1 with busy := true, count := satAdd32 (s.action 0x2010 1).count 1 } 0x10 := by
      rw [u.action_endLoad .planInvalid d (.inl rfl), ← hrun, ← hu]
      rfl
    have hjob : u.job = s.job := by rw [← hu]; rfl
    refine ⟨_, done_quiet _ ?_, ?_, fun j => ?_, .inr ⟨?_, ?_, ?_⟩, ?_⟩
    · exact State.endLoad_quiet (State.quiet_of_job hq hjob) _ _
    · rw [State.endLoad_only, ← hu]
      rfl
    · rw [State.endLoad_stack, ← hu]
      exact s.stack_setStack_stack k j
    · rw [State.endLoad_job, hjob, ← hl]
      rfl
    · rw [hact, Action.ended_busy]
    · rw [hact, Action.ended_status rfl]
    · rw [hact, Action.ended_count]

end Sys2Proof.Machine
end

section
/-!
A spare that adopts (R529): the removal of its own plan and the check of the image in a module without a plan, whose lines have no mirror
source.
-/

namespace Sys2Proof.Machine

/-! ### The memory that a checked read leaves (R308, R311) -/

theorem StackSt.mem_noteInner (x : StackSt) (l : List (Nat × Nat)) : (x.noteInner l).mem = x.mem := by
  unfold StackSt.noteInner
  split <;> rfl

theorem StackSt.mem_innerAgain (x : StackSt) (l : Nat) : (x.innerAgain l).mem = x.mem := by
  unfold StackSt.innerAgain
  split
  · rfl
  · exact x.mem_noteInner _

theorem Scan.mem_line (r : Scan) (l : Nat) : (r.line l).after.mem = r.after.mem := by
  have hagain : ∀ b : Bool, (if b = true then r.after else r.after.innerAgain l).mem = r.after.mem := fun b => by
    split
    · rfl
    · exact r.after.mem_innerAgain l
  unfold Scan.line
  dsimp only
  split <;> exact hagain _

theorem StackSt.mem_readRange (x : StackSt) (a n : Nat) : (x.readRange a n).after.mem = x.mem :=
  (foldl_proj (fun r : Scan => r.after.mem) Scan.mem_line _ _).trans (x.mem_noteInner _)

/-! ### A checked read by firmware without a plan (R311, R315) -/

/-- Job control, the action records and every byte of the stacks stand as they did. -/
structure State.Looked (s t : State) : Prop where
  job : t.job = s.job
  actions : t.actions = s.actions
  mem : ∀ k, (t.stack k).mem = (s.stack k).mem

namespace State.Looked

variable {s t u : State}

theorem refl (s : State) : s.Looked s := ⟨rfl, rfl, fun _ => rfl⟩

theorem congr (h : s.Looked t) (hj : u.job = t.job) (ha : u.actions = t.actions) (hh : u.hbm = t.hbm) : s.Looked u :=
  ⟨hj.trans h.job, ha.trans h.actions, fun k => by rw [State.stack, hh]; exact h.mem k⟩

theorem setStack (h : s.Looked t) {k : Nat} {x : StackSt} (hx : x.mem = (t.stack k).mem) : s.Looked (t.setStack k x) := by
  refine ⟨h.job, h.actions, fun j => ?_⟩
  by_cases hj : j = k
  · subst hj
    rw [State.stack_setStack, hx, h.mem]
  · rw [State.stack_setStack_other _ _ hj, h.mem]

theorem updStack (h : s.Looked t) (k : Nat) {f : StackSt → StackSt} (hf : ∀ x, (f x).mem = x.mem := by exact fun _ => rfl) :
    s.Looked (t.updStack k f) :=
  h.setStack (hf _)

theorem event (h : s.Looked t) (name : String) (c k src : Nat) (i : List Nat) : s.Looked (t.event name c k src i) :=
  h.congr (State.event_job ..) (State.event_actions ..) (State.event_hbm ..)

theorem afterRead (h : s.Looked t) {k : Nat} {x : StackSt} (hx : x.mem = (t.stack k).mem) : s.Looked (t.afterRead k x) := by
  unfold State.afterRead
  dsimp only
  split
  · exact h.setStack hx
  · obtain ⟨b, hb⟩ := (t.setStack k x).count_blocks (b := blkStack k) (by simp [blkStack]; omega) evOUTER_CORRECTED 0 1
      (x.counts.corrected - (t.stack k).counts.corrected)
    rw [hb]
    exact (h.setStack hx).congr rfl rfl rfl

/-- Firmware takes a line that no source gives as unreadable (R315). -/
theorem noData_firmware (h : s.Looked t) (k line : Nat) : s.Looked (t.noData k line [.firmware]) :=
  (h.updStack k).event ..

/-- A fetch with no source left ends without data (R794). -/
theorem askSource_firmware (h : s.Looked t) (k : Nat) {f : FetchSt} (hc : f.consumers = [.firmware]) (hs : f.sources = [])
    (ho : f.overwritten = []) : s.Looked (t.askSource k f) := by
  unfold State.askSource
  simp only [State.overtaken, ho, hs, hc, List.contains_nil, Bool.false_and, Bool.false_eq_true, if_false, List.filter_nil]
  exact State.Looked.noData_firmware (h.updStack k) k f.line

/-- Without a plan no region holds a line, so none of its lines has a mirror source (R561, R794). -/
theorem wantLine_firmware (h : s.Looked t) (hp : t.job.plan = none) (k line : Nat) : s.Looked (t.wantLine k line .firmware) := by
  have hregion : ∀ (u : State) (l : Nat), u.job.plan = none → u.regionAt k l = none := fun u l hu => by
    simp only [State.regionAt, State.regions, hu, List.find?_nil]
  have hparts : ∀ u : State, u.job.plan = none → u.askParts k line = u := fun u hu => by
    simp only [State.askParts, State.otherReqs, State.mirrorReq, hregion u _ hu, List.foldl_nil]
  have hsources : t.mirrorSources k line = [] := by simp only [State.mirrorSources, hregion t _ hp]
  unfold State.wantLine
  split
  · split
    · exact h
    · exact h.updStack k
  · have hask := h.askSource_firmware k (f := ⟨line, [.firmware], t.mirrorSources k line, 0, t.micros, [], none, [], [], false⟩)
      rfl hsources rfl
    rw [hparts _ (by rw [hask.job, ← h.job, hp])]
    exact hask

theorem wantLines_firmware (h : s.Looked t) (hp : t.job.plan = none) (k : Nat) (l : List Nat) :
    s.Looked (t.wantLines k l .firmware) := by
  refine List.foldlRecOn (motive := fun u => s.Looked u) _ _ h fun u hu line _ => hu.wantLine_firmware ?_ k line
  rw [hu.job, ← h.job, hp]

end State.Looked

theorem State.looked_readHbm_firmware {s : State} (hp : s.job.plan = none) (k a n : Nat) : s.Looked (s.readHbm k a n .firmware).1 := by
  have hread : s.Looked (s.readStart k a n).1 := (State.Looked.refl s).afterRead ((s.stack k).mem_readRange a n)
  have hlines : s.linesAt k a n .firmware = s := if_pos (.inr rfl)
  unfold State.readHbm
  rw [hlines]
  dsimp only
  split
  · split
    · dsimp only
      exact (State.Looked.refl s).updStack k
    · exact .refl s
  · split
    · exact hread
    · refine State.Looked.wantLines_firmware ?_ ?_ k _
      · split
        · exact hread.updStack k
        · exact hread
      · split <;> exact (congrArg JobSt.plan hread.job).trans hp

/-- The check of an image in a module without a plan, whatever its lines hold. -/
theorem State.checkLoad_unplanned {s : State} (hp : s.job.plan = none) (l : Loading) :
    ∃ u, s.Looked u ∧ ((∃ q, s.checkLoad l = { u with job := { s.job with loading := some { l with plan := some q } } })
      ∨ ∃ d, s.checkLoad l = u.endLoad .planInvalid d) := by
  have hu := State.looked_readHbm_firmware hp l.stack l.address l.length
  refine ⟨_, hu, ?_⟩
  unfold State.checkLoad
  dsimp only
  split
  · exact .inr ⟨_, rfl⟩
  · split
    · exact .inr ⟨_, rfl⟩
    · exact .inl ⟨_, by rw [hu.job]⟩

/-! ### The removal of the plan (R424, R522) -/

theorem State.stopAll_only (s : State) :
    s.stopAll = { s with cores := s.stopCores.cores, hbm := s.stopUnits.hbm, plotter := s.plotter.stop } :=
  congrArg (fun t : State => { t.stopUnits with plotter := t.plotter.stop }) (s.updCores_cores s.mapped _)

/-- A stack whose stream units stop: what it has read for them is dropped. -/
def StackSt.stopped (x : StackSt) : StackSt :=
  { x with units := x.units.map (fun q => (q.1, { q.2 with st := .stopped })), reads := x.reads.filter (fun r => !r.1.ofJob) }

theorem State.stack_stopUnits (s : State) (k : Nat) : s.stopUnits.stack k = (s.stack k).stopped :=
  Tab.get_map StackSt.stopped .reset s.hbm k

/-- What the removal of a plan keeps: wishes, a load, the action records, the power state and every byte of the stacks (R525). -/
structure State.Unloaded (s t : State) : Prop where
  loading : t.job.loading = s.job.loading
  quiet : s.quiet → t.quiet
  actions : t.actions = s.actions
  power : t.power = s.power
  mem : ∀ k, (t.stack k).mem = (s.stack k).mem

namespace State.Unloaded

variable {s t u : State}

theorem congr (h : s.Unloaded t) (hl : u.job.loading = t.job.loading) (hq : t.quiet → u.quiet) (ha : u.actions = t.actions)
    (hw : u.power = t.power) (hh : u.hbm = t.hbm) : s.Unloaded u :=
  ⟨hl.trans h.loading, fun g => hq (h.quiet g), ha.trans h.actions, hw.trans h.power,
    fun k => by rw [State.stack, hh]; exact h.mem k⟩

theorem stopAll (s : State) : s.Unloaded s.stopAll := by
  rw [State.stopAll_only]
  exact ⟨rfl, id, rfl, rfl, fun k => (congrArg StackSt.mem (s.stack_stopUnits k) :)⟩

theorem endCheckpoint (h : s.Unloaded t) : s.Unloaded t.endCheckpoint := by
  unfold State.endCheckpoint
  dsimp only
  split
  · exact h
  · unfold State.noteAborted
    split
    · exact h.congr rfl id rfl rfl rfl
    · exact h.congr (by rw [State.info_job]) (fun g => by unfold State.quiet; rw [State.info_job]; exact g) (State.info_actions ..)
        (State.info_power ..) (State.info_hbm ..)

theorem noteStep (h : s.Unloaded t) (before : Nat) : s.Unloaded (t.noteStep before) := by
  unfold State.noteStep
  split
  · exact h
  · exact h.congr (by rw [State.vector_job]) (fun g => State.quiet_of_job g (State.vector_job ..)) (State.vector_actions ..)
      (State.vector_power ..) (State.vector_hbm ..)

theorem unloadPlan (s : State) (role : Nat) : s.Unloaded (s.unloadPlan role) :=
  (((stopAll s).endCheckpoint.congr (u := _) rfl id rfl rfl rfl : s.Unloaded s.stopAll.endCheckpoint.freeRecords).noteStep s.stepCurrent).congr
    rfl id rfl rfl rfl

end State.Unloaded

/-! ### SPARE_ADOPT -/

/-- A spare that holds no plan any more, about to take the place of module m in a job (R526, R529). -/
def State.adopting (s : State) (job m : Nat) : State :=
  { s.actionStart 0x2015 1 with job := { s.job with lastJob := some (job, m) } }

theorem State.plan_unloadPlan (s : State) (role : Nat) : (s.unloadPlan role).job.plan = none := rfl

theorem exec_spareAdopt {s : State} {m k a n : Nat} {p : Plan} (hc : s.closed = none) (hpow : s.power.powerState = 0)
    (hb : (s.action 0x2015 1).busy = false) (hl : s.job.loading = none) (hp : s.job.plan = some p) (hm : m < 2 ^ 14)
    (hf : imageFits k a n = true) (hlost : s.isLost m = true) (hr : s.job.role = 2) :
    exec (.spareAdopt m k a n) s = done (((s.unloadPlan 0).adopting p.hdr.jobId m).checkLoad ⟨k, a, n, none⟩) := by
  have hstate : (s.unloadPlan 0).power.powerState = 0 :=
    (congrArg PowerSt.powerState (State.Unloaded.unloadPlan s 0).power).trans hpow
  have hload : ∀ l, ((s.unloadPlan 0).adopting p.hdr.jobId m).beginLoad l = ((s.unloadPlan 0).adopting p.hdr.jobId m).checkLoad l :=
    fun _ => if_pos hstate
  show execSpareAdopt m k a n s = _
  unfold execSpareAdopt State.opSpareAdopt
  rw [State.opened_of_closed_eq_none hc, ← hload]
  simp only [hb, hl, hp, hf, hlost, hr, Option.isSome_none, Bool.or_self, Bool.false_eq_true, if_false, Nat.not_le.2 hm,
    decide_false, Bool.not_true, bne_self_eq_false]
  rfl

/-- SPARE_ADOPT removes the spare's plan and checks the image: the checked plan waits, or the load ends with PLAN_INVALID (R403, R529). -/
theorem spareAdopt_checks {s : State} {m k a n : Nat} {p : Plan} (hq : s.quiet) (hc : s.closed = none) (hpow : s.power.powerState = 0)
    (hb : (s.action 0x2015 1).busy = false) (hl : s.job.loading = none) (hp : s.job.plan = some p) (hm : m < 2 ^ 14)
    (hf : imageFits k a n = true) (hlost : s.isLost m = true) (hr : s.job.role = 2) :
    ∃ t, exec (.spareAdopt m k a n) s = .next t ∧ t.job.plan = none ∧ t.job.lastJob = some (p.hdr.jobId, m)
      ∧ ((∃ q, t.job.loading = some ⟨k, a, n, some q⟩ ∧ (t.action 0x2015 1).busy = true)
        ∨ t.job.loading = none ∧ t.job.planStatus = 0x10 ∧ (t.action 0x2015 1).busy = false)
      ∧ ∀ j, (t.stack j).mem = (s.stack j).mem := by
  have hun := State.Unloaded.unloadPlan s 0
  have hnone := s.plan_unloadPlan 0
  rw [exec_spareAdopt hc hpow hb hl hp hm hf hlost hr]
  generalize s.unloadPlan 0 = v at hun hnone ⊢
  have hbusy : ((v.adopting p.hdr.jobId m).action 0x2015 1).busy = true := congrArg Action.busy (v.action_actionStart_self 0x2015 1)
  have hquiet : (v.adopting p.hdr.jobId m).quiet := hun.quiet hq
  have hmem : ∀ j, ((v.adopting p.hdr.jobId m).stack j).mem = (s.stack j).mem := hun.mem
  have hplan : (v.adopting p.hdr.jobId m).job.plan = none := hnone
  have hlast : (v.adopting p.hdr.jobId m).job.lastJob = some (p.hdr.jobId, m) := rfl
  generalize v.adopting p.hdr.jobId m = w at hbusy hquiet hmem hplan hlast ⊢
  obtain ⟨u, hu, ⟨q, h⟩ | ⟨d, h⟩⟩ := w.checkLoad_unplanned hplan ⟨k, a, n, none⟩
  · rw [h]
    have hrun : (u.action 0x2015 1).busy = true := by rw [State.action, hu.actions, ← State.action, hbusy]
    exact ⟨_, done_quiet _ hquiet, hplan, hlast, .inl ⟨q, rfl, hrun⟩, fun j => (hu.mem j).trans (hmem j)⟩
  · rw [h]
    refine ⟨_, done_quiet _ (State.endLoad_quiet (State.quiet_of_job hquiet hu.job) _ _), ?_, ?_, .inr ⟨?_, ?_, ?_⟩, fun j => ?_⟩
    · rw [State.endLoad_job, hu.job, ← hplan]
    · rw [State.endLoad_job, hu.job, ← hlast]
    · rw [State.endLoad_job]
    · rw [State.endLoad_job]
      rfl
    · rw [State.action_endLoad _ _ _ (.inr rfl), Action.ended_busy]
    · rw [State.endLoad_stack]
      exact (hu.mem j).trans (hmem j)

end Sys2Proof.Machine
end

section
/-!
What a loaded plan shows (R403): the entries that O28 names, gathered as one value (`PlanView`), and for each function that the last steps of
a load go through one lemma, named after it, that it shows what it showed. A proof reads as the function does. The roles of the layers are part
of the value where `roles` is on: the functions that a lost owner's mirror goes through keep the rest alone.
The lemmas are many and short, so they are elaborated one after another.
-/

namespace Sys2Proof.Machine

set_option Elab.async false

/-- What a module shows of its plan and of the load that brought it. -/
structure PlanView where
  plan : Option Plan
  jobState : Nat
  loading : Option Loading
  planStatus : Nat
  next : Nat
  role : Nat
  wantStop : Option Nat
  wantC : List FaultC
  logical : List (Nat × Nat)
  legendEpoch : Nat
  routing : Routing
  flight : FlightSt
  beatsOn : Bool
  ifaces : Tab IfState
  portModes : Nat
  roles : Option (Tab Nat)

def State.view (s : State) (roles : Bool) : PlanView where
  plan := s.job.plan
  jobState := s.job.jobState
  loading := s.job.loading
  planStatus := s.job.planStatus
  next := s.job.next
  role := s.job.role
  wantStop := s.job.wantStop
  wantC := s.job.wantC
  logical := s.wafer.logical
  legendEpoch := s.wafer.legendEpoch
  routing := s.fabric.routing
  flight := s.flight
  beatsOn := s.net.beatsOn
  ifaces := s.net.ifaces
  portModes := s.net.portModes
  roles := if roles then some s.plotter.role else none

/-- A state shows a value. -/
def State.Shows (s : State) (roles : Bool) (v : PlanView) : Prop := s.view roles = v

variable {s : State} {roles : Bool} {v : PlanView}

namespace State.Shows

theorem congr {t : State} (h : s.Shows roles v) (ht : t.view roles = s.view roles := by rfl) : t.Shows roles v := ht.trans h

theorem ite {p : Prop} [Decidable p] {t : State} (h : s.Shows roles v) (ht : t.Shows roles v) : (if p then s else t).Shows roles v := by
  split
  · exact h
  · exact ht

theorem foldl {α : Type} {f : State → α → State} {l : List α} (h : s.Shows roles v)
    (hf : ∀ t, t.Shows roles v → ∀ x, (f t x).Shows roles v) : (l.foldl f s).Shows roles v :=
  List.foldlRecOn l f h fun t ht x _ => hf t ht x

theorem updCore {n f} (h : s.Shows roles v) : (s.updCore n f).Shows roles v := h.congr
theorem updStack {k f} (h : s.Shows roles v) : (s.updStack k f).Shows roles v := h.congr

/-! ### Events and counts -/

theorem event {name cls kind source info} (h : s.Shows roles v) : (s.event name cls kind source info).Shows roles v :=
  h.congr (by simp [State.view])

theorem info {name info} (h : s.Shows roles v) : (s.info name info).Shows roles v := h.event

theorem send {o} (h : s.Shows roles v) : (s.send o).Shows roles v := h.congr

theorem count {b ev q n clocks} (h : s.Shows roles v) : (s.count b ev q n clocks).Shows roles v := .ite h.updCore h.congr

theorem fresh (h : s.Shows roles v) : s.fresh.2.Shows roles v := h.congr

/-! ### Packets of a station (R382, R386, R388) -/

theorem tableRead {e} (h : s.Shows roles v) : (s.tableRead e).Shows roles v := by
  unfold State.tableRead
  refine .ite h ?_
  dsimp only
  split <;> exact h.congr

theorem passes {n d} (h : s.Shows roles v) : (s.passes n d).Shows roles v := .ite h (h.foldl fun _ ht _ => ht.tableRead)

theorem discarded {x n} (h : s.Shows roles v) : (s.discarded x n).Shows roles v := h.congr

theorem routed {n d count go} (h : s.Shows roles v) (hgo : ∀ t, t.Shows roles v → (go t).Shows roles v) :
    (s.routed n d count go).Shows roles v := by
  unfold State.routed
  dsimp only
  split
  · exact hgo _ h.passes
  · exact h.passes.discarded

theorem fromStation {k n count go} (h : s.Shows roles v) (hgo : ∀ x y t, t.Shows roles v → (go x y t).Shows roles v) :
    (s.fromStation k n count go).Shows roles v := by
  unfold State.fromStation
  dsimp only
  split
  · exact h.tableRead
  · exact h.tableRead.routed fun _ ht => hgo _ _ _ ht

theorem landed {l} (h : s.Shows roles v) : (s.landed l).Shows roles v := h.foldl fun _ ht _ => ht.foldl fun _ hu _ => hu.count

theorem carried {src vc here dst l} (h : s.Shows roles v) : (s.carried src vc here dst l).Shows roles v := landed h.congr

/-! ### Messages (R111, R548, R552, R564) -/

theorem resolve {i} (h : s.Shows roles v) : (s.resolve i).Shows roles v := .ite h (send h.congr)

theorem netCount {i f} (h : s.Shows roles v) : (s.netCount i f).Shows roles v := .ite h h.congr

theorem frameBytes {i direction payload} (h : s.Shows roles v) : (s.frameBytes i direction payload).Shows roles v := .ite h h.count

theorem setPeer {p} (h : s.Shows roles v) : (s.setPeer p).Shows roles v := h.congr

theorem messageOn {p i m} (h : s.Shows roles v) : (s.messageOn p i m).Shows roles v :=
  (h.resolve.setPeer.netCount.foldl fun _ ht _ => ht.frameBytes).send

theorem message {dst group port m} (h : s.Shows roles v) : (s.message dst group port m).Shows roles v := by
  unfold State.message
  split
  · exact h.info
  · exact .ite h.info (.ite h (.ite h.congr h.messageOn))

theorem drainBacklog (h : s.Shows roles v) : s.drainBacklog.Shows roles v :=
  .ite h.congr (h.congr.foldl fun _ ht _ => ht.message)

theorem controlAll {sub layer step value} (h : s.Shows roles v) : (s.controlAll sub layer step value).Shows roles v :=
  h.foldl fun _ ht _ => ht.message

theorem askGather {m g rest use} (h : s.Shows roles v) : (s.askGather m g rest use).Shows roles v := message h.congr

/-! ### Reads of the stacks and what waits for them (R311 to R315, R794) -/

theorem writeStack {k a l who} (h : s.Shows roles v) : (s.writeStack k a l who).Shows roles v := h.updStack

theorem setFetch {k f} (h : s.Shows roles v) : (s.setFetch k f).Shows roles v := h.updStack

theorem dropFetch {k line} (h : s.Shows roles v) : (s.dropFetch k line).Shows roles v := h.updStack

theorem afterRead {k x} (h : s.Shows roles v) : (s.afterRead k x).Shows roles v := .ite h.congr (count h.congr)

theorem answerRead {w} (h : s.Shows roles v) : (s.answerRead w).Shows roles v := h.send

theorem finishOp {n q key} (h : s.Shows roles v) : (s.finishOp n q key).Shows roles v := h.updCore

theorem loaded {n w} (h : s.Shows roles v) : (s.loaded n w).Shows roles v :=
  h.fromStation fun _ _ _ ht => ht.carried.updCore.finishOp

theorem gotReads {k line b} (h : s.Shows roles v) : (s.gotReads k line b).Shows roles v := h.updStack

theorem gotLoads {k line b} (h : s.Shows roles v) : (s.gotLoads k line b).Shows roles v :=
  h.foldl fun _ ht _ => ht.foldl fun _ hu _ => .ite hu.updCore.loaded hu.updCore

theorem gotHost {k line b} (h : s.Shows roles v) : (s.gotHost k line b).Shows roles v :=
  (h.congr.foldl fun _ ht _ => ht.send).foldl fun _ ht _ => ht.answerRead

theorem giveLine {k line b} (h : s.Shows roles v) : (s.giveLine k line b).Shows roles v := h.gotReads.gotLoads.gotHost

theorem resumeLine {k line} (h : s.Shows roles v) : (s.resumeLine k line).Shows roles v := .ite h.afterRead.giveLine h

theorem failHost {k line} (h : s.Shows roles v) : (s.failHost k line).Shows roles v := gotHost h.congr

theorem askB {f} (h : s.Shows roles v) : (s.askB f).Shows roles v := h.congr

theorem endCheckpoint (h : s.Shows roles v) : s.endCheckpoint.Shows roles v := .ite h (.ite h.congr (info h.congr))

theorem noData {k line cs} (h : s.Shows roles v) : (s.noData k line cs).Shows roles v := by
  unfold State.noData
  refine .foldl (.ite h.updStack h.updStack.event) fun _ ht c => ?_
  cases c with
  | dload n => exact .ite ht.askB ht
  | drain => exact ht.endCheckpoint
  | host => exact ht.failHost
  | scrub => exact ht.event
  | firmware => exact ht
  | _ => exact .ite ht ht.askB

theorem overtaken {k f t} (h : s.Shows roles v) (ht : s.overtaken k f = some t) : t.Shows roles v := by
  unfold State.overtaken at ht
  split at ht
  · cases ht
    exact h.dropFetch.giveLine
  · cases ht

theorem askSource {k f} (h : s.Shows roles v) : (s.askSource k f).Shows roles v := by
  unfold State.askSource
  split
  · next t ht => exact h.overtaken ht
  · split
    · exact message h.setFetch.congr
    · exact h.dropFetch.noData

theorem askPart {k line g a} (h : s.Shows roles v) : (s.askPart k line g a).Shows roles v := by
  cases a with
  | nil => exact h
  | cons m rest => exact message h.congr

theorem askParts {k line} (h : s.Shows roles v) : (s.askParts k line).Shows roles v := by
  unfold State.askParts
  refine h.foldl fun _ ht _ => ?_
  split
  · exact ht.setFetch.askPart
  · exact ht

theorem wantLine {k line c} (h : s.Shows roles v) : (s.wantLine k line c).Shows roles v := by
  unfold State.wantLine
  split
  · exact .ite h h.setFetch
  · exact h.askSource.askParts

theorem linesAt {k a n who} (h : s.Shows roles v) : (s.linesAt k a n who).Shows roles v := .ite h h.count

theorem readHbm {k a n c} (h : s.Shows roles v) : (s.readHbm k a n c).1.Shows roles v := by
  have hread : ((s.linesAt k a n c).readStart k a n).1.Shows roles v := h.linesAt.afterRead
  unfold State.readHbm
  dsimp only
  split
  · split
    · exact h.updStack
    · exact h
  · split
    · exact hread
    · exact foldl (.ite hread.updStack hread) fun _ ht _ => ht.wantLine

theorem askAllMerges (h : s.Shows roles v) : s.askAllMerges.Shows roles v :=
  h.foldl fun _ ht _ => ht.foldl fun _ hu _ => hu.wantLine

theorem endFetch {k line} (h : s.Shows roles v) : (s.endFetch k line).Shows roles v := by
  unfold State.endFetch
  split
  · exact h
  · exact .ite h h.updStack.setFetch.resumeLine

theorem nextPart {k line g rest} (h : s.Shows roles v) : (s.nextPart k line g rest).Shows roles v := by
  unfold State.nextPart
  split
  · exact h.askPart
  · exact h.setFetch.endFetch
  · exact h

/-! ### Journals (R476) -/

theorem readEach {l who} (h : s.Shows roles v) : (s.readEach l who).1.Shows roles v :=
  List.foldlRecOn (motive := fun a : State × List (Option (List Byte)) => a.1.Shows roles v) l _ h fun _ ha _ _ => ha.readHbm

theorem closeJournal {p} (h : s.Shows roles v) : (s.closeJournal p).Shows roles v := h.writeStack.writeStack

theorem copyFound {p} (h : s.Shows roles v) : (s.copyFound p).1.Shows roles v := by
  unfold State.copyFound
  dsimp only
  split
  · exact h
  · split
    · exact h.readEach.closeJournal
    · exact h.readEach

theorem recoverJournals {l} (h : s.Shows roles v) : (s.recoverJournals l).Shows roles v :=
  (h.foldl fun _ ht _ => ht.copyFound).askAllMerges

/-! ### Peers that no port reaches (R353, R501, R574, R575) -/

theorem noHolder {k i} (h : s.Shows roles v) : (s.noHolder k i).Shows roles v := .ite h.info.event h.info.event.askB

theorem nextHolder {o} (h : s.Shows roles v) : (s.nextHolder o).Shows roles v := by
  unfold State.nextHolder
  split
  · exact h.askGather
  · split
    · exact h.noHolder
    · exact h

theorem dropOut {o} (h : s.Shows roles v) : (s.dropOut o).Shows roles v := h.congr

theorem failOver {m} (h : s.Shows roles v) : (s.failOver m).Shows roles v := by
  unfold State.failOver
  refine h.foldl fun _ ht _ => ?_
  split
  · split
    · exact .ite (.ite ht.dropOut ht.dropOut.askSource) ht.dropOut.nextPart
    · exact ht.dropOut
  · exact ht
  · exact ht.dropOut.nextHolder

theorem setRole {layer role} (h : s.Shows false v) : (s.setRole layer role).Shows false v := h.congr

theorem noteTakeover {layer} (h : s.Shows roles v) : (s.noteTakeover layer).Shows roles v := h.congr

theorem promoteMirror {lost} (h : s.Shows false v) : (s.promoteMirror lost).Shows false v := by
  unfold State.promoteMirror
  refine .ite h (h.foldl fun _ ht _ => ?_)
  dsimp only
  split
  · exact ht.setRole.noteTakeover.controlAll.event
  · exact ht.setRole.noteTakeover.controlAll

theorem losePeer {m cause} (h : s.Shows false v) : (s.losePeer m cause).Shows false v := by
  unfold State.losePeer
  split
  · exact h
  · exact .ite h (h.foldl fun _ ht _ => ht.netCount).setPeer.event.promoteMirror.failOver.drainBacklog

/-- With an interface up no peer is lost for want of ports; with none up, the roles of the layers may change. -/
theorem testPorts (h : s.Shows roles v) (hup : roles = true → ∃ g < 4, s.groupUp g ≠ []) : s.testPorts.Shows roles v := by
  unfold State.testPorts
  split
  · next hdown =>
    cases roles with
    | false => exact h.foldl fun _ ht _ => ht.losePeer
    | true =>
      obtain ⟨g, hg, hne⟩ := hup rfl
      have hall := (Bool.and_eq_true_iff.1 hdown).2
      exact absurd (List.isEmpty_iff.1 (List.all_eq_true.1 hall g (mem_upFrom.2 ⟨Nat.zero_le g, by omega⟩))) hne
  · exact h

/-! ### Copies, and the end of the command -/

theorem freshCopies {p} (h : s.Shows roles v) : (s.freshCopies p).Shows roles v :=
  h.foldl fun _ ht _ => ht.foldl fun _ hu _ => hu.congr

theorem endLoad {status detail} (h : s.Shows roles v) :
    (s.endLoad status detail).Shows roles { v with loading := none, planStatus := status.code } := by
  rw [State.endLoad_only, ← h]
  rfl

theorem stopAll (h : s.Shows roles v) : s.stopAll.Shows roles v := by
  rw [State.stopAll_only]
  exact h.congr

theorem startBatch {fs} (h : s.Shows roles v) : (s.startBatch fs).Shows roles v := h.stopAll.congr

theorem classB {fs} (h : s.Shows roles v) : (s.classB fs).Shows roles v := by
  have hlogged : (fs.foldl (fun t f => t.event "CLASS_B_FAULT" clsB (faultBSrc f).1 (faultBSrc f).2 []) s).Shows roles v :=
    h.foldl fun _ ht _ => ht.event
  unfold State.classB
  exact .ite (startBatch hlogged.congr) (.ite hlogged.congr hlogged.congr)

/-- Job control acts on class B faults alone when nothing else is wished. -/
theorem settle (h : s.Shows roles v) (hs : v.wantStop = none) (hc : v.wantC = []) : s.settle.Shows roles v := by
  have hclear : ∀ t : State, t.Shows roles v → t.clearWants.Shows roles v := fun t ht => by
    obtain rfl := ht
    show t.clearWants.view roles = t.view roles
    simp only [State.view, State.clearWants] at hs hc ⊢
    rw [hs, hc]
  have hstop : s.job.wantStop = none := (congrArg PlanView.wantStop h).trans hs
  have hclassC : s.job.wantC = [] := (congrArg PlanView.wantC h).trans hc
  unfold State.settle
  simp only [hstop, hclassC, List.isEmpty_nil, if_true]
  exact hclear _ (.ite (hclear s h) (hclear s h).classB)

end State.Shows

end Sys2Proof.Machine
end

section
/-!
A checked plan is loaded (R403 steps 4 to 8): the plan is entered, and the steps after that keep what it shows.
-/

namespace Sys2Proof.Machine

/-! ### What a load enters (R44, R403, R430, R564) -/

/-- What a state shows once a plan has been entered. -/
def State.enteredView (s : State) (p : Plan) (roles : Bool) : PlanView :=
  { s.view roles with
    plan := some p, jobState := jsLOADED, role := if p.spare then 2 else 1, next := p.hdr.firstStep,
    logical := p.legend.map (fun x => (field x 0 11, 0)), legendEpoch := (s.wafer.legendEpoch + 1) % 2 ^ 32,
    routing := p.routing, flight := .reset, beatsOn := true, roles := if roles then some p.roles else none }

variable {s : State} {roles : Bool} {v : PlanView}

namespace State.Shows

theorem freeImage {l rs} (h : s.Shows roles v) : (s.freeImage l rs).Shows roles v :=
  h.foldl fun _ ht _ => .ite ht ht.fresh.writeStack

theorem writeSchedule {p} (h : s.Shows roles v) : (s.writeSchedule p).Shows roles v := h.foldl fun _ ht _ => ht.writeStack

theorem writeLegend {p} (h : s.Shows roles v) :
    (s.writeLegend p).Shows roles { v with logical := p.legend.map (fun x => (field x 0 11, 0)) } := by
  obtain rfl := h
  rfl

theorem clearPlanScope (h : s.Shows roles v) :
    s.clearPlanScope.Shows roles { v with flight := .reset, roles := if roles then some [] else none } := by
  obtain rfl := h
  rfl

/-- The plan's routing tables, measured anew, change the legend (R45, R60). -/
theorem enterRouting {r} (h : s.Shows roles v) :
    ({ s with fabric := { s.fabric with routing := r, tableErr := [] } } : State).measure.nextEpoch.Shows roles
      { v with routing := r, legendEpoch := (v.legendEpoch + 1) % 2 ^ 32 } := by
  obtain rfl := h
  rfl

theorem enterJob {p again x} (h : s.Shows roles v) :
    ({ s with job := { s.job with plan := some p, jobState := jsLOADED, role := if p.spare then 2 else 1, next := p.hdr.firstStep,
                                  rejoin := again, lastJob := x }
              fmt := { s.fmt with jobSeed := p.seed.getD s.fmt.jobSeed }
              plotter := { s.plotter with role := p.roles } } : State).Shows roles
      { v with plan := some p, jobState := jsLOADED, role := if p.spare then 2 else 1, next := p.hdr.firstStep,
               roles := if roles then some p.roles else none } := by
  obtain rfl := h
  rfl

theorem loadCounters (h : s.Shows roles v) : s.loadCounters.Shows roles v := by
  unfold State.loadCounters
  split
  · exact h
  · exact h.foldl fun _ ht _ => ht.updStack

theorem initScales (h : s.Shows roles v) : s.initScales.Shows roles v := by
  unfold State.initScales
  split
  · exact h
  · exact h.foldl fun _ ht _ => ht.updCore

theorem restartPeers (h : s.Shows roles v) : s.restartPeers.Shows roles { v with beatsOn := true } := by
  obtain rfl := h
  rfl

end State.Shows

/-! ### The rest of the load -/

/-- Which interfaces are up is part of what a state shows, and no step of a load changes it. -/
theorem State.Shows.groupUp (h : s.Shows roles v) {t : State} (hi : v.ifaces = t.net.ifaces) (hm : v.portModes = t.net.portModes)
    (g : Nat) : s.groupUp g = t.groupUp g := by
  have hifaces : s.net.ifaces = t.net.ifaces := (congrArg PlanView.ifaces h).trans hi
  have hmodes : s.net.portModes = t.net.portModes := (congrArg PlanView.portModes h).trans hm
  have hiface : s.iface = t.iface := funext fun i => by rw [State.iface, hifaces, State.iface]
  have hmode : s.portMode = t.portMode := funext fun p => by rw [State.portMode, hmodes, State.portMode]
  have hports : s.portIfaces = t.portIfaces := funext fun p => by rw [State.portIfaces, hmode, State.portIfaces]
  rw [State.groupUp, hports, hiface, State.groupUp]

/-- Steps 4 to 8 of R403: the plan is entered, and the recovery of journals, the test of the ports and the JOIN or fresh copies that follow
keep what it shows. -/
theorem State.shows_applyPlan (s : State) (l : Loading) (p : Plan) (hup : roles = true → ∃ g < 4, s.groupUp g ≠ []) :
    (s.applyPlan l p).Shows roles { s.enteredView p roles with loading := none, planStatus := 0 } := by
  unfold State.applyPlan
  extract_lets again cleared legend cores _ routed _ _ _ job entered _ recovered ports _ joined
  have hcleared : cleared.Shows roles _ := State.Shows.clearPlanScope (v := s.view roles) rfl |>.freeImage.writeSchedule
  clear_value cleared
  have hcores : cores.Shows roles _ := hcleared.writeLegend.foldl fun _ ht _ => ht.updCore
  have hrouted : routed.Shows roles _ := hcores.enterRouting
  have hentered : entered.Shows roles (s.enteredView p roles) := hrouted.enterJob.loadCounters.initScales.restartPeers
  clear_value entered
  have hrecovered : recovered.Shows roles _ := State.Shows.recoverJournals hentered.congr
  have hports : ports.Shows roles _ := hrecovered.testPorts fun hr => by
    obtain ⟨g, hg, hne⟩ := hup hr
    exact ⟨g, hg, by rwa [hrecovered.groupUp (t := s) rfl rfl]⟩
  clear_value ports
  have hjoined : joined.Shows roles _ := .ite hports.controlAll (State.Shows.freshCopies hports.congr)
  exact hjoined.endLoad.info

/-- PLAN_LOAD_COMPLETE without an error: what the module shows of the plan is what the plan says (R403, R424, R564). -/
theorem planLoadComplete_loads {l : Loading} {p : Plan} (hq : s.quiet) (hl : s.job.loading = some l) (hp : l.plan = some p) :
    ∃ t, exec (.planLoadComplete false) s = .next t ∧ t.job.plan = some p ∧ t.job.jobState = jsLOADED ∧ t.job.loading = none
      ∧ t.job.planStatus = 0 ∧ t.job.next = p.hdr.firstStep ∧ t.job.role = (if p.spare then 2 else 1) ∧ t.flight = .reset
      ∧ t.wafer.logical = p.legend.map (fun x => (field x 0 11, 0)) ∧ t.fabric.routing = p.routing
      ∧ t.wafer.legendEpoch = (s.wafer.legendEpoch + 1) % 2 ^ 32 ∧ t.net.beatsOn = true
      ∧ ((∃ g < 4, s.groupUp g ≠ []) → t.plotter.role = p.roles) := by
  obtain ⟨hstop, _, hclassC⟩ := hq
  have hview := (s.shows_applyPlan (roles := false) l p (absurd · Bool.false_ne_true)).settle hstop hclassC
  have hroles := fun hup => (s.shows_applyPlan (roles := true) l p fun _ => hup).settle hstop hclassC
  have hexec : exec (.planLoadComplete false) s = done (s.applyPlan l p) := by
    show execPlanLoadComplete false s = _
    simp only [execPlanLoadComplete, hl, hp, Bool.false_eq_true, if_false]
  rw [hexec, done]
  generalize (s.applyPlan l p).settle = t at hview hroles
  exact ⟨t, rfl, congrArg PlanView.plan hview, congrArg PlanView.jobState hview, congrArg PlanView.loading hview,
    congrArg PlanView.planStatus hview, congrArg PlanView.next hview, congrArg PlanView.role hview, congrArg PlanView.flight hview,
    congrArg PlanView.logical hview, congrArg PlanView.routing hview, congrArg PlanView.legendEpoch hview,
    congrArg PlanView.beatsOn hview, fun hup => Option.some.inj (congrArg PlanView.roles (hroles hup))⟩

/-- Settles O28: the check of the image, in PLAN_LOAD and in SPARE_ADOPT, and both ends of a checked load. -/
theorem plansAreLoaded : Obligations.PlansAreLoaded := by
  unfold Obligations.PlansAreLoaded
  intro s hq
  refine ⟨fun k a n hc hpow hb hl hp hf hk => planLoad_checks hq hc hpow hb hl hp hf hk,
    fun m k a n p hc hpow hb hl hp hm hf hlost hr => spareAdopt_checks hq hc hpow hb hl hp hm hf hlost hr,
    fun l p hl hp => ⟨planLoadComplete_loads hq hl hp, _, exec_planLoadComplete_fault hq hl hp, ?_, ?_, ?_, ?_⟩⟩
  · rw [State.info_job, State.endLoad_job]
    rfl
  all_goals
    simp only [State.info_cores, State.info_hbm, State.info_wafer]
    rw [State.endLoad_only]

end Sys2Proof.Machine
end
